-- ==== Sys2Proof/Word.lean ====
section
/-! DEFINITION. The byte of the management buses, and the numbering types of the manual (00_scope.md, Table 0-3):
slots, trunk groups, and the sets the manual sends as bit patterns (R168). -/

namespace Sys2Proof

/-- One byte on a management bus. -/
abbrev Byte := BitVec 8

/-- A slot. The manual numbers slots 1 to 16; slot `n` is the index `n - 1`. -/
abbrev SlotId := Fin 16

/-- A trunk group. The manual numbers trunk groups 1 to 32; group `g` is the index `g - 1`. -/
abbrev GroupId := Fin 32

/-- A set of trunk groups. Bit `g - 1` stands for group `g`, as R168 lays a set of groups out on the bus. -/
abbrev GroupSet := BitVec 32

/-- A set of slots. Bit `n - 1` stands for slot `n`, as R168 lays a set of slots out on the bus. -/
abbrev SlotSet := BitVec 16

/-- Membership of a group in a set of groups. -/
abbrev GroupSet.mem (gs : GroupSet) (g : GroupId) : Bool := gs.getLsbD g.val

/-- Membership of a slot in a set of slots. -/
abbrev SlotSet.mem (ss : SlotSet) (i : SlotId) : Bool := ss.getLsbD i.val

end Sys2Proof
end

