-- ==== Sys2Proof/Syntax.lean ====
section
/-! DEFINITION. The commands of the SAC-16: one constructor of `Instr` for each row of the operation table, with the
row's operands. A command is one of the part's indivisible steps (95_what_each_step_holds.md): an event at a pin or at
the tick generator, a step of one of the blocks, or a whole transaction on a management bus. -/

namespace Sys2Proof

/-- The two management bus ports (R167). -/
inductive Port where
  | a
  | b
deriving DecidableEq, Repr

/-- The two power zones: zone 1 is slots 1 to 8, zone 2 is slots 9 to 16 (Table 0-3). -/
inductive ZoneId where
  | one
  | two
deriving DecidableEq, Repr

/-- The two shelf managers. -/
inductive ManagerId where
  | a
  | b
deriving DecidableEq, Repr

/-- The two frame-sync sources (R100). -/
inductive Source where
  | x
  | y
deriving DecidableEq, Repr

/-- The lane modes of Table 7-2. -/
inductive LaneMode where
  | openMode
  | biased
  | listen
  | joined
deriving DecidableEq, Repr

/-- One raw sample of a slot's five input lines (Table 2-1), each `true` when the line is active: L made, S made,
handle CLOSED, PG present, OC active. -/
structure LineSample where
  long         : Bool
  short        : Bool
  handleClosed : Bool
  pg           : Bool
  oc           : Bool
deriving DecidableEq, Repr

/-- One lane-sense reading of a slot: the mode its switch bank is in and the groups it drives (R122). -/
structure LaneSense where
  mode  : LaneMode
  drive : GroupSet
deriving DecidableEq, Repr

/-- What the pins show at one multiframe tick: the five lines of all sixteen slots (R30), the four feed-good lines
(R61, `true` is high), the two bay straps (R155, `true` is present), the clock and data lines of the two bus ports
(R172, `true` is low), and the restart line (R178, `true` is held). -/
structure TickInputs where
  lines    : Vector LineSample 16
  feed1A   : Bool
  feed1B   : Bool
  feed2A   : Bool
  feed2B   : Bool
  strapA   : Bool
  strapB   : Bool
  clockLowA : Bool
  dataLowA  : Bool
  clockLowB : Bool
  dataLowB  : Bool
  restartHeld : Bool
deriving DecidableEq, Repr

/-- How much of a tick one command carries. The blocks take a tick independently of one another (R98), and Table 8-3
gives different outcomes for a sample report taken before and after the change window block takes the tick. -/
inductive TickPart where
  /-- The tick is issued and every block takes it. -/
  | whole (x : TickInputs)
  /-- The tick is issued and every block takes it but the change window block and the event counter bank. -/
  | issue (x : TickInputs)
  /-- The change window block and the event counter bank take the tick issued before. -/
  | windowAndBank
deriving DecidableEq, Repr

/-- How a transaction that carried a whole request frame goes on (R167, R169, R171). In a transaction with another device
the address that follows a repeated start is that device's (log entry 27). -/
inductive FrameEnd where
  /-- A repeated start ends the frame and the read address has not come when the reply is built: HOLDING. -/
  | hold
  /-- A repeated start ends the frame and the read address came in ANSWERING: SENDING. -/
  | read
  /-- A STOP ends the frame: the reply is discarded, IDLE. -/
  | stop
  /-- A START with the write address ends the transaction in ANSWERING as a STOP does: IDLE. -/
  | write
deriving DecidableEq, Repr

/-- How a transaction is broken off or a held reply dropped: by a STOP, by a START with the port's own write or read
address, or by a START with the address of another device (R167, R169). -/
inductive BusEvent where
  | stop
  | startWrite
  | startRead
  | startOther
deriving DecidableEq, Repr

/-- A request frame that has passed the port's length and check-byte tests (R168, R170), with the bus address it was
written to. The length byte and the check byte are those the parameters give. `delay` is the time in microseconds from the
latest timed event to the event that takes the request; READ_SHELF alone uses it (R100, log entry 5). -/
structure Request where
  port   : Port
  addr   : BitVec 7
  tag    : Byte
  slot   : Byte
  params : List Byte
  ending : FrameEnd
  delay  : Nat
deriving DecidableEq, Repr

/-- The commands, one constructor for each row of spec/opcode_table.json, in the table's order. -/
inductive Instr where
  /-- POWER_UP (R178). -/
  | powerUp
  /-- CONTROLLER_RESTART (R178). -/
  | controllerRestart
  /-- SURVEY_CLASSIFICATION (R179). -/
  | surveyClassification
  /-- SURVEY_DONE (R180). -/
  | surveyDone
  /-- MULTIFRAME_TICK (R98). -/
  | multiframeTick (part : TickPart)
  /-- SAMPLE_REPORT (R35) of one slot. -/
  | sampleReport (i : SlotId)
  /-- GRANT (R89) to the head of one zone's queue. -/
  | grant (z : ZoneId)
  /-- PRECHARGE_COMPLETE (R92): the sample report that completes a slot's precharge. -/
  | prechargeComplete (i : SlotId)
  /-- PRECHARGE_LIMIT_EXPIRY (R93) of one zone's limit timer. -/
  | prechargeLimitExpiry (z : ZoneId)
  /-- FEED_HEALTH_CHANGE (R61) of one zone. -/
  | feedHealthChange (z : ZoneId)
  /-- BAY_STRAP_CHANGE (R155) of one manager. -/
  | bayStrapChange (m : ManagerId)
  /-- SUPERVISION_TIMER_EXPIRY (R157) of one manager. -/
  | supervisionTimerExpiry (m : ManagerId)
  /-- DECLARE_TIMER_EXPIRY (R42) of one slot. -/
  | declareTimerExpiry (i : SlotId)
  /-- DRAIN_TIMER_EXPIRY (R146) of one slot. -/
  | drainTimerExpiry (i : SlotId)
  /-- DISCHARGE_TIMER_EXPIRY (R151) of one slot. -/
  | dischargeTimerExpiry (i : SlotId)
  /-- RETRY_BACKOFF_EXPIRY (R23) of one slot. -/
  | retryBackoffExpiry (i : SlotId)
  /-- HOLDOVER_LIMIT (R105). -/
  | holdoverLimit
  /-- MARKER_ARRIVAL (R100) on a source, `delay` microseconds after the latest timed event. -/
  | markerArrival (src : Source) (delay : Nat)
  /-- SYNC_WINDOW_CLOSE (R104), one frame after a tick. -/
  | syncWindowClose
  /-- HIGHWAY_ERROR (R132). -/
  | highwayError
  /-- LANE_SENSE_SAMPLE (R122): the reading of every slot at a tick. -/
  | laneSenseSample (senses : Vector LaneSense 16)
  /-- WINDOW_GRANT (R130). -/
  | windowGrant
  /-- WINDOW_VERDICT (R134). -/
  | windowVerdict
  /-- REVERT (R118). -/
  | revert
  /-- RESTORE (R120). -/
  | restore
  /-- UNDO (R124). -/
  | undo
  /-- READ_SLOT (R37). -/
  | readSlot (r : Request)
  /-- READ_ZONE (R79). -/
  | readZone (r : Request)
  /-- READ_SHELF (R106), taken `delay` microseconds after the latest timed event. -/
  | readShelf (r : Request)
  /-- READ_NOTICES (R177). -/
  | readNotices (r : Request)
  /-- SET_NOTICE_MASK (R176). -/
  | setNoticeMask (r : Request)
  /-- REFRESH (R156). -/
  | refresh (r : Request)
  /-- SET_ZONE (R72). -/
  | setZone (r : Request)
  /-- SET_SLOT_POLICY (R162). -/
  | setSlotPolicy (r : Request)
  /-- CONTINUE: RESPOND with response 1 (R163). -/
  | respContinue (r : Request)
  /-- HOLD: RESPOND with response 2 (R164). -/
  | respHold (r : Request)
  /-- REJECT: RESPOND with response 3 (R163). -/
  | respReject (r : Request)
  /-- ROLLBACK: RESPOND with response 4 (R165). -/
  | respRollback (r : Request)
  /-- JOIN: RESPOND with response 5 (R163). -/
  | respJoin (r : Request)
  /-- RETRY: RESPOND with response 6 (R163). -/
  | respRetry (r : Request)
  /-- RETIRE_RESPONSE: RESPOND with response 7 (R23, R163). -/
  | respRetire (r : Request)
  /-- QUIESCED: RESPOND with response 8 (R147). -/
  | respQuiesced (r : Request)
  /-- CANCEL: RESPOND with response 9 (R148). -/
  | respCancel (r : Request)
  /-- ASSIGN_GROUPS (R112). -/
  | assignGroups (r : Request)
  /-- RELEASE_GROUPS (R112). -/
  | releaseGroups (r : Request)
  /-- RETIRE (R144). -/
  | retire (r : Request)
  /-- FORCE_RETIRE (R147). -/
  | forceRetire (r : Request)
  /-- ADOPT (R161). -/
  | adopt (r : Request)
  /-- UNBAR (R26). -/
  | unbar (r : Request)
  /-- SET_OBSERVATION (R131). -/
  | setObservation (r : Request)
  /-- SET_TIMERS (R43). -/
  | setTimers (r : Request)
  /-- SET_MONITOR (R142). -/
  | setMonitor (r : Request)
  /-- READ_MONITOR (R142). -/
  | readMonitor (r : Request)
  /-- CLEAR_MONITOR (R142). -/
  | clearMonitor (r : Request)
  /-- UNFREEZE (R142). -/
  | unfreeze (r : Request)
  /-- DECLARE (R47). -/
  | declare (r : Request)
  /-- RETIRE_SELF (R143). -/
  | retireSelf (r : Request)
  /-- BAD_CHECK_FRAME (R170): the bytes of a whole frame with a wrong length or check byte. -/
  | badCheckFrame (port : Port) (addr : BitVec 7) (bytes : List Byte) (ending : FrameEnd)
  /-- UNKNOWN_REQUEST (R170): a checked frame and its request code byte. -/
  | unknownRequest (code : Byte) (r : Request)
  /-- BUS_ERROR (R169): the bytes written when a START or STOP came inside the frame. -/
  | busError (port : Port) (addr : BitVec 7) (bytes : List Byte) (ev : BusEvent)
  /-- EMPTY_WRITE (R167): a write address followed at once by a STOP. -/
  | emptyWrite (port : Port) (addr : BitVec 7)
  /-- REPLY_READ (R171): a read of `n` bytes, ended by a STOP or a not-acknowledge. -/
  | replyRead (port : Port) (addr : BitVec 7) (n : Nat)
  /-- REPLY_DISCARD (R167): a STOP, or a START with the write address, while a reply is held or being sent. -/
  | replyDiscard (port : Port) (addr : BitVec 7) (ev : BusEvent)
  /-- STUCK_LINE_RESET (R172) of one port. -/
  | stuckLineReset (port : Port)
deriving DecidableEq, Repr

end Sys2Proof
end

