-- ==== Sys2Proof/Decode.lean ====
section
/-! DEFINITION. How a command is spelled: the request frames of chapter 11 as bytes, which command a frame is, and the
frame of a request. No row of the operation table gives bits, so no word of the table spells a command. -/

namespace Sys2Proof

/-! ## The bytes of a frame (R168, R169, Table 11-1) -/

/-- The 8-bit sum of a frame's bytes (Table 11-1). -/
def byteSum (l : List Byte) : Byte := l.foldl (· + ·) 0

/-- A frame's bytes with the check byte that makes their 8-bit sum 0 (Table 11-1). -/
def withCheck (l : List Byte) : List Byte := l ++ [-(byteSum l)]

/-- The expected length of a frame, once its fourth byte is there: 5 + L (R169). -/
def frameLength? (bytes : List Byte) : Option Nat := bytes[3]?.map fun l => 5 + l.toNat

/-- Whether at least the expected length has been written. -/
def wholeFrame (bytes : List Byte) : Bool :=
  match frameLength? bytes with
  | some n => decide (n ≤ bytes.length)
  | none => false

/-- The fields of a request frame (Table 11-1); the length byte is the number of the parameters. -/
structure RequestFrame where
  tag    : Byte
  code   : Byte
  slot   : Byte
  params : List Byte
deriving DecidableEq, Repr

/-- The bytes of a request frame, 1 to 5 + L. -/
def RequestFrame.bytes (f : RequestFrame) : List Byte :=
  withCheck ([f.tag, f.code, f.slot, BitVec.ofNat 8 f.params.length] ++ f.params)

/-- The bytes of a frame read as its fields, where they pass the first two tests of R170: L at most 24, exactly 5 + L
bytes, and a check byte that makes the sum 0. -/
def requestFrame? (bytes : List Byte) : Option RequestFrame :=
  match bytes with
  | tag :: code :: slot :: l :: rest =>
    if l.toNat ≤ 24 ∧ rest.length = l.toNat + 1 ∧ byteSum bytes = 0 then some ⟨tag, code, slot, rest.take l.toNat⟩
    else none
  | _ => none

/-- Whether a whole frame passes the length and check-byte tests (R170). -/
def goodFrame (bytes : List Byte) : Bool := (requestFrame? bytes).isSome

/-! ## Senders and codes (Tables 11-1 and 11-4) -/

/-- The sender a source tag names (Table 11-1). -/
inductive Sender where
  | manager (m : ManagerId)
  | blade (i : SlotId)
deriving DecidableEq, Repr

def sender? (tag : Byte) : Option Sender :=
  if tag = 0x01 then some (.manager .a)
  else if tag = 0x02 then some (.manager .b)
  else if h : 0x11 ≤ tag.toNat ∧ tag.toNat ≤ 0x20 then some (.blade ⟨tag.toNat - 0x11, by omega⟩)
  else none

/-- The codes of Table 11-4 that are requests other than a read. -/
def otherRequestCodes : List Byte :=
  [0x05, 0x06, 0x07, 0x08, 0x09, 0x0A, 0x0B, 0x0C, 0x0D, 0x0E, 0x0F, 0x10, 0x11, 0x12, 0x14, 0x15, 0x20, 0x21]

/-- The codes of Table 11-4 that are reads. -/
def readCodes : List Byte := [0x01, 0x02, 0x03, 0x04, 0x13]

/-- Whether a request code is a request of a kind of sender (Table 11-4). -/
def codeAllowed (code : Byte) (who : Sender) : Bool :=
  match who with
  | .manager _ => (code ∈ readCodes || code ∈ otherRequestCodes) && code ≠ 0x20 && code ≠ 0x21
  | .blade _ => code = 0x01 || code = 0x20 || code = 0x21

/-- Whether the frame's sender is unknown, or makes no request of this code (R170). -/
def unknownTo (code tag : Byte) : Bool :=
  match sender? tag with
  | some who => !codeAllowed code who
  | none => true

/-- The row of a RESPOND by its response code (Table 11-4). Log entry 7: a frame without one of the nine is BAD_PARAM in
every row, and is given to the first. -/
def respondCommand (r : Request) : Instr :=
  match r.params.head?.map (·.toNat) with
  | some 2 => .respHold r
  | some 3 => .respReject r
  | some 4 => .respRollback r
  | some 5 => .respJoin r
  | some 6 => .respRetry r
  | some 7 => .respRetire r
  | some 8 => .respQuiesced r
  | some 9 => .respCancel r
  | _ => .respContinue r

/-- The command of a request code (Table 11-4). -/
def codeCommand? (code : Byte) (r : Request) : Option Instr :=
  match code.toNat with
  | 0x01 => some (.readSlot r)
  | 0x02 => some (.readZone r)
  | 0x03 => some (.readShelf r)
  | 0x04 => some (.readNotices r)
  | 0x05 => some (.setNoticeMask r)
  | 0x06 => some (.refresh r)
  | 0x07 => some (.setZone r)
  | 0x08 => some (.setSlotPolicy r)
  | 0x09 => some (respondCommand r)
  | 0x0A => some (.assignGroups r)
  | 0x0B => some (.releaseGroups r)
  | 0x0C => some (.retire r)
  | 0x0D => some (.forceRetire r)
  | 0x0E => some (.adopt r)
  | 0x0F => some (.unbar r)
  | 0x10 => some (.setObservation r)
  | 0x11 => some (.setTimers r)
  | 0x12 => some (.setMonitor r)
  | 0x13 => some (.readMonitor r)
  | 0x14 => some (.clearMonitor r)
  | 0x15 => some (.unfreeze r)
  | 0x20 => some (.declare r)
  | 0x21 => some (.retireSelf r)
  | _ => none

/-! ## Frames and commands -/

/-- A frame as the request that a port takes, `delay` microseconds after the latest timed event. -/
def RequestFrame.request (f : RequestFrame) (port : Port) (addr : BitVec 7) (ending : FrameEnd) (delay : Nat) : Request :=
  { port := port, addr := addr, tag := f.tag, slot := f.slot, params := f.params, ending := ending, delay := delay }

/-- The bytes of a request's frame: 5 + L (Table 11-1). -/
def Request.size (r : Request) : Nat := 5 + r.params.length

/-- The frame of a request with its code. -/
def Request.frame (code : Byte) (r : Request) : RequestFrame :=
  { tag := r.tag, code := code, slot := r.slot, params := r.params }

/-- The command that a whole frame is, by the tests of R170 that need no state: BAD_CHECK_FRAME, UNKNOWN_REQUEST, or the
command of its code. -/
def frameCommand (port : Port) (addr : BitVec 7) (bytes : List Byte) (ending : FrameEnd) (delay : Nat) : Instr :=
  match requestFrame? bytes with
  | none => .badCheckFrame port addr bytes ending
  | some f =>
    let r := f.request port addr ending delay
    if unknownTo f.code f.tag then .unknownRequest f.code r
    else (codeCommand? f.code r).getD (.unknownRequest f.code r)

/-! ## Words of the operation table -/

/-- The command a word spells by the table's bits. The table gives no row any bits, so no word spells one. -/
def decodeTableWord (_nbits _w : Nat) : Option Instr := none

end Sys2Proof
end

