-- ==== Sys2Proof/Config.lean ====
section
/-! DEFINITION. The constants the manual fixes for every SAC-16, and the one value it leaves open. -/

namespace Sys2Proof.Config

/-- One highway frame in microseconds (Table 0-3). The model measures time inside a multiframe in microseconds. -/
abbrev frameUs : Nat := 125

/-- The frames of one multiframe of internal timing (R98). -/
abbrev multiframeUs : Nat := 16 * frameUs

/-- A source is present while a marker of it arrived within this time (R100). -/
abbrev presenceUs : Nat := 32 * frameUs

/-- The spacing of a good marker in ACQUIRING (R102). -/
abbrev goodSpacingMinUs : Nat := 15 * frameUs
abbrev goodSpacingMaxUs : Nat := 17 * frameUs

/-- The good markers, and the good findings in HOLDOVER, that lock the reference (R103, R105). -/
abbrev lockCount : Nat := 8

/-- The ticks of a holdover (R105). -/
abbrev holdoverTicks : Nat := 250

/-- The reservation given to a slot the survey finds powered (R63). -/
abbrev surveyReservation : Nat := 1000

/-- The bus address with all shelf-address straps at 0 (R167). -/
abbrev busBase : BitVec 7 := 0x38

/-- The consecutive low ticks that make a bus line stuck (R172). -/
abbrev stuckTicks : Nat := 13

/-- The entries the disturbance history keeps (R132). -/
abbrev historyLength : Nat := 64

/-- The largest value of an event counter (R139). -/
abbrev counterMax : Nat := 16777215

/-- The largest age of the change window (Table 8-1). -/
abbrev ageMax : Nat := 65535

/-- DESIGN CHOICE (log entry 15): the byte READ_SHELF part 3 carries for the error count of the latest history entry
while the history has none. R138 and Table 11-6 state no value there, so it is free: a fresh one for each such read. -/
opaque freeByte : Nat → BitVec 8

end Sys2Proof.Config
end

