-- ==== Sys2Proof/Machine/State.lean ====
section
/-! DEFINITION. Everything the manual has the SAC-16 hold, block by block (Table 0-1), as plain data; the reasons a
command can stop; and the machine right after reset. A value the manual works out from others (Ceff, headroom, held
groups, indicator, attention line) is not stored: Machine/Flags.lean computes it. -/

namespace Sys2Proof.Machine

/-! ## Slot sequencer (chapter 1) -/

/-- The nineteen slot states of Table 1-2. -/
inductive SlotState where
  | empty
  | seating
  | present
  | declared
  | queued
  | precharge
  | powered
  | listen
  | joinWait
  | joinObserve
  | live
  | reverted
  | draining
  | leaveWait
  | leaveObserve
  | poweringDown
  | released
  | barred
  | orphaned
deriving DecidableEq, Repr

/-- The phase of a slot in JOIN_OBSERVE or LEAVE_OBSERVE (R11). -/
inductive SlotPhase where
  | observeJoin
  | revertPending
  | observeRevert
  | observeLeave
deriving DecidableEq, Repr

/-- The policy of a slot position (R162). -/
inductive Policy where
  | auto
  | supervised
deriving DecidableEq, Repr

/-- The fault causes of Table 1-1. -/
inductive FaultCause where
  | overcurrent
  | prechargeTimeout
  | laneMismatch
  | revertDisturbed
  | stuckLane
  | rejected
  | attempts
  | zoneDark
deriving DecidableEq, Repr

/-- Who started a retirement (R6). -/
inductive DrainOrigin where
  | handle
  | manager
  | blade
deriving DecidableEq, Repr

/-- Where a slot goes at the end of its discharge (R7). -/
inductive DischargeTarget where
  | released
  | declared
deriving DecidableEq, Repr

/-- The removal indicator (Table 1-5). -/
inductive Indicator where
  | off
  | slow
  | fast
  | on
deriving DecidableEq, Repr

/-- The power path: off, on through the zone's limiter, or on the full connection (R8). -/
inductive PowerPath where
  | off
  | limited
  | full
deriving DecidableEq, Repr

/-- One accepted handle change: the new level, and the state in which it was accepted (R36). -/
structure HandleCode where
  opened : Bool
  state  : SlotState
deriving DecidableEq, Repr

/-- A slot timer (Table 1-4): the count of ticks taken, and the length it started with. -/
inductive SlotTimer where
  | stopped
  | running (count length : Nat)
  | expired
deriving DecidableEq, Repr

/-- The class of a blade (Table 3-1). -/
inductive BladeClass where
  | control
  | line
  | service
  | aux
deriving DecidableEq, Repr

/-- A declaration as the slot record holds it, after repair (Table 3-1). -/
structure Declaration where
  cls       : BladeClass
  power     : Nat
  bulk      : Nat
  wanted    : Nat
  serial    : List Byte
  kindCode  : List Byte
  preferred : List GroupId
deriving DecidableEq, Repr

/-! ## Seating sampler (chapter 2) -/

/-- The four debounced lines of a slot, each `true` when active (Table 2-1). -/
structure Levels where
  long         : Bool
  short        : Bool
  handleClosed : Bool
  pg           : Bool
deriving DecidableEq, Repr

/-- The presence level of a slot (Table 2-2). -/
inductive Presence where
  | none
  | partly
  | full
deriving DecidableEq, Repr

/-- What a report brings of a slot's lines: the accepted levels, whether an OC sample was active (R30, R33), and in the
first report after the survey the levels found changed at its end, which changed before those of the report's own tick
(R44, R180). -/
structure LineReport where
  levels    : Levels
  surveyEnd : Option Levels
  oc        : Bool
deriving DecidableEq, Repr

/-- What the sampler keeps for one slot: the accepted levels and previous samples of R31, the OC sample of the latest
tick (R33), the levels last handed on (to the sequencer by a sample report, or to the survey at the classification,
R180), and the sample report that waits to be taken (R30) with its OC sample. `surveyEnd` holds the levels that the end
of the survey found changed since the classification, for the first report after it (R44, R180). -/
structure SlotLines where
  accepted  : Levels
  previous  : Levels
  oc        : Bool
  handed    : Levels
  reportDue : Bool
  reportOc  : Bool
  surveyEnd : Option Levels
deriving DecidableEq, Repr

/-! ## Highway join unit (chapter 7) -/

/-- The kind of a switching that is still to be compared with lane sense (R122). -/
inductive SwitchKind where
  | transmitOn
  | transmitOff
  | plain
deriving DecidableEq, Repr

/-- The lane record of a slot (Table 7-1). `atBoundary` marks a switching applied at the boundary of the tick now in
hand, whose comparison waits for the next tick (R122). -/
structure LaneRecord where
  commanded   : LaneMode
  transmit    : GroupSet
  pending     : Option GroupSet
  restore     : Option GroupSet
  comparison  : Option SwitchKind
  atBoundary  : Bool
  sensedMode  : LaneMode
  sensedDrive : GroupSet
deriving DecidableEq, Repr

/-- The positions of a slot's switch latches, which a controller restart leaves as they are (R178). -/
structure Latches where
  power    : PowerPath
  mgmt     : Bool
  laneMode : LaneMode
  drive    : GroupSet
deriving DecidableEq, Repr

/-- One slot: its record (Table 1-1), its lines, its lane record and its latches. -/
structure Slot where
  state          : SlotState
  phase          : Option SlotPhase
  policy         : Policy
  override       : Option (Fin 4)
  steering       : Option ManagerId
  decl           : Option Declaration
  heldMark       : Bool
  oversize       : Bool
  clamped        : Bool
  reservation    : Nat
  attempts       : Nat
  cause          : Option FaultCause
  retirePending  : Bool
  origin         : Option DrainOrigin
  target         : DischargeTarget
  firstCode      : Option HandleCode
  latestCode     : Option HandleCode
  mgmtPower      : Bool
  powerPath      : PowerPath
  declareTimer   : SlotTimer
  drainTimer     : SlotTimer
  dischargeTimer : SlotTimer
  backoffTimer   : SlotTimer
  lines          : SlotLines
  lane           : LaneRecord
  latch          : Latches
deriving DecidableEq, Repr

/-- The timer settings T_decl, T_drain and D_dis (R43). -/
structure TimerSettings where
  declare   : Nat
  drain     : Nat
  discharge : Nat
deriving DecidableEq, Repr

/-! ## Zone budget unit, admission queues and precharge channels (chapters 4 and 5) -/

/-- One feed-good line: its accepted level and previous sample, `true` is high (R61). -/
structure FeedLine where
  accepted : Bool
  previous : Bool
deriving DecidableEq, Repr

/-- The protection state of a zone (Table 4-2). -/
inductive Protection where
  | protectedState
  | exposed
  | dark
deriving DecidableEq, Repr

/-- Why a queue head waits (R86). -/
inductive WaitReason where
  | none
  | channelBusy
  | protection
  | budget
deriving DecidableEq, Repr

/-- One entry of an admission queue: the slot and the effective priority it took its place with (R81). -/
structure QueueEntry where
  slot     : SlotId
  priority : Fin 4
deriving DecidableEq, Repr

/-- A held precharge record (R88). -/
structure Precharge where
  holder  : SlotId
  current : Nat
  inrush  : Nat
  bulk    : Nat
  limit   : Nat
  count   : Nat
deriving DecidableEq, Repr

/-- One zone: the zone record (Table 4-1), its feed-good lines, its admission queue with its wait reason, and its
precharge record. `healthA` and `healthB` are `true` for HEALTHY. `darkAtSurveyEnd` marks a zone found DARK with
orphans at SURVEY_DONE, which is treated at the first tick after it (R77). -/
structure Zone where
  capA            : Nat
  capB            : Nat
  margin          : Nat
  current         : Nat
  exposedFlag     : Bool
  healthA         : Bool
  healthB         : Bool
  lineA           : FeedLine
  lineB           : FeedLine
  reserved        : Nat
  precharge       : Option Precharge
  queue           : List QueueEntry
  wait            : WaitReason
  darkAtSurveyEnd : Bool
deriving DecidableEq, Repr

/-! ## Timing reference unit (chapter 6) -/

/-- The reference states of Table 6-2. -/
inductive RefState where
  | free
  | acquiring
  | locked
  | holdover
deriving DecidableEq, Repr

/-- What the unit knows of one source: the time since its latest marker, and the time since the first marker of it in
the sync window, in microseconds (R100). -/
structure SourceTrack where
  markerAge : Option Nat
  inWindow  : Option Nat
deriving DecidableEq, Repr

/-- The reference record (Table 6-1) and the tick generator (R98). `genUs` is the time since the generator's count
restarted, `tickUs` the time since the latest tick, `closeDue` says that the sync window of the latest tick is still
open, and `lockedSince` that the multiframe in progress began in LOCKED and the state has not changed since (R107). -/
structure Reference where
  state       : RefState
  preferred   : Source
  selected    : Option Source
  acquisition : Option Source
  acqCount    : Nat
  trial       : Nat
  holdover    : Nat
  sourceX     : SourceTrack
  sourceY     : SourceTrack
  genUs       : Nat
  tickUs      : Nat
  closeDue    : Bool
  lockedSince : Bool
deriving DecidableEq, Repr

/-! ## Change window, observation and event counters (chapter 8) -/

/-- The kind of a change-list entry and of the window (R127). -/
inductive ChangeKind where
  | join
  | leave
  | regroup
deriving DecidableEq, Repr

/-- One entry of the change list (R127). -/
structure ChangeEntry where
  slot : SlotId
  kind : ChangeKind
deriving DecidableEq, Repr

/-- The phase of the open window (Table 8-1). -/
inductive WindowPhase where
  | observeChange
  | revertPending
  | observeRevert
  | restorePending
  | donePending
deriving DecidableEq, Repr

/-- A verdict of an observation (R134). -/
inductive Verdict where
  | clean
  | disturbed
deriving DecidableEq, Repr

/-- The open change window (Table 8-1), less the last verdict, which outlives it. -/
structure OpenWindow where
  holder      : SlotId
  kind        : ChangeKind
  phase       : WindowPhase
  undoPending : Bool
  age         : Nat
  window      : Nat
  threshold   : Nat
  tolerance   : Nat
  before      : Nat
  after       : Nat
  observed    : Nat
deriving DecidableEq, Repr

/-- One entry of the disturbance history (R132). -/
structure HistoryEntry where
  errors    : Nat
  disturbed : Bool
deriving DecidableEq, Repr

/-- A tick the change window block and the counter bank have still to take, with the flags of R107 and whether a
boundary action was waiting when the tick was issued. -/
structure TickInHand where
  valid    : Bool
  lockedMf : Bool
  armed    : Bool
deriving DecidableEq, Repr

/-- The change window block: settings (R131), change list, window record, history (latest entry first), error count,
the tick it has still to take, and what the tick it took last lets it do: grant the window (R130), or apply the
boundary action that waits (R135). -/
structure WindowBlock where
  window      : Nat
  threshold   : Nat
  tolerance   : Nat
  list        : List ChangeEntry
  opened       : Option OpenWindow
  lastVerdict : Option Verdict
  history     : List HistoryEntry
  errors      : Nat
  hand        : Option TickInHand
  grantDue    : Bool
  boundaryDue : Bool
deriving DecidableEq, Repr

/-- The event kinds of Table 8-6. -/
inductive EventKind where
  | joinDone
  | revert
  | leaveDone
  | highwayErrors
  | disturbedMf
  | budgetWaitMf
  | prechargeFault
  | surprise
  | overcurrent
  | busErrorA
  | busErrorB
  | checkFail
deriving DecidableEq, Repr

/-- The count modes of Table 8-5. -/
inductive CountMode where
  | plain
  | threshold
  | edge
deriving DecidableEq, Repr

/-- One event counter (Table 8-5). -/
structure Counter where
  value     : Nat
  kind      : EventKind
  mode      : CountMode
  threshold : Nat
  invert    : Bool
  condition : Bool
  overflow  : Bool
deriving DecidableEq, Repr

/-- The counter bank (Table 8-5) and the running totals of the twelve kinds (R139), in the order of Table 8-6. -/
structure Bank where
  counters : Vector Counter 4
  totals   : Vector Nat 12
  freezeOn : Bool
  frozen   : Bool
deriving DecidableEq, Repr

/-! ## Managers (chapter 10), notices and bus ports (chapter 11), survey (chapter 12) -/

/-- The manager states of Table 10-1. -/
inductive ManagerState where
  | absent
  | silent
  | active
  | lapsed
deriving DecidableEq, Repr

/-- The supervision timer: stopped, or a count with the period it started with. -/
inductive SupervisionTimer where
  | stopped
  | running (count period : Nat)
deriving DecidableEq, Repr

/-- The slot kinds of notice (R175). -/
inductive SlotNotice where
  | state
  | checkpoint
  | handle
  | fault
  | declareOverdue
  | drainOverdue
deriving DecidableEq, Repr

/-- The shelf kinds of notice (R175). -/
inductive ShelfNotice where
  | feed
  | reference
  | monitor
  | manager
  | bus
  | surveyDone
deriving DecidableEq, Repr

/-- The slot kinds of notice, each with the slots that have one pending (R175). -/
structure SlotNotices where
  state          : SlotSet
  checkpoint     : SlotSet
  handle         : SlotSet
  fault          : SlotSet
  declareOverdue : SlotSet
  drainOverdue   : SlotSet
deriving DecidableEq, Repr

/-- A manager: its supervision record (Table 10-1) and its notice record (R175). `strap` is the accepted strap level
and `strapPrev` the previous sample; `bayStrap` is the level the record was last set from. `shelfNotices` has bits 0 to
5 for FEED, REFERENCE, MONITOR, MANAGER, BUS and SURVEY_DONE; `mask` has the twelve kinds in the bit order of R176,
set for masked. -/
structure Manager where
  strap        : Bool
  strapPrev    : Bool
  bayStrap     : Bool
  state        : ManagerState
  pendingPhase : Option Nat
  period       : Nat
  timer        : SupervisionTimer
  slotNotices  : SlotNotices
  shelfNotices : BitVec 6
  mask         : BitVec 12
deriving DecidableEq, Repr

/-- The port states of R167. -/
inductive PortState where
  | idle
  | receiving
  | answering
  | holding
  | sending
deriving DecidableEq, Repr

/-- One bus line of a port: the ticks it has been found low in a row, and whether its reset has been made (R172). -/
structure BusLine where
  lowTicks : Nat
  reported : Bool
deriving DecidableEq, Repr

/-- A bus port: its state, the bytes of the frame being received, the reply frame held (R167), its two lines, and its
outputs: the bytes it sent at the latest read of a reply, and the acknowledges it gave in the latest command addressed to
it, `true` for each byte that it acknowledged. -/
structure BusPort where
  state : PortState
  frame : List Byte
  reply : List Byte
  sent  : List Byte
  acks  : List Bool
  clock : BusLine
  data  : BusLine
deriving DecidableEq, Repr

/-- The shelf survey (R178 to R180): whether it runs, the ticks taken, whether the slots have been classified, the
slots marked for a FAULT notice, and the notices held back until SURVEY_DONE. `closing` says that SURVEY_DONE has been
posted and the tick after it is still to come, from which on requests are taken (R180). -/
structure Survey where
  running    : Bool
  closing    : Bool
  ticks      : Nat
  classified : Bool
  faults     : SlotSet
  heldFeed   : Bool
  heldBus    : Bool
deriving DecidableEq, Repr

/-- The restart line (R178): its level as the latest tick found it, and whether a restart asked for while it was held
waits for its release. -/
structure RestartLine where
  held  : Bool
  asked : Bool
deriving DecidableEq, Repr

/-- The SAC-16. `pending` is the queue of commands still to be taken, first in first out. `straps` is the level of the
three shelf-address strap pins. `freeReads` counts the free values drawn so far: the model's own field. -/
structure State where
  pending     : List Instr
  slots       : Vector Slot 16
  timers      : TimerSettings
  zone1       : Zone
  zone2       : Zone
  ref         : Reference
  map         : Vector (Option SlotId) 32
  block       : WindowBlock
  laneDue     : Bool
  bank        : Bank
  managerA    : Manager
  managerB    : Manager
  portA       : BusPort
  portB       : BusPort
  survey      : Survey
  straps      : BitVec 3
  restartLine : RestartLine
  freeReads   : Nat
deriving DecidableEq, Repr

/-- The causes of an emergency isolation (R28). -/
inductive IsolationCause where
  | presenceLost (now : Presence)
  | overcurrent
  | stuckLane
  | revertDisturbed
  | zoneDark
deriving DecidableEq, Repr

/-- A fault stops the machine. No command of the SAC-16 does: the manual gives every command an effect, a reply or
nothing to act on in every state, so this type has no constructor and no command raises a fault. Safe: there is
none. -/
inductive Fault where
deriving DecidableEq, Repr

/-- A refusal: the model has no meaning for the command. -/
inductive Refusal where
  /-- Raised by `exec` alone, for a command that has no meaning yet. Safe: nothing is claimed of it. -/
  | notModelled (mnemonic : String)
deriving DecidableEq, Repr

/-! ## Power-up values -/

/-- The no-blade levels of Table 2-1. -/
def Levels.noBlade : Levels := ⟨false, false, false, false⟩

/-- The sampler record at power-up and restart (R31, R37). -/
def SlotLines.reset : SlotLines :=
  { accepted := .noBlade, previous := .noBlade, oc := false, handed := .noBlade, reportDue := false, reportOc := false,
    surveyEnd := none }

/-- The lane record at power-up and restart (Table 7-1). -/
def LaneRecord.reset : LaneRecord :=
  { commanded := .openMode, transmit := 0, pending := none, restore := none, comparison := none, atBoundary := false,
    sensedMode := .openMode, sensedDrive := 0 }

/-- The latches at power-up: all off, lanes OPEN (R178). -/
def Latches.off : Latches := { power := .off, mgmt := false, laneMode := .openMode, drive := 0 }

/-- A slot at power-up (Table 1-1). -/
def Slot.reset : Slot :=
  { state := .empty, phase := none, policy := .auto, override := none, steering := none, decl := none,
    heldMark := false, oversize := false, clamped := false, reservation := 0, attempts := 0, cause := none,
    retirePending := false, origin := none, target := .released, firstCode := none, latestCode := none,
    mgmtPower := false, powerPath := .off, declareTimer := .stopped, drainTimer := .stopped,
    dischargeTimer := .stopped, backoffTimer := .stopped, lines := .reset, lane := .reset, latch := .off }

/-- A zone at power-up and restart (Table 4-1, R61, R81, R87, R88). -/
def Zone.reset : Zone :=
  { capA := 0, capB := 0, margin := 26, current := 4, exposedFlag := false, healthA := true, healthB := true,
    lineA := ⟨true, true⟩, lineB := ⟨true, true⟩, reserved := 0, precharge := none, queue := [], wait := .none,
    darkAtSurveyEnd := false }

/-- The reference record and tick generator at power-up and restart (Table 6-1, R98). -/
def Reference.reset : Reference :=
  { state := .free, preferred := .x, selected := none, acquisition := none, acqCount := 0, trial := 0, holdover := 0,
    sourceX := ⟨none, none⟩, sourceY := ⟨none, none⟩, genUs := 0, tickUs := 0, closeDue := false, lockedSince := false }

/-- The change window block at power-up and restart (R127, R129, R131, R132). -/
def WindowBlock.reset : WindowBlock :=
  { window := 16, threshold := 4, tolerance := 1, list := [], opened := none, lastVerdict := none, history := [],
    errors := 0, hand := none, grantDue := false, boundaryDue := false }

/-- An event counter at power-up and restart, on its own event kind (Table 8-5). -/
def Counter.reset (k : EventKind) : Counter :=
  { value := 0, kind := k, mode := .plain, threshold := 1, invert := false, condition := false, overflow := false }

/-- The counter bank at power-up and restart (Table 8-5). -/
def Bank.reset : Bank :=
  { counters := #v[.reset .joinDone, .reset .revert, .reset .disturbedMf, .reset .budgetWaitMf],
    totals := Vector.replicate 12 0, freezeOn := false, frozen := false }

/-- A manager at power-up and restart, before the first strap sample (R155, R175). -/
def Manager.reset : Manager :=
  { strap := false, strapPrev := false, bayStrap := false, state := .absent, pendingPhase := none, period := 1000,
    timer := .stopped, slotNotices := ⟨0, 0, 0, 0, 0, 0⟩, shelfNotices := 0, mask := BitVec.allOnes 12 }

/-- A bus port at power-up and restart (R167). DESIGN CHOICE (log entry 28): no line has been low, and no reset of a
stuck line has been made. -/
def BusPort.reset : BusPort :=
  { state := .idle, frame := [], reply := [], sent := [], acks := [], clock := ⟨0, false⟩, data := ⟨0, false⟩ }

/-- The survey as a reset starts it (R178). -/
def Survey.start : Survey :=
  { running := true, closing := false, ticks := 0, classified := false, faults := 0, heldFeed := false, heldBus := false }

/-- The SAC-16 right after power-up: every record at its power-up value, every latch off, the survey beginning and no
command waiting (R178). DESIGN CHOICE (log entries 15, 22 and 30): the strap pins read 0, no free value has been drawn,
and the restart line is not held. -/
def State.reset : State :=
  { pending := [], slots := Vector.replicate 16 .reset,
    timers := { declare := 1000, drain := 15000, discharge := 50 },
    zone1 := .reset, zone2 := .reset, ref := .reset, map := Vector.replicate 32 none, block := .reset,
    laneDue := false, bank := .reset, managerA := .reset, managerB := .reset, portA := .reset, portB := .reset,
    survey := .start, straps := 0, restartLine := ⟨false, false⟩, freeReads := 0 }

end Sys2Proof.Machine
end

