-- ==== Sys2Proof/Machine/Flags.lean ====
section
/-! DEFINITION. What the manual works out from the records whenever it is needed and never stores: presence, held
groups, protection and Ceff, headroom and deficit, the reservation arithmetic, whether a slot awaits a manager, its
indicator, and the attention lines. -/

namespace Sys2Proof.Machine

/-! ## Reading the records -/

/-- The record of slot `i`. -/
def State.slot (s : State) (i : SlotId) : Slot := s.slots[i.val]

/-- The record of zone `z`. -/
def State.zone (s : State) : ZoneId → Zone
  | .one => s.zone1
  | .two => s.zone2

/-- The record of manager `m`. -/
def State.manager (s : State) : ManagerId → Manager
  | .a => s.managerA
  | .b => s.managerB

/-- The record of port `p`. -/
def State.port (s : State) : Port → BusPort
  | .a => s.portA
  | .b => s.portB

/-- The zone of a slot: 1 for slots 1 to 8, 2 for slots 9 to 16 (Table 1-1). -/
def zoneOf (i : SlotId) : ZoneId := if i.val < 8 then .one else .two

/-- The sixteen slots in the order of their numbers. -/
def allSlots : List SlotId := List.finRange 16

/-- The slots of a zone in the order of their numbers. -/
def slotsOf (z : ZoneId) : List SlotId := allSlots.filter fun i => zoneOf i = z

/-- The other of the two managers. -/
def ManagerId.other : ManagerId → ManagerId
  | .a => .b
  | .b => .a

/-- The other of the two frame-sync sources. -/
def Source.other : Source → Source
  | .x => .y
  | .y => .x

/-! ## Slot states -/

/-- The powered states (Table 1-2). -/
def SlotState.isPowered : SlotState → Bool
  | .precharge | .powered | .listen | .joinWait | .joinObserve | .live | .reverted | .draining | .leaveWait
  | .leaveObserve | .orphaned => true
  | .empty | .seating | .present | .declared | .queued | .poweringDown | .released | .barred => false

/-- The power path of each state: through the limiter in PRECHARGE, on the full connection in every other powered
state, off elsewhere (R8). -/
def SlotState.powerPath : SlotState → PowerPath
  | .precharge => .limited
  | .powered | .listen | .joinWait | .joinObserve | .live | .reverted | .draining | .leaveWait | .leaveObserve
  | .orphaned => .full
  | .empty | .seating | .present | .declared | .queued | .poweringDown | .released | .barred => .off

/-- Management power is on in every state but EMPTY and SEATING (R9). -/
def SlotState.mgmtPower : SlotState → Bool
  | .empty | .seating => false
  | _ => true

/-- The lane mode a state brings with it at once, where Table 1-3 gives one that needs no boundary. In the other states
the highway join unit or the survey has set the lanes. -/
def SlotState.laneMode : SlotState → Option LaneMode
  | .empty | .seating | .present | .declared | .queued | .poweringDown | .released | .barred => some .openMode
  | .precharge | .powered => some .biased
  | .listen | .joinWait | .reverted => some .listen
  | .joinObserve | .live | .draining | .leaveWait | .leaveObserve | .orphaned => none

/-- The states at whose entry a slot's held groups are freed (R116). -/
def SlotState.groupless : SlotState → Bool
  | .poweringDown | .released | .barred | .present | .seating | .empty => true
  | _ => false

/-- The states in which a slot's steering is none (R16, R161). -/
def SlotState.unsteered : SlotState → Bool
  | .released | .barred | .live | .empty | .seating => true
  | _ => false

/-- The phase a state begins with (R11). -/
def SlotState.firstPhase : SlotState → Option SlotPhase
  | .joinObserve => some .observeJoin
  | .leaveObserve => some .observeLeave
  | _ => none

/-! ## Lines -/

/-- The presence level worked out from the accepted L and S levels (Table 2-2). -/
def Levels.presence (l : Levels) : Presence :=
  if l.short then .full else if l.long then .partly else .none

/-- The order NONE, PARTIAL, FULL in which presence rises (R35). -/
def Presence.rank : Presence → Nat
  | .none => 0
  | .partly => 1
  | .full => 2

/-- The handle as the sequencer knows it: the level of the latest report it took. -/
def Slot.handleClosed (r : Slot) : Bool := r.lines.handed.handleClosed

/-! ## Groups -/

/-- The held groups of a slot: those whose map entry names it (R109). -/
def State.heldGroups (s : State) (i : SlotId) : GroupSet := BitVec.ofFnLE fun g => decide (s.map[g.val] = some i)

/-- The number of groups in a set. -/
def groupCount (gs : GroupSet) : Nat := (List.finRange 32).countP fun g => gs.mem g

/-- The drive set of a slot's command: the transmit set when JOINED, empty in every other mode (R110). -/
def LaneRecord.drive (l : LaneRecord) : GroupSet := if l.commanded = .joined then l.transmit else 0

/-- Whether slot `i` holds the change window. -/
def State.holdsWindow (s : State) (i : SlotId) : Bool :=
  match s.block.opened with
  | some w => w.holder = i
  | none => false

/-- Whether the slot waits for the sample that decides its end after the undo of a mismatched join or regroup: from the
undo on its commanded mode is LISTEN (R124). -/
def Slot.undoWait (r : Slot) : Bool :=
  r.cause = some .laneMismatch && r.lane.commanded = .listen && (r.state = .joinObserve || r.state = .live)

/-! ## Budget (chapter 4) -/

/-- The protection state of a zone (Table 4-2). -/
def Zone.protection (z : Zone) : Protection :=
  match z.healthA, z.healthB with
  | true, true => .protectedState
  | true, false => .exposed
  | false, true => .exposed
  | false, false => .dark

/-- The effective capacity of a zone (Table 4-2). -/
def Zone.ceff (z : Zone) : Nat :=
  match z.healthA, z.healthB with
  | true, true => min z.capA z.capB
  | true, false => z.capA
  | false, true => z.capB
  | false, false => 0

/-- The zone ceiling of the OVERSIZE test (R52). -/
def Zone.ceiling (z : Zone) : Nat := min z.capA z.capB

/-- The inrush I of a zone: the copied allowance while the channel is held, else 0 (R64). -/
def Zone.inrush (z : Zone) : Nat :=
  match z.precharge with
  | some p => p.inrush
  | none => 0

/-- The headroom of a zone (R67); subtraction on whole numbers stops at 0. -/
def Zone.headroom (z : Zone) : Nat := z.ceff - z.reserved - z.inrush

/-- The deficit of a zone (R67). -/
def Zone.deficit (z : Zone) : Nat := z.reserved + z.inrush - z.ceff

/-- A zone is overcommitted while its deficit is greater than 0 (R67). -/
def Zone.overcommitted (z : Zone) : Bool := decide (0 < z.deficit)

/-- The reservation for a steady power under a margin (R63). -/
def reservationFor (power margin : Nat) : Nat := (power * (256 + margin) + 255) / 256

/-- The inrush allowance for a precharge current (R64). -/
def inrushFor (current : Nat) : Nat := 27 * current

/-- The precharge limit for a capacitance and a current (R91). -/
def prechargeLimit (bulk current : Nat) : Nat := (108 * bulk + 100 * current - 1) / (100 * current) + 2

/-- The class priority (R45). -/
def BladeClass.priority : BladeClass → Fin 4
  | .control => 0
  | .line => 1
  | .service => 2
  | .aux => 3

/-- The effective priority: the override when present, else the class priority (R82). Log entry 20: a slot with neither
is never queued; the lowest priority makes the function total. -/
def Slot.effectivePriority (r : Slot) : Fin 4 :=
  match r.override with
  | some p => p
  | none =>
    match r.decl with
    | some d => d.cls.priority
    | none => 3

/-! ## Checkpoints, indicator, attention -/

/-- Whether a slot is awaiting a manager (R13). The backoff timer of an AUTO slot in REVERTED is stopped exactly when it
has expired. -/
def State.awaiting (s : State) (i : SlotId) : Bool :=
  let r := s.slot i
  match r.state with
  | .declared => r.policy = .supervised || r.heldMark
  | .powered => r.policy = .supervised
  | .listen => r.policy = .supervised || s.heldGroups i = 0
  | .reverted => r.policy = .supervised || (r.backoffTimer = .stopped && s.heldGroups i = 0)
  | .draining => true
  | _ => false

/-- Whether neither manager is ACTIVE. -/
def State.noActiveManager (s : State) : Bool := s.managerA.state ≠ .active && s.managerB.state ≠ .active

/-- The removal indicator of a slot: the first row of Table 1-5 whose condition holds (R14). -/
def State.indicator (s : State) (i : SlotId) : Indicator :=
  let r := s.slot i
  if r.state = .released ∨ r.state = .barred then .on
  else if (r.state = .present ∧ r.declareTimer = .expired) ∨ (r.state = .draining ∧ r.drainTimer = .expired) ∨
      (s.awaiting i ∧ s.noActiveManager) then .fast
  else if r.state = .draining ∨ r.state = .leaveWait ∨ r.state = .leaveObserve ∨ r.state = .poweringDown then .slow
  else .off

/-- The slot kinds a manager has pending, in the bit order of SET_NOTICE_MASK (R176). -/
def SlotNotices.kinds (n : SlotNotices) : List SlotSet :=
  [n.state, n.checkpoint, n.handle, n.fault, n.declareOverdue, n.drainOverdue]

/-- The unmasked and the masked kinds of a manager that have a pending notice, as bits in the order of R176. -/
def Manager.pendingKinds (m : Manager) : BitVec 12 :=
  BitVec.ofFnLE fun k : Fin 12 =>
    if k.val < 6 then decide ((m.slotNotices.kinds.getD k.val 0) ≠ 0) else m.shelfNotices.getLsbD (k.val - 6)

/-- The attention line of a manager: asserted while a notice of an unmasked kind is pending (R176). -/
def Manager.attention (m : Manager) : Bool := m.pendingKinds &&& ~~~m.mask ≠ 0

/-! ## Reference -/

/-- Whether a source is present: a marker of it arrived within 32 frames (R100). -/
def SourceTrack.isPresent (t : SourceTrack) : Bool :=
  match t.markerAge with
  | some a => decide (a ≤ Config.presenceUs)
  | none => false

/-- What the unit knows of a source. -/
def Reference.source (r : Reference) : Source → SourceTrack
  | .x => r.sourceX
  | .y => r.sourceY

/-- Whether the present moment lies in a sync window: from one frame before the tick to one frame after it (R100). -/
def Reference.inSyncWindow (r : Reference) : Bool :=
  decide (Config.multiframeUs ≤ r.genUs + Config.frameUs) || (r.closeDue && decide (r.tickUs ≤ Config.frameUs))

/-! ## Change window -/

/-- The disturbed marks among the latest `n` entries of the history; missing entries count as undisturbed (R134). -/
def WindowBlock.disturbedMarks (b : WindowBlock) (n : Nat) : Nat := (b.history.take n).countP fun e => e.disturbed

/-- Whether the window counts observed multiframes (R133). -/
def OpenWindow.counting (w : OpenWindow) : Bool := w.phase = .observeChange || w.phase = .observeRevert

/-- Whether the observed multiframes have reached copied W, where the verdict is given (R134). -/
def OpenWindow.observedAll (w : OpenWindow) : Bool := decide (w.window ≤ w.observed)

/-- Whether the window has a boundary action waiting: a revert, a restore or an undo (R135). -/
def OpenWindow.actionWaits (w : OpenWindow) : Bool :=
  w.undoPending || w.phase = .revertPending || w.phase = .restorePending

/-- Whether a request that is no read is answered SURVEYING: while the survey runs, and after SURVEY_DONE until the next
tick, from which on such requests are taken (R178, R180). DEDUCED (log entry 29): SURVEYING is the answer until then. -/
def Survey.refuses (v : Survey) : Bool := v.running || v.closing

/-- The address the part answers at on both ports (R167). -/
def State.busAddress (s : State) : BitVec 7 := Config.busBase + s.straps.setWidth 7

end Sys2Proof.Machine
end

