-- ==== Sys2Proof/Machine/Ops.lean ====
section
/-! DEFINITION. The named operations the commands are made of: updates of the records, notices and counter reports,
lane switching, the map, the budget, the queues, the change list and window, the transition of a slot (R16) with what
follows at a checkpoint, emergency isolation (R152), the examination of a queue head (R86), and the end of an event. -/

namespace Sys2Proof.Machine

/-! ## Updates of the records -/

/-- The record of slot `i` becomes `r`. -/
def State.setSlot (i : SlotId) (r : Slot) (s : State) : State := { s with slots := s.slots.set i.val r }

/-- The record of slot `i` is changed by `f`. -/
def State.modSlot (i : SlotId) (f : Slot → Slot) (s : State) : State := s.setSlot i (f (s.slot i))

/-- The record of zone `z` is changed by `f`. -/
def State.modZone (z : ZoneId) (f : Zone → Zone) (s : State) : State :=
  match z with
  | .one => { s with zone1 := f s.zone1 }
  | .two => { s with zone2 := f s.zone2 }

/-- The record of manager `m` is changed by `f`. -/
def State.modManager (m : ManagerId) (f : Manager → Manager) (s : State) : State :=
  match m with
  | .a => { s with managerA := f s.managerA }
  | .b => { s with managerB := f s.managerB }

/-- The record of port `p` is changed by `f`. -/
def State.modPort (p : Port) (f : BusPort → BusPort) (s : State) : State :=
  match p with
  | .a => { s with portA := f s.portA }
  | .b => { s with portB := f s.portB }

/-- The change window block is changed by `f`. -/
def State.modBlock (f : WindowBlock → WindowBlock) (s : State) : State := { s with block := f s.block }

/-- The slot records become those of `v`. -/
def State.setSlots (v : Vector Slot 16) (s : State) : State := { s with slots := v }

/-- The trunk-group map becomes `m`. -/
def State.setMap (m : Vector (Option SlotId) 32) (s : State) : State := { s with map := m }

/-- The timing reference unit is changed by `f`. -/
def State.modRef (f : Reference → Reference) (s : State) : State := { s with ref := f s.ref }

/-- The lane record of slot `i` is changed by `f`. -/
def State.modLane (i : SlotId) (f : LaneRecord → LaneRecord) (s : State) : State :=
  s.modSlot i fun r => { r with lane := f r.lane }

/-! ## Reset (R178) -/

/-- The part after a power-up: every record at its power-up value, every latch off (R178). The commands that wait, the
strap pins, the level of the restart line and the count of free values are outside the part's logic. -/
def State.powerUp (s : State) : State :=
  { State.reset with
    pending := s.pending, straps := s.straps, restartLine := { s.restartLine with asked := false }
    freeReads := s.freeReads }

/-- The part after a controller restart: as after a power-up, but every switch latch keeps its position (R178). -/
def State.restart (s : State) : State :=
  s.powerUp.setSlots (s.slots.map fun r => { Slot.reset with latch := r.latch })

/-- A restart is asked for while the restart line is held. -/
def State.askRestart (s : State) : State := { s with restartLine := { s.restartLine with asked := true } }

/-- The restart line shows its level at a tick. -/
def State.senseRestart (held : Bool) (s : State) : State := { s with restartLine := { s.restartLine with held := held } }

/-! ## Notices and counter reports -/

/-- The set of the one slot `i`. -/
def slotBit (i : SlotId) : SlotSet := BitVec.twoPow 16 i.val

/-- A pending pair of a slot kind and a slot is entered; one already pending is not entered twice (R175). -/
def SlotNotices.add (k : SlotNotice) (i : SlotId) (n : SlotNotices) : SlotNotices :=
  match k with
  | .state => { n with state := n.state ||| slotBit i }
  | .checkpoint => { n with checkpoint := n.checkpoint ||| slotBit i }
  | .handle => { n with handle := n.handle ||| slotBit i }
  | .fault => { n with fault := n.fault ||| slotBit i }
  | .declareOverdue => { n with declareOverdue := n.declareOverdue ||| slotBit i }
  | .drainOverdue => { n with drainOverdue := n.drainOverdue ||| slotBit i }

/-- The place of a shelf kind in the order of R176, counted from FEED. -/
def ShelfNotice.index : ShelfNotice → Nat
  | .feed => 0
  | .reference => 1
  | .monitor => 2
  | .manager => 3
  | .bus => 4
  | .surveyDone => 5

/-- A slot notice is posted to both managers, whatever their supervision state (R175). -/
def State.postSlot (k : SlotNotice) (i : SlotId) (s : State) : State :=
  { s with
    managerA := { s.managerA with slotNotices := s.managerA.slotNotices.add k i }
    managerB := { s.managerB with slotNotices := s.managerB.slotNotices.add k i } }

/-- A shelf notice is posted to both managers (R175). -/
def State.postShelf (k : ShelfNotice) (s : State) : State :=
  { s with
    managerA := { s.managerA with shelfNotices := s.managerA.shelfNotices ||| BitVec.twoPow 6 k.index }
    managerB := { s.managerB with shelfNotices := s.managerB.shelfNotices ||| BitVec.twoPow 6 k.index } }

/-- The place of an event kind in Table 8-6, counted from 0. -/
def EventKind.index : EventKind → Fin 12
  | .joinDone => 0
  | .revert => 1
  | .leaveDone => 2
  | .highwayErrors => 3
  | .disturbedMf => 4
  | .budgetWaitMf => 5
  | .prechargeFault => 6
  | .surprise => 7
  | .overcurrent => 8
  | .busErrorA => 9
  | .busErrorB => 10
  | .checkFail => 11

/-- The running total of an event kind (R139). -/
def Bank.total (b : Bank) (k : EventKind) : Nat := b.totals[k.index.val]

/-- `n` occurrences of an event kind are reported to the counter bank (R139). -/
def State.count (k : EventKind) (n : Nat) (s : State) : State :=
  { s with bank := { s.bank with totals := s.bank.totals.set k.index.val (s.bank.total k + n) } }

/-! ## Lanes and the trunk-group map (chapter 7) -/

/-- The switch bank of slot `i` is set to a mode with a transmit set; the comparison becomes the kind of the switching
(R111, R122). `boundary` marks a switching at the boundary of the tick in hand. -/
def State.switchLanes (i : SlotId) (mode : LaneMode) (transmit : GroupSet) (kind : SwitchKind) (boundary : Bool)
    (s : State) : State :=
  s.modSlot i fun r =>
    { r with
      lane := { r.lane with
        commanded := mode, transmit := transmit, comparison := some kind, atBoundary := boundary }
      latch := { r.latch with laneMode := mode, drive := if mode = .joined then transmit else 0 } }

/-- A change among OPEN, BIASED and LISTEN, switched at once as a PLAIN switching; a bank already in the mode with
nothing to transmit is not switched (R111, R122). -/
def State.plainLanes (i : SlotId) (mode : LaneMode) (s : State) : State :=
  if (s.slot i).lane.commanded = mode ∧ (s.slot i).lane.transmit = 0 then s
  else s.switchLanes i mode 0 .plain false

/-- The map without slot `i`'s groups among `gs`. -/
def freeMap (i : SlotId) (gs : GroupSet) (m : Vector (Option SlotId) 32) : Vector (Option SlotId) 32 :=
  Vector.ofFn fun g : GroupId => if m[g.val] = some i ∧ gs.mem g then none else m[g.val]

/-- The map with every group of `gs` owned by slot `i`. -/
def claimMap (i : SlotId) (gs : GroupSet) (m : Vector (Option SlotId) 32) : Vector (Option SlotId) 32 :=
  Vector.ofFn fun g : GroupId => if gs.mem g then some i else m[g.val]

/-- Every group of `gs` that slot `i` owns is freed in the map. -/
def State.freeSet (i : SlotId) (gs : GroupSet) (s : State) : State := s.setMap (freeMap i gs s.map)

/-- Every group of `gs` becomes owned by slot `i` in the map. -/
def State.claimSet (i : SlotId) (gs : GroupSet) (s : State) : State := s.setMap (claimMap i gs s.map)

/-- All held groups of a slot are freed, with any pending regroup and restore set (R116). -/
def State.freeGroups (i : SlotId) (s : State) : State :=
  (s.freeSet i (BitVec.allOnes 32)).modLane i fun l => { l with pending := none, restore := none }

/-- A pending regroup that waits in the change list is lost, and its waiting additions are freed (R114, R145). -/
def State.discardRegroup (i : SlotId) (s : State) : State :=
  if (s.slot i).lane.pending.isSome then
    (s.freeSet i (~~~(s.slot i).lane.transmit)).modLane i fun l => { l with pending := none }
  else s

/-- The automatic assignment: each group of the declaration's preferred list that is free becomes owned by the slot,
with a STATE notice if any was gained (R115). -/
def State.autoAssign (i : SlotId) (s : State) : State :=
  let preferred := match (s.slot i).decl with
    | some d => d.preferred
    | none => []
  let gain : GroupSet := BitVec.ofFnLE fun g : GroupId => decide (g ∈ preferred ∧ s.map[g.val] = none)
  if gain = 0 then s else (s.claimSet i gain).postSlot .state i

/-! ## Budget, queue and channel (chapters 4 and 5) -/

/-- The reserved sum of a zone moves as one reservation goes from `old` to `new`. -/
def Zone.rebook (old new : Nat) (z : Zone) : Zone := { z with reserved := z.reserved + new - old }

/-- The reservation of slot `i` becomes `r`, and the reserved sum of its zone moves by the difference (Table 4-3). -/
def State.setReservation (i : SlotId) (r : Nat) (s : State) : State :=
  (s.modZone (zoneOf i) (Zone.rebook (s.slot i).reservation r)).modSlot i fun v => { v with reservation := r }

/-- A zone whose precharge channel becomes free if slot `i` holds it. -/
def Zone.freeFrom (i : SlotId) (z : Zone) : Zone :=
  match z.precharge with
  | some p => if p.holder = i then { z with precharge := none } else z
  | none => z

/-- The precharge channel of slot `i`'s zone becomes free if the slot holds it (R88). -/
def State.freeChannel (i : SlotId) (s : State) : State := s.modZone (zoneOf i) (Zone.freeFrom i)

/-- The place of an entry: behind every entry of its own or a lower priority number, ahead of the rest (R82). -/
def placeEntry (e : QueueEntry) : List QueueEntry → List QueueEntry
  | [] => [e]
  | x :: xs => if x.priority ≤ e.priority then x :: placeEntry e xs else e :: x :: xs

/-- A slot's entry leaves its zone's queue and the rest close up (R84). -/
def State.leaveQueue (i : SlotId) (s : State) : State :=
  s.modZone (zoneOf i) fun z => { z with queue := z.queue.filter fun e => e.slot ≠ i }

/-- A slot takes its place in its zone's queue with its effective priority (R82). -/
def State.joinQueue (i : SlotId) (s : State) : State :=
  s.modZone (zoneOf i) fun z =>
    { z with queue := placeEntry { slot := i, priority := (s.slot i).effectivePriority } z.queue }

/-- The OVERSIZE test sets or clears the flag of a slot with a declaration (R52, R53). -/
def State.oversizeTest (i : SlotId) (s : State) : State :=
  let z := s.zone (zoneOf i)
  match (s.slot i).decl with
  | some d => s.modSlot i fun r =>
      { r with oversize := decide (z.ceiling < reservationFor d.power z.margin + inrushFor z.current) }
  | none => s

/-! ## Change list and window (chapter 8) -/

/-- The order of the change list: LEAVE entries first, and order of entry within each part (R128). -/
def insertChange (e : ChangeEntry) (l : List ChangeEntry) : List ChangeEntry :=
  match e.kind with
  | .leave => l.filter (fun x => x.kind = .leave) ++ e :: l.filter (fun x => x.kind ≠ .leave)
  | .join => l ++ [e]
  | .regroup => l ++ [e]

/-- A slot's entry leaves the change list and the rest close up (R128). -/
def State.dropChange (i : SlotId) (s : State) : State :=
  s.modBlock fun b => { b with list := b.list.filter fun e => e.slot ≠ i }

/-- A slot joins the change list; it is never listed twice (R127, R128). -/
def State.addChange (i : SlotId) (k : ChangeKind) (s : State) : State :=
  s.modBlock fun b =>
    { b with list := insertChange { slot := i, kind := k } (b.list.filter fun e => e.slot ≠ i) }

/-- The window closes; the last verdict is kept (R129). -/
def State.closeWindow (s : State) : State := s.modBlock fun b => { b with opened := none }

/-- What the isolation of slot `i` does to the open window: it closes the holder's window with no verdict, and restarts
the observation of a window held by another slot that is still counting, with a fresh baseline. At a w of copied W the
verdict is due and the counting has ended (R134, R136, Table 8-3). -/
def State.isolateWindow (i : SlotId) (s : State) : State :=
  s.modBlock fun b =>
    match b.opened with
    | none => b
    | some w =>
      if w.holder = i then { b with opened := none }
      else if w.counting && !w.observedAll then
        { b with opened := some { w with observed := 0, after := 0, before := b.disturbedMarks w.window } }
      else b

/-! ## Transitions of a slot (chapter 1) -/

/-- The timers of Table 1-4 at entry to a state: each runs in one state and is stopped in every other. The retry
backoff runs in REVERTED while the policy is AUTO, for 64 times the attempt count. -/
def Slot.enterTimers (st : SlotState) (t : TimerSettings) (r : Slot) : Slot :=
  { r with
    declareTimer := if st = .present then .running 0 t.declare else .stopped
    drainTimer := if st = .draining then .running 0 t.drain else .stopped
    dischargeTimer := if st = .poweringDown then .running 0 t.discharge else .stopped
    backoffTimer := if st = .reverted ∧ r.policy = .auto then .running 0 (64 * r.attempts) else .stopped }

/-- The record fields of a slot as it enters a state (R2 to R9, R11, R16). DEDUCED (log entry 12): retire pending is
cleared wherever the manual clears the drain origin. A regroup waits in LIVE alone (R114), so no slot enters a state with
one. -/
def Slot.enter (st : SlotState) (t : TimerSettings) (r : Slot) : Slot :=
  { r.enterTimers st t with
    state := st
    phase := st.firstPhase
    steering := if st.unsteered then none else r.steering
    cause := if st = .barred ∨ st = .declared then r.cause else none
    heldMark := if r.state = .declared then false else r.heldMark
    retirePending :=
      if st = .draining ∨ st = .poweringDown ∨ st = .released ∨ st = .barred ∨ st = .declared ∨ st = .empty ∨
        st = .seating then false else r.retirePending
    origin :=
      if st = .live ∨ st = .poweringDown ∨ st = .released ∨ st = .barred ∨ st = .declared ∨ st = .empty ∨
        st = .seating then none else r.origin
    target := if st = .poweringDown then .released else r.target
    attempts :=
      if st = .live ∨ st = .empty ∨ st = .seating ∨ (st = .draining ∧ r.state = .joinObserve) then 0 else r.attempts
    decl := if st = .empty ∨ st = .seating then none else r.decl
    oversize := if st = .empty ∨ st = .seating then false else r.oversize
    clamped := if st = .empty ∨ st = .seating then false else r.clamped
    mgmtPower := st.mgmtPower
    powerPath := st.powerPath
    lane := { r.lane with pending := none }
    latch := { r.latch with power := st.powerPath, mgmt := st.mgmtPower } }

/-- The counter reports of a transition (R16): JOIN_DONE and LEAVE_DONE. The other kinds of R16 are reported by the
operations that find their cause. -/
def State.countMove (old st : SlotState) (s : State) : State :=
  if st = .live ∧ old = .joinObserve then s.count .joinDone 1
  else if st = .poweringDown ∧ old = .leaveObserve then s.count .leaveDone 1
  else s

/-- What the blocks that held something for slot `i` give up as it goes to a state: its place in the queue or the
change list, the precharge channel, and at DRAINING a regroup that still waits (R84, R88, R128, R145). -/
def State.vacate (i : SlotId) (st : SlotState) (s : State) : State :=
  let u := ((s.leaveQueue i).freeChannel i).dropChange i
  if st = .draining then u.discardRegroup i else u

/-- The lanes of slot `i` as it goes to a state that brings a lane mode with it (Table 1-3). -/
def State.lanesFor (i : SlotId) (st : SlotState) (s : State) : State :=
  match st.laneMode with
  | some mode => s.plainLanes i mode
  | none => s

/-- The reservation of slot `i` is released where a state has no power (Table 4-3). -/
def State.powerFor (i : SlotId) (st : SlotState) (s : State) : State :=
  if st.isPowered then s else s.setReservation i 0

/-- The groups of slot `i` are freed where a state holds none (R116). -/
def State.groupsFor (i : SlotId) (st : SlotState) (s : State) : State := if st.groupless then s.freeGroups i else s

/-- Slot `i` takes the place its new state gives it in the queue or the change list (R82, R128). -/
def State.takePlace (i : SlotId) (st : SlotState) (s : State) : State :=
  match st with
  | .queued => s.joinQueue i
  | .joinWait => s.addChange i .join
  | .leaveWait => s.addChange i .leave
  | _ => s

/-- Slot `i` goes to a state (R16): the blocks that held something for it give it up, the lanes are switched and then
the power path, the reservation is released at a power-off, the record follows, a STATE notice is posted, and the slot
takes its place in the queue or the change list. -/
def State.moveTo (i : SlotId) (st : SlotState) (s : State) : State :=
  let u := (((s.vacate i st).lanesFor i st).powerFor i st).groupsFor i st
  (((u.modSlot i (Slot.enter st s.timers)).postSlot .state i).countMove (s.slot i).state st).takePlace i st

/-- A slot that comes to rest awaiting a manager posts a CHECKPOINT notice (R16). -/
def State.noteCheckpoint (i : SlotId) (s : State) : State := if s.awaiting i then s.postSlot .checkpoint i else s

/-- The AUTO advance from CP-D, taken when nothing blocks it (R19, R53). -/
def State.autoAdvance (i : SlotId) (s : State) : State :=
  let r := s.slot i
  if r.state = .declared ∧ r.policy = .auto ∧ r.oversize = false ∧ r.heldMark = false ∧
      ¬ (r.cause = some .zoneDark ∧ (s.zone (zoneOf i)).protection = .dark) then s.moveTo i .queued
  else s

/-- What follows at CP-D: the AUTO advance, or the wait with its CHECKPOINT notice. -/
def State.atDeclared (i : SlotId) (s : State) : State :=
  let s := s.autoAdvance i
  if (s.slot i).state = .declared then s.noteCheckpoint i else s

/-- How an AUTO slot goes on from CP-L: the automatic assignment when it holds no group, and JOIN_WAIT once it holds one
(R20, R115). -/
def State.advanceListen (i : SlotId) (s : State) : State :=
  if (s.slot i).policy = .auto then
    let s := if s.heldGroups i = 0 then s.autoAssign i else s
    if s.heldGroups i = 0 then s else s.moveTo i .joinWait
  else s

/-- How an AUTO slot goes on from CP-P: to LISTEN, and as from CP-L (R20). -/
def State.advancePowered (i : SlotId) (s : State) : State :=
  if (s.slot i).policy = .auto then (s.moveTo i .listen).advanceListen i else s

/-- What follows at CP-L: the slot goes on, or comes to rest with its CHECKPOINT notice. -/
def State.atListen (i : SlotId) (s : State) : State := (s.advanceListen i).noteCheckpoint i

/-- What follows at CP-P: the slot goes on, or comes to rest with its CHECKPOINT notice. -/
def State.atPowered (i : SlotId) (s : State) : State := (s.advancePowered i).noteCheckpoint i

/-- A slot goes "to DECLARED": with the HELD mark and cause given, the OVERSIZE test run and what follows at CP-D; to
PRESENT instead when it holds no declaration (R2, R53). -/
def State.toDeclared (i : SlotId) (held : Bool) (cause : Option FaultCause) (s : State) : State :=
  if (s.slot i).decl.isSome then
    (((s.moveTo i .declared).modSlot i fun r => { r with heldMark := held, cause := cause }).oversizeTest i).atDeclared i
  else s.moveTo i .present

/-- A slot enters BARRED with a cause, and a FAULT notice records it (R3, R26). -/
def State.bar (i : SlotId) (c : FaultCause) (s : State) : State :=
  ((s.moveTo i .barred).modSlot i fun r => { r with cause := some c }).postSlot .fault i

/-- A slot enters DRAINING: from LIVE or ORPHANED with the origin given, or at the end of an observation with the
origin that retire pending recorded (R145). -/
def State.startDrain (i : SlotId) (origin : Option DrainOrigin) (s : State) : State :=
  let s := s.modSlot i fun r => { r with origin := if origin.isSome then origin else r.origin }
  (s.moveTo i .draining).noteCheckpoint i

/-- A retirement is recorded to wait for the end of the observation; a second one leaves the origin (R6). -/
def State.setRetirePending (i : SlotId) (origin : DrainOrigin) (s : State) : State :=
  if (s.slot i).retirePending then s
  else s.modSlot i fun r => { r with retirePending := true, origin := some origin }

/-! ## Handle effects (Table 9-1, R6, R7, R22, R24, R25) -/

/-- The effect of a handle accepted OPEN by slot state. -/
def State.handleOpened (i : SlotId) (s : State) : State :=
  match (s.slot i).state with
  | .present | .declared | .queued => s.moveTo i .released
  | .precharge | .powered | .listen | .joinWait | .reverted => s.moveTo i .poweringDown
  | .joinObserve => if (s.slot i).undoWait then s else s.setRetirePending i .handle
  | .live =>
    if (s.slot i).undoWait then s
    else if s.holdsWindow i then s.setRetirePending i .handle
    else s.startDrain i (some .handle)
  | .poweringDown => s.modSlot i fun r => { r with target := .released }
  | .empty | .seating | .draining | .leaveWait | .leaveObserve | .released | .barred | .orphaned => s

/-- The effect of a handle accepted CLOSED by slot state. -/
def State.handleClosed (i : SlotId) (s : State) : State :=
  let r := s.slot i
  match r.state with
  | .seating => if r.lines.handed.presence = .full then s.moveTo i .present else s
  | .released => s.toDeclared i false none
  | .draining => if r.origin = some .handle then s.moveTo i .live else s
  | .joinObserve | .live =>
    if r.undoWait = false ∧ r.retirePending ∧ r.origin = some .handle then
      s.modSlot i fun r => { r with retirePending := false, origin := none }
    else s
  | .empty | .present | .declared | .queued | .precharge | .powered | .listen | .joinWait | .reverted | .leaveWait
  | .leaveObserve | .poweringDown | .barred | .orphaned => s

/-! ## Emergency isolation (R28, R123, R152, R153) -/

/-- The dark-zone destination of a slot (R28). -/
def Slot.darkDestination (r : Slot) : SlotState :=
  if r.state = .draining ∨ r.state = .leaveWait ∨ r.state = .leaveObserve ∨ r.retirePending then .released
  else if r.handleClosed = false then .released
  else if r.decl.isSome then .declared
  else .present

/-- The destination of an isolated slot (Table 1-16). -/
def IsolationCause.destination (c : IsolationCause) (r : Slot) : SlotState :=
  match c with
  | .presenceLost .none => .empty
  | .presenceLost _ => .seating
  | .overcurrent | .stuckLane | .revertDisturbed => .barred
  | .zoneDark => r.darkDestination

/-- The fault cause an isolation records. -/
def IsolationCause.faultCause : IsolationCause → Option FaultCause
  | .presenceLost _ => none
  | .overcurrent => some .overcurrent
  | .stuckLane => some .stuckLane
  | .revertDisturbed => some .revertDisturbed
  | .zoneDark => some .zoneDark

/-- The lanes and groups of an isolated slot (R123). -/
def State.isolateLanes (i : SlotId) (s : State) : State := (s.switchLanes i .openMode 0 .plain false).freeGroups i

/-- The counter report of an isolation (R152). -/
def State.countIsolation (c : IsolationCause) (s : State) : State :=
  match c with
  | .presenceLost _ => s.count .surprise 1
  | .overcurrent => s.count .overcurrent 1
  | .stuckLane | .revertDisturbed | .zoneDark => s

/-- An isolated slot goes to its destination; BARRED keeps the fault cause (Table 1-16). -/
def State.sendIsolated (i : SlotId) (dest : SlotState) (c : IsolationCause) (s : State) : State :=
  if dest = .declared then s.toDeclared i false (some .zoneDark)
  else (s.moveTo i dest).modSlot i fun r => { r with cause := if dest = .barred then c.faultCause else none }

/-- Emergency isolation of slot `i` for a cause (R152). -/
def State.isolate (i : SlotId) (c : IsolationCause) (s : State) : State :=
  let u := ((s.isolateLanes i).isolateWindow i).modSlot i fun r => { r with retirePending := false }
  ((u.sendIsolated i (c.destination (s.slot i)) c).postSlot .fault i).countIsolation c

/-! ## Steering (chapter 10) -/

/-- A request that is taken gives its sender the steering of a slot that has none (R159). -/
def State.giveSteering (i : SlotId) (m : ManagerId) (s : State) : State :=
  s.modSlot i fun r => { r with steering := some (r.steering.getD m) }

/-- Every steering a manager holds is set to none (R155, R157). -/
def State.dropSteerings (m : ManagerId) (s : State) : State :=
  s.setSlots (s.slots.map fun r => { r with steering := if r.steering = some m then none else r.steering })

/-- A manager's state changes: a MANAGER notice is posted (R155). -/
def State.setManagerState (m : ManagerId) (st : ManagerState) (s : State) : State :=
  (s.modManager m fun r => { r with state := st }).postShelf .manager

/-! ## Examination of a queue head (R69, R85 to R90) -/

/-- The demand of a slot on its zone: its reservation and inrush allowance from the present margin and current. None
without a declaration (log entry 20: a queued slot always has one). -/
def State.demand (s : State) (i : SlotId) : Option (Nat × Nat) :=
  match (s.slot i).decl with
  | some d => some (reservationFor d.power (s.zone (zoneOf i)).margin, inrushFor (s.zone (zoneOf i)).current)
  | none => none

/-- Whether the protection state allows admission (R69). -/
def Zone.admits (z : Zone) : Bool :=
  match z.protection with
  | .protectedState => true
  | .exposed => z.exposedFlag
  | .dark => false

/-- Whether the budget has room for a demand (R69). -/
def Zone.hasRoom (z : Zone) (d : Option (Nat × Nat)) : Bool :=
  match d with
  | some (r, a) => decide (z.reserved + r + a ≤ z.ceff)
  | none => false

/-- The reason the head of a zone's queue waits, from the first finding that fails; none when it can be granted or the
queue is empty (R86). -/
def State.headWait (s : State) (z : ZoneId) : WaitReason :=
  match (s.zone z).queue with
  | [] => .none
  | e :: _ =>
    if (s.zone z).precharge.isSome then .channelBusy
    else if (s.zone z).admits = false then .protection
    else if (s.zone z).hasRoom (s.demand e.slot) = false then .budget
    else .none

/-- The precharge record a grant makes, at sample 0 (R89). -/
def prechargeFor (i : SlotId) (bulk current : Nat) : Precharge :=
  { holder := i, current := current, inrush := inrushFor current, bulk := bulk, limit := prechargeLimit bulk current,
    count := 0 }

/-- A zone's channel is held with a record; the head that is left waits for the channel (R87, R88). -/
def Zone.hold (p : Precharge) (v : Zone) : Zone :=
  { v with precharge := some p, wait := if v.queue = [] then .none else .channelBusy }

/-- The grant of the precharge channel of zone `z` to slot `i` (R89). -/
def State.grantTo (z : ZoneId) (i : SlotId) (s : State) : State :=
  match (s.slot i).decl with
  | none => s
  | some d =>
    ((s.moveTo i .precharge).setReservation i (reservationFor d.power (s.zone z).margin)).modZone z
      (Zone.hold (prechargeFor i d.bulk (s.zone z).current))

/-- The wait reason of a zone's head is set (R87). -/
def State.setWait (z : ZoneId) (w : WaitReason) (s : State) : State := s.modZone z fun v => { v with wait := w }

/-- The OVERSIZE sweep of a zone's queue, from the front (R86). -/
def State.sweepQueue (z : ZoneId) (s : State) : State :=
  ((s.zone z).queue.filter fun e => (s.slot e.slot).oversize).foldl
    (fun s e => (s.moveTo e.slot .declared).noteCheckpoint e.slot) s

/-- The head test of an examination, after the sweep: the grant, or the wait reason (R86, R87). -/
def State.testHead (z : ZoneId) (s : State) : State :=
  match (s.zone z).queue, s.headWait z with
  | e :: _, .none => s.grantTo z e.slot
  | _, w => s.setWait z w

/-- One examination of a zone's head (R86). -/
def State.examine (z : ZoneId) (s : State) : State := (s.sweepQueue z).testHead z

/-! ## The end of an event -/

/-- The slot at the head of a zone's queue. -/
def Zone.head (z : Zone) : Option SlotId := z.queue.head?.map (·.slot)

/-- Whether an event calls for an examination of a zone's head: the head changed, the channel became free, or the
reserved sum fell (R85). A SET_ZONE and a feed change make theirs themselves. -/
def needsExamination (before after : Zone) : Bool :=
  before.head ≠ after.head || (before.precharge.isSome && after.precharge.isNone) ||
    decide (after.reserved < before.reserved)

/-- The examination of one zone at the end of an event, when the event calls for one. -/
def State.examineAfter (z : ZoneId) (s before : State) : State :=
  if needsExamination (before.zone z) (s.zone z) then s.examine z else s

/-- Whether a zone became overcommitted, or ceased to be, between two states (R74). -/
def overcommitFlips (z : ZoneId) (before after : State) : Bool :=
  (before.zone z).overcommitted ≠ (after.zone z).overcommitted

/-- The end of an event that led from `before` to `s`: all its effects on the zones and queues come first, then each
head is examined once (R85), and a FEED notice is posted when the event made a zone overcommitted or ended its
overcommit, but not during the survey (R74, R178). -/
def State.settle (before s : State) : State :=
  let s := (s.examineAfter .one before).examineAfter .two before
  if before.survey.running = false ∧ (overcommitFlips .one before s || overcommitFlips .two before s) then
    s.postShelf .feed
  else s

/-- The outcome of an event whose own effect is `f`. -/
def event (f : State → State) (s : State) : Host.Outcome State Fault Refusal := .next (s.settle (f s))

end Sys2Proof.Machine
end

