-- ==== Sys2Proof/Machine/Operands.lean ====
section
/-! DEFINITION. The operands of the request commands: how a frame's bytes are read (R168, Tables 11-1 and 11-2), the
codes of Table 11-5, the reply frame, the tests every request meets (R170, R158, R159), and how a port answers. -/

namespace Sys2Proof.Machine

/-! ## Bytes -/

/-- A number as one byte. -/
def byte (n : Nat) : Byte := BitVec.ofNat 8 n

/-- A number as two bytes, high byte first (R168). -/
def bytes2 (n : Nat) : List Byte := [byte (n / 256), byte n]

/-- A number as three bytes, high byte first (R174). -/
def bytes3 (n : Nat) : List Byte := [byte (n / 65536), byte (n / 256), byte n]

/-- A set of trunk groups as four bytes: group 1 is the lowest bit of the last byte (R168). -/
def groupBytes (gs : GroupSet) : List Byte :=
  [gs.extractLsb' 24 8, gs.extractLsb' 16 8, gs.extractLsb' 8 8, gs.extractLsb' 0 8]

/-- A set of slots as two bytes, laid out the same way (R168). -/
def slotBytes (ss : SlotSet) : List Byte := [ss.extractLsb' 8 8, ss.extractLsb' 0 8]

/-- A flag as one bit of a packed byte. -/
def flagBit (b : Bool) (place : Nat) : Nat := if b then 2 ^ place else 0

/-- Two bytes, high byte first, as a number. -/
def word2 (hi lo : Byte) : Nat := hi.toNat * 256 + lo.toNat

/-! ## Codes (Tables 11-3 and 11-5) -/

/-- The completion codes of Table 11-3. -/
inductive Completion where
  | done
  | accepted
  | busyOther
  | wrongState
  | wrongResponse
  | notSteering
  | notActive
  | notPresent
  | badParam
  | badDeclaration
  | badCheck
  | unknownRequest
  | oversize
  | noHeadroom
  | groupTaken
  | noGroups
  | surveying
deriving DecidableEq, Repr

def Completion.code : Completion → Byte
  | .done => 0x00
  | .accepted => 0x01
  | .busyOther => 0x02
  | .wrongState => 0x03
  | .wrongResponse => 0x04
  | .notSteering => 0x05
  | .notActive => 0x06
  | .notPresent => 0x07
  | .badParam => 0x08
  | .badDeclaration => 0x09
  | .badCheck => 0x0A
  | .unknownRequest => 0x0B
  | .oversize => 0x0C
  | .noHeadroom => 0x0D
  | .groupTaken => 0x0E
  | .noGroups => 0x0F
  | .surveying => 0x10

def SlotState.code : SlotState → Nat
  | .empty => 0
  | .seating => 1
  | .present => 2
  | .declared => 3
  | .queued => 4
  | .precharge => 5
  | .powered => 6
  | .listen => 7
  | .joinWait => 8
  | .joinObserve => 9
  | .live => 10
  | .reverted => 11
  | .draining => 12
  | .leaveWait => 13
  | .leaveObserve => 14
  | .poweringDown => 15
  | .released => 16
  | .barred => 17
  | .orphaned => 18

def SlotPhase.code : SlotPhase → Nat
  | .observeJoin => 0
  | .revertPending => 1
  | .observeRevert => 2
  | .observeLeave => 3

def Policy.code : Policy → Nat
  | .auto => 0
  | .supervised => 1

/-- The steering code: 1 for A, 2 for B. -/
def ManagerId.code : ManagerId → Nat
  | .a => 1
  | .b => 2

def FaultCause.code : FaultCause → Nat
  | .overcurrent => 0
  | .prechargeTimeout => 1
  | .laneMismatch => 2
  | .revertDisturbed => 3
  | .stuckLane => 4
  | .rejected => 5
  | .attempts => 6
  | .zoneDark => 7

def DrainOrigin.code : DrainOrigin → Nat
  | .handle => 0
  | .manager => 1
  | .blade => 2

def DischargeTarget.code : DischargeTarget → Nat
  | .released => 0
  | .declared => 1

def Indicator.code : Indicator → Nat
  | .off => 0
  | .slow => 1
  | .fast => 2
  | .on => 3

def LaneMode.code : LaneMode → Nat
  | .openMode => 0
  | .biased => 1
  | .listen => 2
  | .joined => 3

def Presence.code : Presence → Nat
  | .none => 0
  | .partly => 1
  | .full => 2

/-- A handle code: the state in bits 0 to 4, bit 7 set for OPENED. -/
def HandleCode.code (h : HandleCode) : Nat := h.state.code + flagBit h.opened 7

def SlotTimer.code : SlotTimer → Nat
  | .stopped => 0
  | .running _ _ => 1
  | .expired => 2

def Protection.code : Protection → Nat
  | .protectedState => 0
  | .exposed => 1
  | .dark => 2

def WaitReason.code : WaitReason → Nat
  | .none => 0
  | .channelBusy => 1
  | .protection => 2
  | .budget => 3

def RefState.code : RefState → Nat
  | .free => 0
  | .acquiring => 1
  | .locked => 2
  | .holdover => 3

def Source.code : Source → Nat
  | .x => 0
  | .y => 1

def ManagerState.code : ManagerState → Nat
  | .absent => 0
  | .silent => 1
  | .active => 2
  | .lapsed => 3

def ChangeKind.code : ChangeKind → Nat
  | .join => 0
  | .leave => 1
  | .regroup => 2

def WindowPhase.code : WindowPhase → Nat
  | .observeChange => 0
  | .revertPending => 1
  | .observeRevert => 2
  | .restorePending => 3
  | .donePending => 4

def Verdict.code : Verdict → Nat
  | .clean => 0
  | .disturbed => 1

def BladeClass.code : BladeClass → Nat
  | .control => 0
  | .line => 1
  | .service => 2
  | .aux => 3

/-- The event kinds are numbered 1 to 12 in the order of Table 8-6 (Table 11-4). -/
def EventKind.code (k : EventKind) : Nat := k.index.val + 1

def CountMode.code : CountMode → Nat
  | .plain => 0
  | .threshold => 1
  | .edge => 2

/-- A code that may be absent: 0xFF when it is (R174). -/
def optByte (c : Option Nat) : Byte :=
  match c with
  | some n => byte n
  | none => 0xFF

/-! ## Reading parameters -/

/-- A slot byte of 1 to 16. -/
def slotNumber? (b : Byte) : Option SlotId :=
  if h : 1 ≤ b.toNat ∧ b.toNat ≤ 16 then some ⟨b.toNat - 1, by omega⟩ else none

/-- A trunk-group byte of 1 to 32. -/
def groupNumber? (b : Byte) : Option GroupId :=
  if h : 1 ≤ b.toNat ∧ b.toNat ≤ 32 then some ⟨b.toNat - 1, by omega⟩ else none

/-- A zone byte of 1 or 2. -/
def zoneNumber? (b : Byte) : Option ZoneId :=
  if b = 1 then some .one else if b = 2 then some .two else none

def bladeClass? (b : Byte) : Option BladeClass :=
  if b = 0 then some .control
  else if b = 1 then some .line
  else if b = 2 then some .service
  else if b = 3 then some .aux
  else none

def eventKind? (b : Byte) : Option EventKind :=
  match b.toNat with
  | 1 => some .joinDone
  | 2 => some .revert
  | 3 => some .leaveDone
  | 4 => some .highwayErrors
  | 5 => some .disturbedMf
  | 6 => some .budgetWaitMf
  | 7 => some .prechargeFault
  | 8 => some .surprise
  | 9 => some .overcurrent
  | 10 => some .busErrorA
  | 11 => some .busErrorB
  | 12 => some .checkFail
  | _ => none

def countMode? (b : Byte) : Option CountMode :=
  if b = 0 then some .plain else if b = 1 then some .threshold else if b = 2 then some .edge else none

/-- A flag byte of 0 (clear) or 1 (set), as R72 has SET_ZONE's. DESIGN CHOICE (log entry 26): the invert and
freeze-on-overflow bytes of SET_MONITOR have the same two values, and any other is out of range. -/
def flag? (b : Byte) : Option Bool := if b = 0 then some false else if b = 1 then some true else none

def policy? (b : Byte) : Option Policy :=
  if b = 0 then some .auto else if b = 1 then some .supervised else none

/-- A priority override of 0 to 3, or 0xFF for absent. -/
def override? (b : Byte) : Option (Option (Fin 4)) :=
  if b = 0xFF then some none
  else if h : b.toNat < 4 then some (some ⟨b.toNat, h⟩)
  else none

/-- The part number of a read: part 1 when it is missing (R173). -/
def partNumber (params : List Byte) : Nat :=
  match params with
  | [] => 1
  | b :: _ => b.toNat

/-! ## A declaration (R48 to R50) -/

/-- The list with every later occurrence of a number dropped (R50, second pass). -/
def keepFirst : List GroupId → List GroupId
  | [] => []
  | g :: rest => g :: (keepFirst rest).filter (· ≠ g)

/-- The repaired bulk capacitance (R49). -/
def repairBulk (c : Nat) : Nat := if c = 0 then 1 else min c 400

/-- The repaired preferred list: entries outside 1 to 32 dropped, repeats dropped, at most `n` kept (R50). -/
def repairPreferred (raw : List Byte) (n : Nat) : List GroupId := (keepFirst (raw.filterMap groupNumber?)).take n

/-- A group number as its byte. -/
def groupByte (g : GroupId) : Byte := byte (g.val + 1)

/-- What the content of a DECLARE gives (R48 to R51): a refusal, or the repaired declaration and whether anything was
repaired. -/
inductive DeclareContent where
  | tooFew
  | unusable
  | usable (d : Declaration) (clamped : Bool)
deriving DecidableEq, Repr

def declareContent (params : List Byte) : DeclareContent :=
  match params with
  | cls :: pHi :: pLo :: cHi :: cLo :: wanted :: rest =>
    if rest.length < 10 then .tooFew
    else
      match bladeClass? cls with
      | none => .unusable
      | some k =>
        let p := word2 pHi pLo
        let c := word2 cHi cLo
        let raw := rest.drop 10
        let preferred := repairPreferred raw wanted.toNat
        if p = 0 ∨ 800 < p ∨ 8 < wanted.toNat then .unusable
        else
          .usable
            { cls := k, power := p, bulk := repairBulk c, wanted := wanted.toNat, serial := rest.take 8,
              kindCode := (rest.drop 8).take 2, preferred := preferred }
            (decide (repairBulk c ≠ c ∨ preferred.map groupByte ≠ raw))
  | _ => .tooFew

/-- A declaration as Table 11-2 lays it out. -/
def Declaration.bytes (d : Declaration) : List Byte :=
  [byte d.cls.code] ++ bytes2 d.power ++ bytes2 d.bulk ++ [byte d.wanted] ++ d.serial ++ d.kindCode ++
    d.preferred.map groupByte

/-! ## The list of an ASSIGN_GROUPS or RELEASE_GROUPS (R112) -/

/-- A list of 1 to 8 group numbers, each 1 to 32 and none repeated, as a set. -/
def groupList? (params : List Byte) : Option GroupSet :=
  if 1 ≤ params.length ∧ params.length ≤ 8 ∧ params.Nodup ∧ params.all (fun b => (groupNumber? b).isSome) then
    some (BitVec.ofFnLE fun g : GroupId => decide (groupByte g ∈ params))
  else none

/-! ## Replies -/

/-- A reply: its completion code and its data. -/
structure Reply where
  code : Completion
  data : List Byte
deriving DecidableEq, Repr

/-- The bytes of a reply frame (Table 11-1). -/
def Reply.frame (p : Reply) : List Byte := withCheck (p.code.code :: byte p.data.length :: p.data)

/-! ## The ports (R167, R169, R172) -/

/-- The port is in a state with no frame and no reply held. -/
def BusPort.clear (st : PortState) (v : BusPort) : BusPort := { v with state := st, frame := [], reply := [] }

/-- The acknowledges a port gives in a command. -/
def BusPort.acknowledge (l : List Bool) (v : BusPort) : BusPort := { v with acks := l }

/-- The state that a STOP or a START leaves a port in that has nothing to read, as from IDLE: the write address is taken
(R167). -/
def BusEvent.after : BusEvent → PortState
  | .stop => .idle
  | .startWrite => .receiving
  | .startRead => .idle
  | .startOther => .idle

/-- The acknowledge of the address after a START, as from IDLE: the port's own read address is not acknowledged, and the
address of another device is none of its (R167). -/
def BusEvent.acks : BusEvent → List Bool
  | .stop => []
  | .startWrite => [true]
  | .startRead => [false]
  | .startOther => []

/-- A port acts on a STOP or a START as from IDLE: nothing is held (R167). -/
def BusPort.restart (ev : BusEvent) (v : BusPort) : BusPort := (v.clear (BusEvent.after ev)).acknowledge (BusEvent.acks ev)

/-- The acknowledges of a write of `n` bytes: the write address and each byte are acknowledged. In RECEIVING the address
was taken before (R167). -/
def BusPort.writeAcks (n : Nat) (v : BusPort) : List Bool :=
  (if v.state = .receiving then [] else [true]) ++ List.replicate n true

/-- The acknowledge of the address that ends a whole frame, in ANSWERING: the read address is taken, the write address is
not acknowledged (R167). -/
def FrameEnd.acks : FrameEnd → List Bool
  | .hold => []
  | .read => [true]
  | .stop => []
  | .write => [false]

/-- The bus error kind of a port. -/
def busErrorKind : Port → EventKind
  | .a => .busErrorA
  | .b => .busErrorB

/-- A write of `n` bytes is broken off by a STOP or START: the bytes are discarded, one bus error is counted, and the port
acts on what follows as from IDLE (R167, R169). -/
def State.busError (port : Port) (n : Nat) (ev : BusEvent) (s : State) : State :=
  (s.modPort port fun v => (v.restart ev).acknowledge (v.writeAcks n ++ BusEvent.acks ev)).count (busErrorKind port) 1

/-- A write of the address and nothing else: a held reply is discarded, and the STOP returns the port to IDLE (R167). -/
def BusPort.emptyWrite (v : BusPort) : BusPort := (v.clear .idle).acknowledge (v.writeAcks 0)

/-- What a STOP or a START does to a port that is not receiving (the table of R167): a START with the read address in
HOLDING begins the read, and all else with the port's own address, and a STOP, is acted on as from IDLE. DESIGN CHOICE (log
entry 27): a START with the address of another device leaves the port, with its reply, as it is. -/
def BusPort.discard (ev : BusEvent) (v : BusPort) : BusPort :=
  if ev = .startOther then v
  else if v.state = .holding ∧ ev = .startRead then { v with state := .sending, acks := [true] }
  else v.restart ev

/-- A STOP or a START comes at a port (the table of R167). In RECEIVING a STOP after no bytes is no error, and a START breaks
off the frame (R169). Log entry 6: no port rests in ANSWERING. -/
def State.busEvent (port : Port) (ev : BusEvent) (s : State) : State :=
  match (s.port port).state with
  | .receiving => if ev = .stop then s.modPort port BusPort.emptyWrite else s.busError port 0 ev
  | .idle | .holding | .sending => s.modPort port (BusPort.discard ev)
  | .answering => s

/-- How a transaction with another device goes on when it carries a whole frame: by a STOP, or by a START for that device
(log entry 27). -/
def FrameEnd.elsewhere : FrameEnd → BusEvent
  | .stop => .stop
  | .hold | .read | .write => .startOther

/-- A transaction with another device: its START carries that device's address, and what it goes on with reaches the port
as well, so that a STOP discards a held reply (R167, log entry 27). -/
def State.elsewhere (port : Port) (next : BusEvent) (s : State) : State := (s.busEvent port .startOther).busEvent port next

/-- A transaction with an address: the part's own has the effect `f`, and any other is another device's, which goes on with
`next` (R167). -/
def atAddress (port : Port) (addr : BitVec 7) (next : BusEvent) (f : State → State) (s : State) : State :=
  if addr = s.busAddress then f s else s.elsewhere port next

/-- Whether a line is stuck and its reset is still to be made (R172). -/
def BusLine.stuck (l : BusLine) : Bool := decide (Config.stuckTicks ≤ l.lowTicks) && !l.reported

/-- A clock stretch of the port's own: the low ticks before it count no more toward a stuck line, but for a line that is
stuck already (R172). -/
def BusLine.stretch (l : BusLine) : BusLine := if l.stuck then l else { l with lowTicks := 0 }

/-- The port stretches the clock, as it does before a reply that is read while it is being built (R171). -/
def BusPort.stretch (v : BusPort) : BusPort := { v with clock := v.clock.stretch, data := v.data.stretch }

/-- A port that has been written a whole frame of `n` bytes holds, sends or drops the reply it has built, by how the
transaction goes on; a read that begins before the reply is built stretches the clock (R167, R169, R171). -/
def BusPort.answer (ending : FrameEnd) (n : Nat) (p : Reply) (v : BusPort) : BusPort :=
  let w := { v with frame := [], acks := v.writeAcks n ++ FrameEnd.acks ending }
  match ending with
  | .hold => { w with state := .holding, reply := p.frame }
  | .read => { w.stretch with state := .sending, reply := p.frame }
  | .stop | .write => { w with state := .idle, reply := [] }

/-! ## Taking a request -/

/-- What a request does: the state after its own effect, and the reply worked out once the event has ended. -/
abbrev Body := State → State × (State → Reply)

/-- A refused request changes nothing and carries no data (Table 11-3). -/
def refuse (c : Completion) : Body := fun s => (s, fun _ => ⟨c, []⟩)

/-- A request that leaves the state as it is and answers with data. -/
def answerWith (d : List Byte) : Body := fun s => (s, fun _ => ⟨.done, d⟩)

/-- A request is served: the body's effect, the end of the event, and the port's answer. More than 24 parameter bytes are a
BAD_CHECK_FRAME (R170). -/
def State.serve (r : Request) (body : Body) (s : State) : State :=
  if r.params.length ≤ 24 then
    let out := body s
    let s1 := s.settle out.1
    s1.modPort r.port (BusPort.answer r.ending r.size (out.2 s1))
  else s

/-- A request only a manager makes, with the port's survey and sender tests (R170). -/
def fromManager (read : Bool) (r : Request) (k : ManagerId → Body) : Body := fun s =>
  if s.survey.refuses ∧ read = false then refuse .surveying s
  else
    match sender? r.tag with
    | some (.manager m) => k m s
    | some (.blade _) => refuse .unknownRequest s
    | none => refuse .unknownRequest s

/-- A request only a blade makes, for its own slot while its management power is on (R170, R46). -/
def fromBlade (r : Request) (k : SlotId → Body) : Body := fun s =>
  if s.survey.refuses then refuse .surveying s
  else
    match sender? r.tag with
    | some (.blade i) =>
      if slotNumber? r.slot = some i ∧ (s.slot i).mgmtPower then k i s else refuse .notPresent s
    | some (.manager _) => refuse .unknownRequest s
    | none => refuse .unknownRequest s

/-- A manager request taken only from an ACTIVE manager (R158). -/
def fromActive (r : Request) (k : ManagerId → Body) : Body :=
  fromManager false r fun m s => if (s.manager m).state = .active then k m s else refuse .notActive s

/-- Whether the steering test lets a manager's request reach a slot (Table 10-3). -/
def steeringAllows (v : Slot) (m : ManagerId) : Bool := v.steering = none || v.steering = some m

/-- An ACTIVE manager's request that names a slot and meets the steering test; a slot number outside 1 to 16 is refused
by the owning block (R158, R159). -/
def onSlot (r : Request) (k : ManagerId → SlotId → Body) : Body :=
  fromActive r fun m s =>
    match slotNumber? r.slot with
    | none => refuse .badParam s
    | some i => if steeringAllows (s.slot i) m then k m i s else refuse .notSteering s

/-- An ACTIVE manager's request that names the shelf. DESIGN CHOICE (log entry 9): another slot number is refused with
BAD_PARAM, as R72 and R156 state for theirs. -/
def onShelf (r : Request) (k : Body) : Body :=
  fromActive r fun _ s => if r.slot = 0 then k s else refuse .badParam s

/-- A manager's read that names the shelf, served in any supervision state and during the survey (R158, R178); another
slot number as in `onShelf`. -/
def readShelfOf (r : Request) (k : ManagerId → Body) : Body :=
  fromManager true r fun m s => if r.slot = 0 then k m s else refuse .badParam s

/-- The reply that carries the slot's state after the request. -/
def slotReply (c : Completion) (i : SlotId) : State → Reply := fun s => ⟨c, [byte (s.slot i).state.code]⟩

/-- The request transaction as a command's outcome. A request with another address is another device's (R167). -/
def request (r : Request) (body : Body) (s : State) : Host.Outcome State Fault Refusal :=
  .next (atAddress r.port r.addr (FrameEnd.elsewhere r.ending) (fun s => s.serve r body) s)

end Sys2Proof.Machine
end

