-- ==== Sys2Proof/Machine/Bus.lean ====
section
/-! DEFINITION. The bus ports outside the requests (chapter 11): BAD_CHECK_FRAME, UNKNOWN_REQUEST, BUS_ERROR,
EMPTY_WRITE, REPLY_READ, REPLY_DISCARD and STUCK_LINE_RESET. -/

namespace Sys2Proof.Machine

/-! ## BAD_CHECK_FRAME (R170) -/

/-- BAD_CHECK_FRAME (R170): a whole frame whose length or check byte is wrong is answered BAD_CHECK. -/
def execBadCheckFrame (port : Port) (addr : BitVec 7) (bytes : List Byte) (ending : FrameEnd) (s : State) :
    Host.Outcome State Fault Refusal :=
  if wholeFrame bytes ∧ goodFrame bytes = false then
    event (atAddress port addr (FrameEnd.elsewhere ending) fun s =>
      (s.modPort port (BusPort.answer ending bytes.length ⟨.badCheck, []⟩)).count .checkFail 1) s
  else .next s

/-! ## UNKNOWN_REQUEST (R170) -/

/-- Whether a code is a known request other than a read. -/
def changesState (code : Byte) : Bool := code ∈ otherRequestCodes

/-- UNKNOWN_REQUEST (R170): a checked frame with an unknown tag, an unknown code, or a request that kind of sender does
not make. During the survey a known request other than a read is answered SURVEYING first. -/
def execUnknownRequest (code : Byte) (r : Request) (s : State) : Host.Outcome State Fault Refusal :=
  if unknownTo code r.tag then
    request r (if s.survey.refuses ∧ changesState code then refuse .surveying else refuse .unknownRequest) s
  else .next s

/-! ## BUS_ERROR (R169) -/

/-- Whether a START or STOP after these bytes comes inside the frame. A write with no bytes ended by a STOP is no frame
(R167). -/
def insideFrame (bytes : List Byte) (ev : BusEvent) : Bool :=
  wholeFrame bytes = false && !(bytes.isEmpty && ev = .stop)

/-- BUS_ERROR (R169). -/
def execBusError (port : Port) (addr : BitVec 7) (bytes : List Byte) (ev : BusEvent) (s : State) :
    Host.Outcome State Fault Refusal :=
  if insideFrame bytes ev then event (atAddress port addr ev fun s => s.busError port bytes.length ev) s else .next s

/-! ## EMPTY_WRITE (R167) -/

/-- EMPTY_WRITE (R167). -/
def execEmptyWrite (port : Port) (addr : BitVec 7) (s : State) : Host.Outcome State Fault Refusal :=
  event (atAddress port addr .stop fun s => s.modPort port BusPort.emptyWrite) s

/-! ## REPLY_READ and REPLY_DISCARD (R167, R171) -/

/-- The bytes a read of `n` bytes gets from a reply: those beyond its check byte read 0xFF (R171). -/
def replyBytes (reply : List Byte) (n : Nat) : List Byte := (reply ++ List.replicate n 0xFF).take n

/-- A held reply is read: the port sends it and is IDLE at the end. In HOLDING it takes the read address first; in SENDING
it has taken it (R167, R171). -/
def BusPort.send (n : Nat) (v : BusPort) : BusPort :=
  { v.clear .idle with sent := replyBytes v.reply n, acks := if v.state = .holding then [true] else [] }

/-- A read of `n` bytes from the port's address (R167, R171). In IDLE the read address is not acknowledged; in RECEIVING it
breaks off the frame (R169). Log entry 6: no port rests in ANSWERING. -/
def State.readReply (port : Port) (n : Nat) (s : State) : State :=
  match (s.port port).state with
  | .holding | .sending => s.modPort port (BusPort.send n)
  | .receiving => s.busError port 0 .startRead
  | .idle => s.modPort port (BusPort.restart .startRead)
  | .answering => s

/-- REPLY_READ (R171). DESIGN CHOICE (log entry 27): a read of another device ends at its not-acknowledge, and a STOP after
it is a REPLY_DISCARD. -/
def execReplyRead (port : Port) (addr : BitVec 7) (n : Nat) (s : State) : Host.Outcome State Fault Refusal :=
  event (atAddress port addr .startOther fun s => s.readReply port n) s

/-- REPLY_DISCARD (R167). A STOP carries no address; a START for another device has that device's. -/
def execReplyDiscard (port : Port) (addr : BitVec 7) (ev : BusEvent) (s : State) : Host.Outcome State Fault Refusal :=
  match ev with
  | .stop => event (fun s => s.busEvent port .stop) s
  | .startOther => event (fun s => s.busEvent port .startOther) s
  | .startWrite => event (atAddress port addr .startOther fun s => s.busEvent port .startWrite) s
  | .startRead => event (atAddress port addr .startOther fun s => s.busEvent port .startRead) s

/-! ## STUCK_LINE_RESET (R172) -/

/-- Whether a port has a line to report. -/
def BusPort.stuck (v : BusPort) : Bool := v.clock.stuck || v.data.stuck

/-- The reset of a stuck line is made. -/
def BusLine.report (l : BusLine) : BusLine := { l with reported := l.reported || l.stuck }

/-- The reset of a port: nothing held, IDLE, and its stuck lines reported. -/
def BusPort.unstick (v : BusPort) : BusPort := { v.clear .idle with clock := v.clock.report, data := v.data.report }

/-- The BUS notice of a reset, held back during the survey (R172, R178). -/
def State.postBus (s : State) : State :=
  if s.survey.running then { s with survey := { s.survey with heldBus := true } } else s.postShelf .bus

/-- The reset of a port's stuck line, with its bus error and its notice (R172). -/
def State.takeStuck (port : Port) (s : State) : State :=
  if (s.port port).stuck then ((s.modPort port BusPort.unstick).count (busErrorKind port) 1).postBus else s

/-- STUCK_LINE_RESET (R172), at the thirteenth low tick of a line. -/
def execStuckLineReset (port : Port) (s : State) : Host.Outcome State Fault Refusal :=
  if (s.port port).stuck then event (fun s => s.takeStuck port) s else .next s

end Sys2Proof.Machine
end

