-- ==== Sys2Proof/Machine/Checkpoints.lean ====
section
/-! DEFINITION. The nine responses of RESPOND (chapter 10, R163 to R165; chapter 1, section 1.4). -/

namespace Sys2Proof.Machine

/-! ## What every response meets (R163) -/

/-- The states of Table 10-4. -/
def SlotState.respondable : SlotState → Bool
  | .declared | .queued | .powered | .listen | .reverted | .draining => true
  | .empty | .seating | .present | .precharge | .joinWait | .joinObserve | .live | .leaveWait | .leaveObserve
  | .poweringDown | .released | .barred | .orphaned => false

/-- Whether a RESPOND frame belongs to the command of response `c`: its first parameter is `c`, or names none of the nine
responses (log entry 7). -/
def ofResponse (c : Byte) (r : Request) : Bool :=
  match r.params.head? with
  | none => true
  | some b => b = c || b = 0 || decide (9 < b.toNat)

/-- The tests of a RESPOND after those of its sender: the response code, the slot's state, and the responses the state
permits (R163). -/
def respond (c : Byte) (permits : List SlotState) (r : Request) (k : ManagerId → SlotId → Body) : Body :=
  onSlot r fun m i s =>
    if r.params.head? ≠ some c then refuse .badParam s
    else if (s.slot i).state.respondable = false then refuse .wrongState s
    else if (s.slot i).state ∉ permits then refuse .wrongResponse s
    else k m i s

/-- The response command `c` with a body of its own. -/
def responseCommand (c : Byte) (r : Request) (body : Body) (s : State) : Host.Outcome State Fault Refusal :=
  if ofResponse c r then request r body s else .next s

/-- A response that is taken: the sender is given the steering (Table 10-3), the slot moves, and the reply carries its
state. DESIGN CHOICE (log entry 31): a HOLD of a slot that has the mark already gives the steering too. -/
def respondMove (c : Completion) (f : SlotId → State → State) (m : ManagerId) (i : SlotId) : Body :=
  fun s => (f i (s.giveSteering i m), slotReply c i)

/-! ## CONTINUE (R19, R20, R163) -/

/-- The effect of a CONTINUE: from CP-D to QUEUED, from CP-P to LISTEN. -/
def State.goOn (i : SlotId) (s : State) : State :=
  if (s.slot i).state = .declared then s.moveTo i .queued else (s.moveTo i .listen).atListen i

def continueBody (r : Request) : Body :=
  respond 1 [.declared, .powered] r fun m i s =>
    if (s.slot i).state = .declared ∧ (s.slot i).oversize then refuse .oversize s
    else respondMove .done State.goOn m i s

/-- CONTINUE: RESPOND with response 1 (R163). -/
def execRespContinue (r : Request) (s : State) : Host.Outcome State Fault Refusal :=
  responseCommand 1 r (continueBody r) s

/-! ## HOLD (R4, R164) -/

/-- The effect of a HOLD: the HELD mark at CP-D; from QUEUED back to DECLARED with the mark. -/
def State.hold (i : SlotId) (s : State) : State :=
  if (s.slot i).state = .declared then s.modSlot i fun r => { r with heldMark := true } else s.toDeclared i true none

def holdBody (r : Request) : Body := respond 2 [.declared, .queued] r (respondMove .done State.hold)

/-- HOLD: RESPOND with response 2 (R164). -/
def execRespHold (r : Request) (s : State) : Host.Outcome State Fault Refusal := responseCommand 2 r (holdBody r) s

/-! ## REJECT (R19) -/

def rejectBody (r : Request) : Body := respond 3 [.declared] r (respondMove .done fun i s => s.bar i .rejected)

/-- REJECT: RESPOND with response 3 (R163). -/
def execRespReject (r : Request) (s : State) : Host.Outcome State Fault Refusal := responseCommand 3 r (rejectBody r) s

/-! ## ROLLBACK (R165) -/

/-- The effect of a ROLLBACK: POWERING_DOWN with discharge target DECLARED (R7). -/
def State.rollback (i : SlotId) (s : State) : State :=
  (s.moveTo i .poweringDown).modSlot i fun r => { r with target := .declared }

def rollbackBody (r : Request) : Body := respond 4 [.powered, .listen] r (respondMove .accepted State.rollback)

/-- ROLLBACK: RESPOND with response 4 (R165). -/
def execRespRollback (r : Request) (s : State) : Host.Outcome State Fault Refusal :=
  responseCommand 4 r (rollbackBody r) s

/-! ## JOIN and RETRY (R20, R23) -/

/-- The move to JOIN_WAIT, refused with NO_GROUPS when the slot holds no group. -/
def joinOrRetry (m : ManagerId) (i : SlotId) : Body := fun s =>
  if s.heldGroups i = 0 then refuse .noGroups s
  else respondMove .accepted (fun i s => s.moveTo i .joinWait) m i s

def joinBody (r : Request) : Body := respond 5 [.listen] r joinOrRetry

/-- JOIN: RESPOND with response 5 (R163). -/
def execRespJoin (r : Request) (s : State) : Host.Outcome State Fault Refusal := responseCommand 5 r (joinBody r) s

def retryBody (r : Request) : Body := respond 6 [.reverted] r joinOrRetry

/-- RETRY: RESPOND with response 6 (R163). -/
def execRespRetry (r : Request) (s : State) : Host.Outcome State Fault Refusal := responseCommand 6 r (retryBody r) s

/-! ## RETIRE_RESPONSE (R23) -/

def retireResponseBody (r : Request) : Body :=
  respond 7 [.reverted] r (respondMove .accepted fun i s => s.moveTo i .poweringDown)

/-- RETIRE_RESPONSE: RESPOND with response 7 (R163). -/
def execRespRetire (r : Request) (s : State) : Host.Outcome State Fault Refusal :=
  responseCommand 7 r (retireResponseBody r) s

/-! ## QUIESCED and CANCEL (R147, R148) -/

def quiescedBody (r : Request) : Body :=
  respond 8 [.draining] r (respondMove .accepted fun i s => s.moveTo i .leaveWait)

/-- QUIESCED: RESPOND with response 8 (R147). -/
def execRespQuiesced (r : Request) (s : State) : Host.Outcome State Fault Refusal :=
  responseCommand 8 r (quiescedBody r) s

def cancelBody (r : Request) : Body := respond 9 [.draining] r (respondMove .done fun i s => s.moveTo i .live)

/-- CANCEL: RESPOND with response 9 (R148). -/
def execRespCancel (r : Request) (s : State) : Host.Outcome State Fault Refusal := responseCommand 9 r (cancelBody r) s

end Sys2Proof.Machine
end

