-- ==== Sys2Proof/Machine/Declare.lean ====
section
/-! DEFINITION. DECLARE (chapter 3, R46 to R59). -/

namespace Sys2Proof.Machine

/-- The reply to a declaration that is taken: the slot's state after the event, the flags, and a reservation (R59). -/
def declareReply (i : SlotId) (reservation : Nat) : State → Reply := fun s =>
  ⟨.done,
    [byte (s.slot i).state.code, byte (flagBit (s.slot i).oversize 0 + flagBit (s.slot i).clamped 1)] ++
      bytes2 reservation⟩

/-- The repaired declaration is recorded, with the CLAMPED flag it gives (R51). -/
def Slot.record (d : Declaration) (clamped : Bool) (r : Slot) : Slot := { r with decl := some d, clamped := clamped }

/-- A declaration recorded in a slot that holds power: the OVERSIZE flag is cleared without a test (R53). -/
def Slot.recordPowered (d : Declaration) (clamped : Bool) (r : Slot) : Slot := { r.record d clamped with oversize := false }

/-- The first declaration, in PRESENT (R54). -/
def State.declarePresent (i : SlotId) (d : Declaration) (clamped : Bool) (s : State) : State :=
  (((s.modSlot i (Slot.record d clamped)).oversizeTest i).moveTo i .declared).atDeclared i

/-- A re-declaration in DECLARED (R55). -/
def State.declareAgain (i : SlotId) (d : Declaration) (clamped : Bool) (s : State) : State :=
  (((s.modSlot i (Slot.record d clamped)).oversizeTest i).postSlot .state i).atDeclared i

/-- A re-declaration in LIVE that is taken, with its new reservation (R56, R57). -/
def State.declareLive (i : SlotId) (d : Declaration) (clamped : Bool) (reservation : Nat) (s : State) : State :=
  ((s.setReservation i reservation).modSlot i (Slot.recordPowered d clamped)).postSlot .state i

/-- Whether a new reservation of a LIVE slot is covered: it shrinks, or the growth fits the headroom (R56, R57). -/
def State.growthCovered (s : State) (i : SlotId) (reservation : Nat) : Bool :=
  decide (reservation ≤ (s.slot i).reservation + (s.zone (zoneOf i)).headroom)

/-- The state the survey's lane finding gives an ORPHANED slot that declares, and how an AUTO slot goes on from it (R58).
-/
def State.leaveOrphaned (i : SlotId) (s : State) : State :=
  match (s.slot i).lane.commanded with
  | .openMode | .biased => (s.moveTo i .powered).advancePowered i
  | .listen => (s.moveTo i .listen).advanceListen i
  | .joined => s.moveTo i .live

/-- A declaration in ORPHANED: reservation, flags, state, and then the effect of an OPEN handle. A CHECKPOINT notice is
posted where the slot comes to rest awaiting a manager, so none for a state that an OPEN handle takes it on from (R58).
-/
def State.declareOrphaned (i : SlotId) (d : Declaration) (clamped : Bool) (reservation : Nat) (s : State) : State :=
  let s := s.modSlot i fun r => { r.recordPowered d clamped with attempts := 0 }
  let s := (s.setReservation i reservation).leaveOrphaned i
  if (s.slot i).handleClosed then s.noteCheckpoint i else s.handleOpened i

/-- A usable declaration by slot state (R47). -/
def declareUsable (i : SlotId) (d : Declaration) (clamped : Bool) : Body := fun s =>
  let reservation := reservationFor d.power (s.zone (zoneOf i)).margin
  match (s.slot i).state with
  | .present => (s.declarePresent i d clamped, declareReply i reservation)
  | .declared => (s.declareAgain i d clamped, declareReply i reservation)
  | .orphaned => (s.declareOrphaned i d clamped reservation, declareReply i reservation)
  | _ =>
    if s.growthCovered i reservation then (s.declareLive i d clamped reservation, declareReply i reservation)
    else (s, fun _ => ⟨.noHeadroom, bytes2 reservation ++ bytes2 (s.zone (zoneOf i)).headroom⟩)

/-- Whether a slot takes a DECLARE: in PRESENT, DECLARED, ORPHANED, and LIVE but for the wait after an undo (R47,
R124). -/
def Slot.takesDeclare (r : Slot) : Bool :=
  match r.state with
  | .present | .declared | .orphaned => true
  | .live => !r.undoWait
  | .empty | .seating | .queued | .precharge | .powered | .listen | .joinWait | .joinObserve | .reverted | .draining
  | .leaveWait | .leaveObserve | .poweringDown | .released | .barred => false

/-- A DECLARE from the slot's own blade: the state test comes before the content (R47, R48). -/
def declareSlot (params : List Byte) (i : SlotId) : Body := fun s =>
  if (s.slot i).takesDeclare = false then refuse .wrongState s
  else
    match declareContent params with
    | .tooFew => refuse .badParam s
    | .unusable => refuse .badDeclaration s
    | .usable d clamped => declareUsable i d clamped s

def declareBody (r : Request) : Body := fromBlade r (declareSlot r.params)

/-- DECLARE (R47). -/
def execDeclare (r : Request) (s : State) : Host.Outcome State Fault Refusal := request r (declareBody r) s

end Sys2Proof.Machine
end

