-- ==== Sys2Proof/Machine/Groups.lean ====
section
/-! DEFINITION. Giving groups to slots and taking them back (chapter 7, R112 to R114): ASSIGN_GROUPS and
RELEASE_GROUPS. -/

namespace Sys2Proof.Machine

/-! ## The tests both meet (R112) -/

/-- The states that take a change of groups. -/
def SlotState.takesGroups : SlotState → Bool
  | .declared | .queued | .precharge | .powered | .listen | .joinWait | .joinObserve | .live | .reverted => true
  | .empty | .seating | .present | .draining | .leaveWait | .leaveObserve | .poweringDown | .released | .barred
  | .orphaned => false

/-- The tests of the slot's state (a slot that waits for the end of an undo refuses, R124), of the window, and of the
list; then the body with the set listed. -/
def changeGroups (r : Request) (k : SlotId → GroupSet → Body) : Body :=
  onSlot r fun _ i s =>
    if (s.slot i).state.takesGroups = false ∨ (s.slot i).undoWait then refuse .wrongState s
    else if s.holdsWindow i then refuse .busyOther s
    else
      match groupList? r.params with
      | none => refuse .badParam s
      | some gs => k i gs s

/-- The reply data: the held set, and in LIVE the transmit set and the pending regroup too (Table 11-6). -/
def groupsData (s : State) (i : SlotId) : List Byte :=
  if (s.slot i).state = .live then
    groupBytes (s.heldGroups i) ++ groupBytes (s.slot i).lane.transmit ++
      groupBytes ((s.slot i).lane.pending.getD 0)
  else groupBytes (s.heldGroups i)

/-- The reply: ACCEPTED while a LIVE slot's pending regroup remains, else DONE (R113, R114). -/
def groupsReply (i : SlotId) : State → Reply := fun s =>
  ⟨if (s.slot i).state = .live ∧ (s.slot i).lane.pending.isSome then .accepted else .done, groupsData s i⟩

/-- The new transmit set of a LIVE slot becomes its pending regroup, or cancels it when it equals the present set (R114).
-/
def State.setRegroup (i : SlotId) (new : GroupSet) (s : State) : State :=
  let l := (s.slot i).lane
  let s :=
    if new ≠ l.transmit then
      let s := s.modLane i fun v => { v with pending := some new }
      if l.pending.isSome then s else s.addChange i .regroup
    else (s.modLane i fun v => { v with pending := none }).dropChange i
  s.postSlot .state i

/-- The transmit set that a LIVE slot is to have, before this request. -/
def LaneRecord.wanted (l : LaneRecord) : GroupSet := l.pending.getD l.transmit

/-! ## ASSIGN_GROUPS (R113, R114) -/

/-- Whether a listed group is owned by another slot. -/
def State.ownedByOther (s : State) (i : SlotId) (gs : GroupSet) : Bool :=
  (List.finRange 32).any fun g => gs.mem g && decide (s.map[g.val] ≠ none ∧ s.map[g.val] ≠ some i)

/-- Whether a slot that gains its first groups goes on to JOIN_WAIT: an AUTO slot in LISTEN, or in REVERTED with its
backoff expired (R113). -/
def Slot.joinsOnGroups (r : Slot) : Bool :=
  r.policy = .auto && (r.state = .listen || (r.state = .reverted && r.backoffTimer = .stopped))

/-- ASSIGN_GROUPS outside LIVE takes effect at once (R113). -/
def State.assignNow (i : SlotId) (gs : GroupSet) (s : State) : State :=
  let had := s.heldGroups i
  let s := (s.claimSet i gs).postSlot .state i
  if had = 0 ∧ (s.slot i).joinsOnGroups then s.moveTo i .joinWait else s

/-- ASSIGN_GROUPS in LIVE: the groups become owned at once and wait for the regroup (R114). -/
def State.assignLive (i : SlotId) (gs : GroupSet) (s : State) : State :=
  (s.claimSet i gs).setRegroup i ((s.slot i).lane.wanted ||| gs)

/-- The two forms of ASSIGN_GROUPS. -/
def State.assign (i : SlotId) (gs : GroupSet) (s : State) : State :=
  if (s.slot i).state = .live then s.assignLive i gs else s.assignNow i gs

def assignBody (r : Request) : Body :=
  changeGroups r fun i gs s =>
    if s.ownedByOther i gs then refuse .groupTaken s
    else if 8 < groupCount (s.heldGroups i ||| gs) then refuse .badParam s
    else (s.assign i gs, groupsReply i)

/-- ASSIGN_GROUPS (R112). -/
def execAssignGroups (r : Request) (s : State) : Host.Outcome State Fault Refusal := request r (assignBody r) s

/-! ## RELEASE_GROUPS (R113, R114) -/

/-- RELEASE_GROUPS outside LIVE takes effect at once; a JOIN_WAIT slot left with no group goes back to LISTEN. Log entry
13: an AUTO slot enters LISTEN there as anywhere, with the automatic assignment of R115. -/
def State.releaseNow (i : SlotId) (gs : GroupSet) (s : State) : State :=
  let s := (s.freeSet i gs).postSlot .state i
  if (s.slot i).state = .joinWait ∧ s.heldGroups i = 0 then (s.moveTo i .listen).atListen i else s

/-- RELEASE_GROUPS in LIVE: waiting additions are freed at once, the rest waits for the regroup (R114). -/
def State.releaseLive (i : SlotId) (gs : GroupSet) (s : State) : State :=
  (s.freeSet i (gs &&& ~~~(s.slot i).lane.transmit)).setRegroup i ((s.slot i).lane.wanted &&& ~~~gs)

/-- The two forms of RELEASE_GROUPS. -/
def State.release (i : SlotId) (gs : GroupSet) (s : State) : State :=
  if (s.slot i).state = .live then s.releaseLive i gs else s.releaseNow i gs

def releaseBody (r : Request) : Body :=
  changeGroups r fun i gs s =>
    if gs &&& ~~~s.heldGroups i ≠ 0 then refuse .badParam s
    else if (s.slot i).state = .live ∧ (s.slot i).lane.wanted &&& ~~~gs = 0 then refuse .noGroups s
    else (s.release i gs, groupsReply i)

/-- RELEASE_GROUPS (R112). -/
def execReleaseGroups (r : Request) (s : State) : Host.Outcome State Fault Refusal := request r (releaseBody r) s

end Sys2Proof.Machine
end

