-- ==== Sys2Proof/Machine/Highway.lean ====
section
/-! DEFINITION. The highway join unit and the change window block between requests (chapters 7 and 8): HIGHWAY_ERROR,
LANE_SENSE_SAMPLE, WINDOW_GRANT, WINDOW_VERDICT, REVERT, RESTORE and UNDO. -/

namespace Sys2Proof.Machine

/-! ## HIGHWAY_ERROR (R132) -/

/-- HIGHWAY_ERROR (R132): the error count of the multiframe rises by 1 and holds at 255. -/
def execHighwayError (s : State) : Host.Outcome State Fault Refusal :=
  event (fun s => s.modBlock fun b => { b with errors := min (b.errors + 1) 255 }) s

/-! ## LANE_SENSE_SAMPLE (R122, R124, R125) -/

/-- The result of a comparison (R122). -/
inductive SenseResult where
  | agree
  | excess
  | shortfall
  | mode
deriving DecidableEq, Repr

/-- The comparison of a slot's lane sense with its command (R122). -/
def LaneRecord.result (l : LaneRecord) : SenseResult :=
  if l.sensedDrive &&& ~~~l.drive ≠ 0 then .excess
  else if l.drive &&& ~~~l.sensedDrive ≠ 0 then .shortfall
  else if l.sensedMode ≠ l.commanded then .mode
  else .agree

/-- The lane sense of a slot is recorded. -/
def LaneRecord.sense (v : LaneSense) (l : LaneRecord) : LaneRecord :=
  { l with sensedMode := v.mode, sensedDrive := v.drive }

/-- The phase of a slot changes, with a STATE notice (R11). -/
def State.setPhase (i : SlotId) (p : SlotPhase) (s : State) : State :=
  (s.modSlot i fun r => { r with phase := some p }).postSlot .state i

/-- A lane mismatch found after a join or a regroup: the slot is marked LANE_MISMATCH, and the undo waits for the first
valid boundary after this sample (R124, R135). -/
def State.laneMismatch (i : SlotId) (s : State) : State :=
  if s.holdsWindow i then
    let s := s.modSlot i fun r => { r with cause := some .laneMismatch }
    let s := s.modBlock fun b => { b with opened := b.opened.map fun w => { w with undoPending := true } }
    if (s.slot i).state = .joinObserve then s.setPhase i .revertPending else s
  else s

/-- What a comparison does, by the kind of the switching (R124, R125). -/
def State.actOnSense (i : SlotId) (k : SwitchKind) (s : State) : State :=
  let r := s.slot i
  let result := r.lane.result
  let s := if result = .agree then s else s.postSlot .fault i
  match k with
  | .transmitOn => if result = .agree then s else s.laneMismatch i
  | .transmitOff =>
    if r.undoWait then
      if r.lane.sensedDrive = 0 then s.bar i .laneMismatch else s.isolate i .stuckLane
    else if result = .excess ∧ r.state.isPowered then s.isolate i .stuckLane
    else s
  | .plain => s

/-- One slot's part of a lane-sense sample: its sense is recorded, and a switching not yet compared is compared once. A
switching at the boundary of the tick in hand waits for the next tick, and the survey compares none (R122, R180). -/
def State.senseSlot (i : SlotId) (v : LaneSense) (s : State) : State :=
  let s := s.modLane i (LaneRecord.sense v)
  let l := (s.slot i).lane
  match l.comparison with
  | some k =>
    if l.atBoundary ∨ s.survey.running then s
    else (s.modLane i fun l => { l with comparison := none }).actOnSense i k
  | none => s

/-- The lane sense of a tick, slot by slot. -/
def State.senseAll (senses : Vector LaneSense 16) (s : State) : State :=
  allSlots.foldl (fun s i => s.senseSlot i senses[i.val]) { s with laneDue := false }

/-- LANE_SENSE_SAMPLE (R122), once at each tick. -/
def execLaneSenseSample (senses : Vector LaneSense 16) (s : State) : Host.Outcome State Fault Refusal :=
  if s.laneDue then event (fun s => s.senseAll senses) s else .next s

/-! ## WINDOW_GRANT (R130, R117, R119, R121) -/

/-- The window record as a grant opens it, with the settings copied and the baseline worked out (R130, R134). -/
def WindowBlock.openFor (e : ChangeEntry) (b : WindowBlock) : OpenWindow :=
  { holder := e.slot, kind := e.kind, phase := .observeChange, undoPending := false, age := 0, window := b.window,
    threshold := b.threshold, tolerance := b.tolerance, before := b.disturbedMarks b.window, after := 0, observed := 0 }

/-- The first entry of the list takes the window and leaves the list (R130). -/
def WindowBlock.grant (e : ChangeEntry) (b : WindowBlock) : WindowBlock :=
  { b with
    list := b.list.filter fun x => x.slot ≠ e.slot
    opened := some (b.openFor e), lastVerdict := none, grantDue := false }

/-- The join of a JOIN_WAIT slot at its boundary (R117). -/
def State.applyJoin (i : SlotId) (s : State) : State :=
  (s.switchLanes i .joined (s.heldGroups i) .transmitOn true).moveTo i .joinObserve

/-- The regroup of a LIVE slot at its boundary (R119). -/
def State.applyRegroup (i : SlotId) (s : State) : State :=
  let l := (s.slot i).lane
  let s := s.switchLanes i .joined (l.pending.getD l.transmit) .transmitOn true
  (s.modLane i fun v => { v with restore := some l.transmit, pending := none }).postSlot .state i

/-- The leave of a LEAVE_WAIT slot at its boundary (R121). -/
def State.applyLeave (i : SlotId) (s : State) : State :=
  ((s.switchLanes i .listen 0 .transmitOff true).freeGroups i).moveTo i .leaveObserve

/-- The switching of the entry's kind. -/
def State.applyChange (e : ChangeEntry) (s : State) : State :=
  match e.kind with
  | .join => s.applyJoin e.slot
  | .regroup => s.applyRegroup e.slot
  | .leave => s.applyLeave e.slot

/-- Whether the boundary of the latest tick lasts: until its sync window closes, one frame after the tick, where the
reference may leave LOCKED (R104, R108). -/
def State.atBoundary (s : State) : Bool := s.ref.closeDue

/-- WINDOW_GRANT (R130), at a valid boundary that found the window closed and the list not empty. -/
def execWindowGrant (s : State) : Host.Outcome State Fault Refusal :=
  match s.block.list with
  | e :: _ =>
    if s.atBoundary ∧ s.block.grantDue ∧ s.block.opened = none then
      event (fun s => (s.modBlock (WindowBlock.grant e)).applyChange e) s
    else .next s
  | [] => .next s

/-! ## WINDOW_VERDICT (R134, R135) -/

/-- The verdict of an observation (R134). -/
def OpenWindow.verdict (w : OpenWindow) : Verdict :=
  if w.before + w.tolerance < w.after then .disturbed else .clean

/-- The phase of the open window changes. -/
def State.setWindowPhase (p : WindowPhase) (s : State) : State :=
  s.modBlock fun b => { b with opened := b.opened.map fun w => { w with phase := p } }

/-- A CLEAN join: LIVE, or DRAINING when retirement is pending (R21, R135). -/
def State.joinClean (i : SlotId) (s : State) : State :=
  let s := s.closeWindow
  if (s.slot i).retirePending then s.startDrain i none else s.moveTo i .live

/-- A DISTURBED join: the revert waits for its boundary (R135). -/
def State.joinDisturbed (i : SlotId) (s : State) : State := (s.setWindowPhase .revertPending).setPhase i .revertPending

/-- A CLEAN revert: the attempt count rises, and the slot goes to BARRED at the third, to POWERING_DOWN when retirement
is pending, and to REVERTED otherwise (R5, R21, R135). -/
def State.revertClean (i : SlotId) (s : State) : State :=
  let s := s.closeWindow.modSlot i fun r => { r with attempts := r.attempts + 1 }
  if 3 ≤ (s.slot i).attempts then s.bar i .attempts
  else if (s.slot i).retirePending then s.moveTo i .poweringDown
  else (s.moveTo i .reverted).noteCheckpoint i

/-- The groups a slot gave up stop being its own, and the restore set is discarded, with a STATE notice (R120). -/
def State.dropGroups (i : SlotId) (gs : GroupSet) (s : State) : State :=
  ((s.freeSet i gs).modLane i fun l => { l with restore := none }).postSlot .state i

/-- The end of a regroup window: it closes, and a pending retirement starts its drain (R120, R135). -/
def State.endRegroup (i : SlotId) (s : State) : State :=
  let s := s.closeWindow
  if (s.slot i).retirePending then s.startDrain i none else s

/-- A CLEAN regroup: the groups dropped are freed (R120). -/
def State.regroupClean (i : SlotId) (s : State) : State :=
  let l := (s.slot i).lane
  (s.dropGroups i (l.restore.getD 0 &&& ~~~l.transmit)).endRegroup i

/-- A DISTURBED regroup: the restore waits for its boundary (R120, R135). -/
def State.regroupDisturbed (i : SlotId) (s : State) : State := (s.setWindowPhase .restorePending).postSlot .fault i

/-- The end of a leave, CLEAN or DISTURBED (R150). -/
def State.leaveEnd (i : SlotId) (v : Verdict) (s : State) : State :=
  let s := s.closeWindow.moveTo i .poweringDown
  if v = .disturbed then s.postSlot .fault i else s

/-- The state in which the holder of a window of each kind is observed. -/
def ChangeKind.observedState : ChangeKind → SlotState
  | .join => .joinObserve
  | .leave => .leaveObserve
  | .regroup => .live

/-- The effect of a verdict by kind and phase (Table 8-2). -/
def State.actOnVerdict (w : OpenWindow) (v : Verdict) (s : State) : State :=
  match w.kind, w.phase, v with
  | .join, .observeChange, .clean => s.joinClean w.holder
  | .join, .observeChange, .disturbed => s.joinDisturbed w.holder
  | .join, .observeRevert, .clean => s.revertClean w.holder
  | .join, .observeRevert, .disturbed => s.isolate w.holder .revertDisturbed
  | .regroup, .observeChange, .clean => s.regroupClean w.holder
  | .regroup, .observeChange, .disturbed => s.regroupDisturbed w.holder
  | .leave, .observeChange, v => s.leaveEnd w.holder v
  | _, _, _ => s

/-- A verdict is given: it is recorded, and acted on unless an undo waits (R134, R135). -/
def State.giveVerdict (w : OpenWindow) (s : State) : State :=
  let v := w.verdict
  let s := s.modBlock fun b => { b with lastVerdict := some v }
  if w.undoPending then s.setWindowPhase .donePending else s.actOnVerdict w v

/-- Whether the open window has counted its multiframes. -/
def OpenWindow.complete (w : OpenWindow) : Bool := w.counting && w.observedAll

/-- WINDOW_VERDICT (R134), when w has reached copied W. -/
def execWindowVerdict (s : State) : Host.Outcome State Fault Refusal :=
  match s.block.opened with
  | some w =>
    if w.complete ∧ (s.slot w.holder).state = w.kind.observedState then event (fun s => s.giveVerdict w) s else .next s
  | none => .next s

/-! ## The boundary actions (R118, R120, R124, R135) -/

/-- The boundary of the tick in hand has been used. -/
def State.useBoundary (s : State) : State := s.modBlock fun b => { b with boundaryDue := false }

/-- A slot is taken off the highway at a boundary: the switching of a revert and of an undo, with its REVERT report (R118,
R124). -/
def State.offHighway (i : SlotId) (s : State) : State :=
  ((s.switchLanes i .listen 0 .transmitOff true).count .revert 1).useBoundary

/-- The revert of a disturbed join (R118): its observation starts at this boundary (R135). -/
def State.applyRevert (i : SlotId) (s : State) : State :=
  let s := (s.offHighway i).setPhase i .observeRevert
  s.modBlock fun b => { b with opened := b.opened.map fun w => { w with phase := .observeRevert, observed := 0, after := 0 } }

/-- REVERT (R118), at the first valid boundary after the verdict. -/
def execRevert (s : State) : Host.Outcome State Fault Refusal :=
  match s.block.opened with
  | some w =>
    if s.atBoundary ∧ s.block.boundaryDue ∧ w.phase = .revertPending ∧ w.undoPending = false ∧
        (s.slot w.holder).state = .joinObserve then
      event (fun s => s.applyRevert w.holder) s
    else .next s
  | none => .next s

/-- The restore of a disturbed regroup (R120). -/
def State.applyRestore (i : SlotId) (s : State) : State :=
  let l := (s.slot i).lane
  let set := l.restore.getD 0
  let s := ((s.switchLanes i .joined set .transmitOff true).count .revert 1).useBoundary
  (s.dropGroups i (l.transmit &&& ~~~set)).endRegroup i

/-- RESTORE (R120), at the first valid boundary after the verdict. -/
def execRestore (s : State) : Host.Outcome State Fault Refusal :=
  match s.block.opened with
  | some w =>
    if s.atBoundary ∧ s.block.boundaryDue ∧ w.phase = .restorePending ∧ w.undoPending = false ∧ (s.slot w.holder).state = .live then
      event (fun s => s.applyRestore w.holder) s
    else .next s
  | none => .next s

/-- The undo of a mismatched join or regroup: the slot is off the highway, its groups still owned, and the window closes
(R124, R135). -/
def State.applyUndo (i : SlotId) (s : State) : State :=
  let s := ((s.offHighway i).modLane i fun l => { l with restore := none }).closeWindow
  if (s.slot i).state = .joinObserve then s.setPhase i .observeRevert else s

/-- UNDO (R124), at the first valid boundary after the sample that found the mismatch, in whatever phase the window then
is. -/
def execUndo (s : State) : Host.Outcome State Fault Refusal :=
  match s.block.opened with
  | some w =>
    if s.atBoundary ∧ s.block.boundaryDue ∧ w.undoPending ∧ (s.slot w.holder).state = w.kind.observedState then
      event (fun s => s.applyUndo w.holder) s
    else .next s
  | none => .next s

end Sys2Proof.Machine
end

