-- ==== Sys2Proof/Machine/Managers.lean ====
section
/-! DEFINITION. Supervision, steering and policy (chapter 10): BAY_STRAP_CHANGE, SUPERVISION_TIMER_EXPIRY, REFRESH,
ADOPT and SET_SLOT_POLICY. -/

namespace Sys2Proof.Machine

/-! ## BAY_STRAP_CHANGE (R155) -/

/-- A manager stops being supervised: its timer stops and its refresh phase becomes none. -/
def Manager.unsupervised (m : Manager) : Manager := { m with pendingPhase := none, timer := .stopped }

/-- The strap of a manager is accepted absent: ABSENT from any state, with its steerings dropped. -/
def State.strapAbsent (m : ManagerId) (s : State) : State :=
  ((s.modManager m Manager.unsupervised).dropSteerings m).setManagerState m .absent

/-- The strap of a manager is accepted present: an ABSENT manager becomes SILENT. -/
def State.strapPresent (m : ManagerId) (s : State) : State :=
  if (s.manager m).state = .absent then s.setManagerState m .silent else s

/-- An accepted change of a manager's bay strap is taken (R155). -/
def State.strapChange (m : ManagerId) (s : State) : State :=
  let level := (s.manager m).strap
  let s := s.modManager m fun v => { v with bayStrap := level }
  if level then s.strapPresent m else s.strapAbsent m

/-- BAY_STRAP_CHANGE (R155), when the accepted level differs from the record's. During the survey the records keep the
values of the first sample. DESIGN CHOICE (log entry 33): a change that is not taken before the strap is accepted back is lost. -/
def execBayStrapChange (m : ManagerId) (s : State) : Host.Outcome State Fault Refusal :=
  if s.survey.running = false ∧ (s.manager m).strap ≠ (s.manager m).bayStrap then event (fun s => s.strapChange m) s
  else .next s

/-! ## SUPERVISION_TIMER_EXPIRY (R157) -/

/-- Whether a supervision timer's count has reached its period. -/
def SupervisionTimer.due : SupervisionTimer → Bool
  | .running c p => decide (p ≤ c)
  | .stopped => false

/-- A manager lapses: its timer stops, its refresh phase becomes none, and its steerings are dropped. -/
def State.lapse (m : ManagerId) (s : State) : State :=
  ((s.modManager m Manager.unsupervised).dropSteerings m).setManagerState m .lapsed

/-- SUPERVISION_TIMER_EXPIRY (R157). -/
def execSupervisionTimerExpiry (m : ManagerId) (s : State) : Host.Outcome State Fault Refusal :=
  if (s.manager m).timer.due then event (fun s => s.lapse m) s else .next s

/-! ## REFRESH (R156) -/

/-- What a REFRESH asks for. -/
inductive RefreshPhase where
  | first (period : Nat)
  | second
deriving DecidableEq, Repr

/-- The parameters of a REFRESH: phase 1 with a period of 125 to 4000, or phase 2. -/
def refreshPhase? (params : List Byte) : Option RefreshPhase :=
  match params with
  | [] => none
  | ph :: rest =>
    if ph = 2 then some .second
    else if ph = 1 then
      match rest with
      | hi :: lo :: _ =>
        if 125 ≤ word2 hi lo ∧ word2 hi lo ≤ 4000 then some (.first (word2 hi lo)) else none
      | _ => none
    else none

/-- A completed pair: the pending period becomes the supervision period and the timer starts again with it. -/
def Manager.complete (period : Nat) (m : Manager) : Manager :=
  { m with period := period, pendingPhase := none, timer := .running 0 period }

/-- The pair of a manager is completed: a SILENT or LAPSED manager becomes ACTIVE. -/
def State.completePair (m : ManagerId) (period : Nat) (s : State) : State :=
  let s := s.modManager m (Manager.complete period)
  if (s.manager m).state = .active then s else s.setManagerState m .active

/-- The reply to a REFRESH that is taken (Table 11-6). -/
def refreshReply (m : ManagerId) : State → Reply := fun s =>
  ⟨.done, [byte (s.manager m).state.code] ++ bytes2 (s.manager m).period ++ [byte (s.manager (ManagerId.other m)).state.code]⟩

def refreshBody (r : Request) : Body :=
  fromManager false r fun m s =>
    if (s.manager m).state = .absent then refuse .wrongState s
    else if r.slot ≠ 0 then refuse .badParam s
    else
      match refreshPhase? r.params with
      | none => refuse .badParam s
      | some (.first period) => (s.modManager m fun v => { v with pendingPhase := some period }, refreshReply m)
      | some .second =>
        match (s.manager m).pendingPhase with
        | none => refuse .wrongState s
        | some period => (s.completePair m period, refreshReply m)

/-- REFRESH (R156). -/
def execRefresh (r : Request) (s : State) : Host.Outcome State Fault Refusal := request r (refreshBody r) s

/-! ## ADOPT (R161) -/

/-- The states in which a slot can hold steering. -/
def SlotState.adoptable : SlotState → Bool
  | .present | .declared | .queued | .precharge | .powered | .listen | .joinWait | .joinObserve | .reverted | .draining
  | .leaveWait | .leaveObserve | .poweringDown | .orphaned => true
  | .empty | .seating | .live | .released | .barred => false

/-- The reply to an ADOPT: the slot's steering. -/
def steeringReply (i : SlotId) : State → Reply := fun s => ⟨.done, [optByte ((s.slot i).steering.map ManagerId.code)]⟩

def adoptBody (r : Request) : Body :=
  onSlot r fun m i s =>
    if (s.slot i).state.adoptable = false then refuse .wrongState s
    else if (s.slot i).steering.isSome then (s, steeringReply i)
    else ((s.giveSteering i m).noteCheckpoint i, steeringReply i)

/-- ADOPT (R161). -/
def execAdopt (r : Request) (s : State) : Host.Outcome State Fault Refusal := request r (adoptBody r) s

/-! ## SET_SLOT_POLICY (R162, R83) -/

/-- The parameters of a SET_SLOT_POLICY. -/
def policySetting? (params : List Byte) : Option (Policy × Option (Fin 4)) :=
  match params with
  | p :: o :: _ =>
    match policy? p, override? o with
    | some policy, some prio => some (policy, prio)
    | _, _ => none
  | _ => none

/-- A QUEUED slot whose override changed is placed again, behind all of its new equals (R83). -/
def State.replace (i : SlotId) (s : State) : State := (s.leaveQueue i).joinQueue i

/-- A change of policy to AUTO acts at once on a slot that waits at a checkpoint (R162, R115). -/
def State.becomeAuto (i : SlotId) (s : State) : State :=
  match (s.slot i).state with
  | .declared => s.autoAdvance i
  | .powered => s.atPowered i
  | .listen => s.atListen i
  | .reverted => s.modSlot i fun r => { r with backoffTimer := .running 0 (64 * r.attempts) }
  | _ => s

/-- A change of policy to SUPERVISED acts at once on a slot that waits at a checkpoint (R162). -/
def State.becomeSupervised (i : SlotId) (s : State) : State :=
  match (s.slot i).state with
  | .declared | .powered | .listen => s.postSlot .checkpoint i
  | .reverted => (s.modSlot i fun r => { r with backoffTimer := .stopped }).postSlot .checkpoint i
  | _ => s

/-- A SET_SLOT_POLICY that is taken (R162). -/
def State.setPolicy (i : SlotId) (policy : Policy) (prio : Option (Fin 4)) (s : State) : State :=
  let was := s.slot i
  let s := s.modSlot i fun r => { r with policy := policy, override := prio }
  let s := if was.state = .queued ∧ was.override ≠ prio then s.replace i else s
  if was.policy = policy then s
  else
    match policy with
    | .auto => s.becomeAuto i
    | .supervised => s.becomeSupervised i

def setSlotPolicyBody (r : Request) : Body :=
  onSlot r fun _ i s =>
    match policySetting? r.params with
    | none => refuse .badParam s
    | some (policy, prio) => (s.setPolicy i policy prio, fun _ => ⟨.done, []⟩)

/-- SET_SLOT_POLICY (R162). -/
def execSetSlotPolicy (r : Request) (s : State) : Host.Outcome State Fault Refusal := request r (setSlotPolicyBody r) s

end Sys2Proof.Machine
end

