-- ==== Sys2Proof/Machine/Tick.lean ====
section
/-! DEFINITION. The multiframe tick (R98): the sampling and the counting every block does at it, and the tick of the
change window block and the event counter bank. -/

namespace Sys2Proof.Machine

/-! ## Sampling (R31, R61, R155, R172) -/

/-- The two-sample rule: the accepted level after a new sample, given the sample before it (R31). -/
def debounce (accepted previous sample : Bool) : Bool := if sample = previous then sample else accepted

/-- The four debounced lines of a slot after a new sample. -/
def Levels.debounced (accepted previous : Levels) (x : LineSample) : Levels :=
  { long := debounce accepted.long previous.long x.long
    short := debounce accepted.short previous.short x.short
    handleClosed := debounce accepted.handleClosed previous.handleClosed x.handleClosed
    pg := debounce accepted.pg previous.pg x.pg }

/-- The seating sampler's tick for one slot (R30, R31, R33). Outside the survey it leaves a sample report to be taken;
in the survey the report is the survey's (R44). -/
def SlotLines.sample (surveying : Bool) (x : LineSample) (l : SlotLines) : SlotLines :=
  { accepted := l.accepted.debounced l.previous x
    previous := { long := x.long, short := x.short, handleClosed := x.handleClosed, pg := x.pg }
    oc := x.oc
    handed := l.handed
    reportDue := !surveying
    reportOc := l.reportOc || x.oc
    surveyEnd := l.surveyEnd }

/-- A feed-good line's tick: the first sample after a reset sets the level directly (R61). -/
def FeedLine.sample (first x : Bool) (l : FeedLine) : FeedLine :=
  { accepted := if first then x else debounce l.accepted l.previous x, previous := x }

/-- A zone's feed-good sampling. The first sample after a reset sets the feed health with it, without a notice (R61). -/
def Zone.sampleFeeds (first a b : Bool) (z : Zone) : Zone :=
  let la := z.lineA.sample first a
  let lb := z.lineB.sample first b
  { z with
    lineA := la, lineB := lb
    healthA := if first then la.accepted else z.healthA
    healthB := if first then lb.accepted else z.healthB }

/-- A manager's strap sampling. The first sample after a reset sets the record with it, without a notice (R155). -/
def Manager.sampleStrap (first x : Bool) (m : Manager) : Manager :=
  let level := if first then x else debounce m.strap m.strapPrev x
  { m with
    strap := level, strapPrev := x
    bayStrap := if first then level else m.bayStrap
    state := if first then (if level then .silent else .absent) else m.state }

/-- A bus line's tick: the ticks it has been low in a row, up to the number that makes it stuck; a released line can be
stuck again (R172). DESIGN CHOICE (log entries 32 and 33): a line counts as released when a tick finds it high, and a reset
not made before that is lost. -/
def BusLine.sample (low : Bool) (l : BusLine) : BusLine :=
  if low then { l with lowTicks := min (l.lowTicks + 1) Config.stuckTicks } else { lowTicks := 0, reported := false }

/-! ## Counting (R12, R91, R157) -/

/-- A running slot timer counts a tick, up to its length. -/
def SlotTimer.tick : SlotTimer → SlotTimer
  | .running c l => .running (min (c + 1) l) l
  | .stopped => .stopped
  | .expired => .expired

/-- The four timers of a slot count a tick. -/
def Slot.tickTimers (r : Slot) : Slot :=
  { r with
    declareTimer := r.declareTimer.tick, drainTimer := r.drainTimer.tick
    dischargeTimer := r.dischargeTimer.tick, backoffTimer := r.backoffTimer.tick }

/-- A running supervision timer counts a tick, up to its period. -/
def SupervisionTimer.tick : SupervisionTimer → SupervisionTimer
  | .running c p => .running (min (c + 1) p) p
  | .stopped => .stopped

/-- A held precharge record counts a tick, up to its limit. -/
def Zone.tickPrecharge (z : Zone) : Zone :=
  match z.precharge with
  | some p => { z with precharge := some { p with count := min (p.count + 1) p.limit } }
  | none => z

/-- The number of zones whose wait reason is BUDGET (R87). -/
def State.budgetWaits (s : State) : Nat :=
  (if s.zone1.wait = .budget then 1 else 0) + (if s.zone2.wait = .budget then 1 else 0)

/-! ## The timing reference unit's tick (R98, R107) -/

/-- A source's track as time goes on. -/
def SourceTrack.advance (d : Nat) (t : SourceTrack) : SourceTrack :=
  { markerAge := t.markerAge.map (· + d), inWindow := t.inWindow.map (· + d) }

/-- Time goes on by `d` microseconds. -/
def Reference.advance (d : Nat) (r : Reference) : Reference :=
  { r with
    sourceX := r.sourceX.advance d, sourceY := r.sourceY.advance d
    genUs := r.genUs + d, tickUs := r.tickUs + d }

/-- A source's track at a tick: its first marker of the sync window counts from one frame before the tick (R100). -/
def SourceTrack.atTick (t : SourceTrack) : SourceTrack :=
  { t with inWindow := t.inWindow.filter fun a => decide (a ≤ Config.frameUs) }

/-- The generator issues its tick: time goes on to it, its count restarts, the tick's sync window stays open, a holdover
counts it (R98, R100, R105), and a LOCKED multiframe begins at it if the reference is LOCKED (R107). -/
def Reference.tick (r : Reference) : Reference :=
  let v := r.advance (Config.multiframeUs - r.genUs)
  { v with
    sourceX := v.sourceX.atTick, sourceY := v.sourceY.atTick
    genUs := v.genUs - Config.multiframeUs, tickUs := 0, closeDue := true
    holdover := if r.state = .holdover then min (r.holdover + 1) Config.holdoverTicks else r.holdover
    lockedSince := r.state = .locked }

/-- The tick as the change window block and the counter bank are handed it: the two flags of R107, and whether a
boundary action was already waiting (R135). -/
def State.handTick (s : State) : TickInHand :=
  { valid := s.ref.state = .locked
    lockedMf := s.ref.lockedSince && s.ref.state = .locked
    armed := match s.block.opened with
      | some w => w.actionWaits
      | none => false }

/-! ## The survey's tick (R178) -/

/-- The survey counts its four ticks, and the tick after SURVEY_DONE lets requests be taken (R180). Log entry 21: the
count holds at the second tick until the slots are classified. -/
def Survey.tick (v : Survey) : Survey :=
  if v.running then { v with ticks := min (v.ticks + 1) (if v.classified then 4 else 2) } else { v with closing := false }

/-! ## A zone entering DARK (R77) -/

/-- A zone enters DARK: every powered slot of it is isolated, with a FEED notice, and its head is examined once. -/
def State.enterDark (z : ZoneId) (s : State) : State :=
  let s := (slotsOf z).foldl (fun s i => if (s.slot i).state.isPowered then s.isolate i .zoneDark else s) s
  (s.postShelf .feed).examine z

/-- The first tick after the survey treats a zone that the survey's end found DARK with orphans as entering DARK, if it
is DARK still (R77). -/
def State.darkAfterSurvey (z : ZoneId) (s : State) : State :=
  if s.survey.running = false ∧ (s.zone z).darkAtSurveyEnd then
    let s := s.modZone z fun v => { v with darkAtSurveyEnd := false }
    if (s.zone z).protection = .dark then s.enterDark z else s
  else s

/-! ## The change window block and the counter bank (R132, R133, R139 to R141) -/

/-- The open window takes a tick: its age rises, and a LOCKED multiframe that it counts is observed (R133). -/
def OpenWindow.tick (lockedMf : Bool) (errors : Nat) (w : OpenWindow) : OpenWindow :=
  let observes := lockedMf && w.counting && decide (w.observed < w.window)
  { w with
    age := min (w.age + 1) Config.ageMax
    observed := if observes then w.observed + 1 else w.observed
    after := if observes && decide (w.threshold ≤ errors) then w.after + 1 else w.after }

/-- The change window block takes a tick: the multiframe's error count goes into the history of LOCKED multiframes and
starts again, the open window counts, and the tick lets a closed window be granted or a waiting action be applied (R130,
R132, R133, R135). -/
def WindowBlock.tick (h : TickInHand) (b : WindowBlock) : WindowBlock :=
  let entry : HistoryEntry := { errors := b.errors, disturbed := decide (b.threshold ≤ b.errors) }
  { b with
    history := if h.lockedMf then (entry :: b.history).take Config.historyLength else b.history
    errors := 0
    opened := b.opened.map (OpenWindow.tick h.lockedMf b.errors)
    hand := none
    grantDue := h.valid && b.opened.isNone && !b.list.isEmpty
    boundaryDue := h.valid && h.armed && b.opened.isSome }

/-- Whether a LOCKED multiframe with this error count is disturbed under the present threshold (R132). -/
def WindowBlock.disturbs (h : TickInHand) (b : WindowBlock) : Bool := h.lockedMf && decide (b.threshold ≤ b.errors)

/-- The threshold condition of a counter for an increment, which counts as at most 255 in the test (R139, R140). -/
def Counter.holds (n : Nat) (c : Counter) : Bool :=
  if c.invert then decide (min n 255 < c.threshold) else decide (c.threshold ≤ min n 255)

/-- What a counter adds at a tick (R140). -/
def Counter.addition (n : Nat) (c : Counter) : Nat :=
  match c.mode with
  | .plain => n
  | .threshold => if c.holds n then 1 else 0
  | .edge => if c.holds n && !c.condition then 1 else 0

/-- Whether a counter wraps at a tick (R141). -/
def Counter.wraps (n : Nat) (c : Counter) : Bool := decide (Config.counterMax < c.value + c.addition n)

/-- A counter of an unfrozen bank takes its increment (R140, R141). The value is a field of 24 bits. -/
def Counter.tick (n : Nat) (c : Counter) : Counter :=
  { c with
    value := (c.value + c.addition n) % (Config.counterMax + 1)
    condition := c.holds n
    overflow := c.overflow || c.wraps n }

/-- Whether any counter of the bank wraps at its tick. -/
def Bank.wraps (b : Bank) : Bool :=
  (List.finRange 4).any fun k => (b.counters[k.val]).wraps (b.total (b.counters[k.val]).kind)

/-- The bank's tick: unless it is frozen each counter takes its increment, and a wrap may freeze it; the totals start
again at 0 (R139 to R141). -/
def Bank.tick (b : Bank) : Bank :=
  if b.frozen then { b with totals := Vector.replicate 12 0 }
  else
    { b with
      counters := b.counters.map fun c => c.tick (b.total c.kind)
      totals := Vector.replicate 12 0
      frozen := b.freezeOn && b.wraps }

/-- The counter bank takes a tick; a wrap posts a MONITOR notice (R141). -/
def State.tickBank (s : State) : State :=
  let wrapped := !s.bank.frozen && s.bank.wraps
  let s := { s with bank := s.bank.tick }
  if wrapped then s.postShelf .monitor else s

/-- The change window block and the counter bank take the tick that is in hand. -/
def State.takeTick (s : State) : State :=
  match s.block.hand with
  | none => s
  | some h =>
    let errors := s.block.errors
    let disturbed := s.block.disturbs h
    let s := s.modBlock (WindowBlock.tick h)
    ((s.count .highwayErrors errors).count .disturbedMf (if disturbed then 1 else 0)).tickBank

/-! ## The tick as a whole (R98) -/

/-- A slot's part of the tick: its lines are sampled, its timers count, and a switching of the last boundary becomes
due for its comparison (R122). -/
def Slot.tick (surveying : Bool) (x : LineSample) (r : Slot) : Slot :=
  { r.tickTimers with
    lines := r.lines.sample surveying x
    lane := { r.lane with atBoundary := false } }

/-- A manager's part of the tick. -/
def Manager.tick (first x : Bool) (m : Manager) : Manager :=
  { m.sampleStrap first x with timer := m.timer.tick }

/-- A bus port's part of the tick. -/
def BusPort.tick (clockLow dataLow : Bool) (v : BusPort) : BusPort :=
  { v with clock := v.clock.sample clockLow, data := v.data.sample dataLow }

/-- The tick of the blocks that sample and count. -/
def State.sampleAndCount (x : TickInputs) (s : State) : State :=
  let surveying := s.survey.running
  let first := surveying && s.survey.ticks = 0
  { s with
    slots := Vector.ofFn fun i : SlotId => (s.slot i).tick surveying x.lines[i.val]
    zone1 := (s.zone1.sampleFeeds first x.feed1A x.feed1B).tickPrecharge
    zone2 := (s.zone2.sampleFeeds first x.feed2A x.feed2B).tickPrecharge
    ref := s.ref.tick
    laneDue := true
    managerA := s.managerA.tick first x.strapA
    managerB := s.managerB.tick first x.strapB
    portA := s.portA.tick x.clockLowA x.dataLowA
    portB := s.portB.tick x.clockLowB x.dataLowB
    survey := s.survey.tick
    restartLine := { s.restartLine with held := x.restartHeld } }

/-- The tick is issued. A tick that the change window block and the bank still had in hand is taken by them first; then
the new tick is handed to them with its flags, every other block takes it, and the zones found DARK at the end of the
survey are isolated. -/
def State.issueTick (x : TickInputs) (s : State) : State :=
  let s := s.takeTick
  let hand := s.handTick
  let s := s.count .budgetWaitMf s.budgetWaits
  let s := s.modBlock fun b => { b with hand := some hand, grantDue := false, boundaryDue := false }
  ((s.sampleAndCount x).darkAfterSurvey .one).darkAfterSurvey .two

/-- Whether a restart waits that the pins of this tick let take effect: they show the restart line released (R178). -/
def State.restartReleased (x : TickInputs) (s : State) : Bool := s.restartLine.asked && !x.restartHeld

/-- A tick is issued with the effect `f`, unless the restart line is found released where a restart waits: then the
restart takes effect (R178). DESIGN CHOICE (log entry 30): the release is found at a tick, and that tick is not issued. -/
def onTick (x : TickInputs) (f : State → State) (s : State) : Host.Outcome State Fault Refusal :=
  if s.restartReleased x then .next (s.senseRestart false).restart else event f s

/-- MULTIFRAME_TICK (R98), whole or in its two parts (log entry 4). -/
def execMultiframeTick (part : TickPart) (s : State) : Host.Outcome State Fault Refusal :=
  match part with
  | .whole x => onTick x (fun s => (s.issueTick x).takeTick) s
  | .issue x => onTick x (fun s => s.issueTick x) s
  | .windowAndBank => event (fun s => s.takeTick) s

end Sys2Proof.Machine
end

