-- ==== Sys2Proof/Machine/Reads.lean ====
section
/-! DEFINITION. The reads of the slot and shelf records (Tables 11-4 and 11-6): READ_SLOT and READ_SHELF. READ_ZONE
stands with the zones, READ_NOTICES with the notices, READ_MONITOR with the counter bank. -/

namespace Sys2Proof.Machine

/-! ## READ_SLOT (R37, R174) -/

/-- The flags byte: HELD, OVERSIZE, CLAMPED, retire pending. -/
def flagsByte (r : Slot) : Byte :=
  byte (flagBit r.heldMark 0 + flagBit r.oversize 1 + flagBit r.clamped 2 + flagBit r.retirePending 3)

/-- The switch fields: management power, power path, commanded lane mode. -/
def switchByte (r : Slot) : Byte :=
  byte (flagBit r.mgmtPower 0 + flagBit (r.powerPath ≠ .off) 1 + 4 * LaneMode.code r.lane.commanded)

/-- The timer states: declare, drain, discharge, retry backoff. -/
def timerByte (r : Slot) : Byte :=
  byte (r.declareTimer.code + 4 * r.drainTimer.code + 16 * r.dischargeTimer.code + 64 * r.backoffTimer.code)

/-- The line levels at the most recent tick (R37). -/
def lineByte (l : SlotLines) : Byte :=
  byte (flagBit l.accepted.long 0 + flagBit l.accepted.short 1 + flagBit l.accepted.handleClosed 2 +
    flagBit l.accepted.pg 3 + flagBit l.oc 4 + 32 * l.accepted.presence.code)

/-- The data of a READ_SLOT part 1 (Table 11-6). -/
def readSlotData (s : State) (i : SlotId) : List Byte :=
  let r := s.slot i
  [byte r.state.code, optByte (r.phase.map SlotPhase.code), byte r.policy.code, optByte (r.override.map (·.val)),
    optByte (r.steering.map ManagerId.code), flagsByte r] ++ bytes2 r.reservation ++ groupBytes (s.heldGroups i) ++
    groupBytes r.lane.transmit ++ groupBytes (r.lane.pending.getD 0) ++
    [byte r.attempts, optByte (r.cause.map FaultCause.code), optByte (r.origin.map DrainOrigin.code),
      byte r.target.code, optByte (r.firstCode.map HandleCode.code), optByte (r.latestCode.map HandleCode.code),
      byte (s.indicator i).code, switchByte r, timerByte r, lineByte r.lines, byte (LaneMode.code r.lane.sensedMode)] ++
    groupBytes r.lane.sensedDrive

/-- The data of a READ_SLOT part 2: the CLAMPED flag, and the declaration when one is held (Table 11-6). -/
def readDeclarationData (r : Slot) : List Byte :=
  byte (flagBit r.clamped 0) ::
    match r.decl with
    | some d => d.bytes
    | none => []

/-- A READ_SLOT of slot `i`. Part 1 read by a manager clears the first unreported handle code (R37). -/
def readSlotOf (clears : Bool) (i : SlotId) (params : List Byte) : Body := fun s =>
  if partNumber params = 1 then
    (if clears then s.modSlot i fun r => { r with firstCode := none } else s, fun _ => ⟨.done, readSlotData s i⟩)
  else if partNumber params = 2 then answerWith (readDeclarationData (s.slot i)) s
  else refuse .badParam s

/-- READ_SLOT is made by a manager for any slot, and by a blade for its own; it is served during the survey (R170, R173,
R178). -/
def readSlotBody (r : Request) : Body := fun s =>
  match sender? r.tag with
  | some (.manager _) =>
    match slotNumber? r.slot with
    | some i => readSlotOf true i r.params s
    | none => refuse .badParam s
  | some (.blade i) =>
    if slotNumber? r.slot = some i ∧ (s.slot i).mgmtPower then readSlotOf false i r.params s
    else refuse .notPresent s
  | none => refuse .unknownRequest s

/-- READ_SLOT (R37). -/
def execReadSlot (r : Request) (s : State) : Host.Outcome State Fault Refusal := request r (readSlotBody r) s

/-! ## READ_SHELF (R106, R138, R109, R155) -/

/-- The presence byte of the sources. -/
def presenceByte (r : Reference) : Byte := byte (flagBit r.sourceX.isPresent 0 + flagBit r.sourceY.isPresent 1)

/-- A manager record in READ_SHELF part 1. -/
def managerData (m : Manager) : List Byte :=
  byte (m.state.code + flagBit m.bayStrap 2 + flagBit m.pendingPhase.isSome 3) ::
    (bytes2 (m.pendingPhase.getD 0) ++ bytes2 m.period ++
      match m.timer with
      | .running c _ => bytes2 c
      | .stopped => [0xFF, 0xFF])

/-- The data of a READ_SHELF part 1, read `delay` microseconds after the latest timed event: the presence of the sources
is judged at the read (R100, R106, Table 11-6). -/
def readShelfData (delay : Nat) (s : State) : List Byte :=
  [byte s.ref.state.code, byte (Source.code s.ref.preferred), optByte (s.ref.selected.map Source.code),
    optByte (s.ref.acquisition.map Source.code), byte s.ref.acqCount, byte s.ref.trial, byte s.ref.holdover,
    presenceByte (s.ref.advance delay)] ++ managerData s.managerA ++ managerData s.managerB ++ bytes2 s.timers.declare ++
    bytes2 s.timers.drain ++ [byte s.timers.discharge, byte s.zone1.protection.code, byte s.zone2.protection.code]

/-- The data of a READ_SHELF part 2: the owner of each group (Table 11-6). -/
def readMapData (s : State) : List Byte := s.map.toList.map fun o => optByte (o.map fun i => i.val + 1)

/-- One place of the sixteen change-list entries: the slot in bits 0 to 4 and the kind in bits 5 and 6, 0 when unused.
-/
def changeByte (e : Option ChangeEntry) : Byte :=
  match e with
  | some e => byte (e.slot.val + 1 + 32 * e.kind.code)
  | none => 0

/-- The window record in READ_SHELF part 3, less the last verdict: the holder 0xFF and the rest 0 while it is closed. -/
def windowData (w : Option OpenWindow) : List Byte :=
  match w with
  | some w =>
    [byte (w.holder.val + 1), byte w.kind.code, byte w.phase.code, byte (flagBit w.undoPending 0)] ++ bytes2 w.age ++
      [byte w.window, byte w.threshold, byte w.tolerance, byte w.before, byte w.after, byte w.observed]
  | none => 0xFF :: List.replicate 11 0

/-- The e of the latest history entry. Log entry 15: a free value while the history has none. -/
def latestErrors (s : State) : Byte :=
  match s.block.history with
  | h :: _ => byte h.errors
  | [] => Config.freeByte s.freeReads

/-- The data of a READ_SHELF part 3 (R138, Table 11-6). -/
def readWindowData (s : State) : List Byte :=
  [byte s.block.window, byte s.block.threshold, byte s.block.tolerance] ++ windowData s.block.opened ++
    [optByte (s.block.lastVerdict.map Verdict.code), byte s.block.list.length] ++
    ((List.range 16).map fun k => changeByte s.block.list[k]?) ++
    [byte s.block.history.length, latestErrors s, byte (s.block.disturbedMarks s.block.window)]

/-- A free value is drawn when the history has no entry to report. -/
def State.drawFree (s : State) : State :=
  if s.block.history = [] then { s with freeReads := s.freeReads + 1 } else s

def readShelfBody (r : Request) : Body :=
  readShelfOf r fun _ s =>
    if partNumber r.params = 1 then answerWith (readShelfData r.delay s) s
    else if partNumber r.params = 2 then answerWith (readMapData s) s
    else if partNumber r.params = 3 then (s.drawFree, fun _ => ⟨.done, readWindowData s⟩)
    else refuse .badParam s

/-- READ_SHELF (R106). -/
def execReadShelf (r : Request) (s : State) : Host.Outcome State Fault Refusal :=
  request r (readShelfBody r) s

end Sys2Proof.Machine
end

