-- ==== Sys2Proof/Machine/Retirement.lean ====
section
/-! DEFINITION. Retirement by request, and UNBAR (chapter 9 and R26): RETIRE, FORCE_RETIRE, RETIRE_SELF and UNBAR. -/

namespace Sys2Proof.Machine

/-! ## RETIRE (R144) -/

/-- A request that finds nothing left to do is answered DONE, and its sender is given the steering. DESIGN CHOICE (log
entry 31): R149 has a RETIRE in LEAVE_OBSERVE answered "with no effect", which is read as the retirement's, since R144 has
it taken and Table 10-3 has a RETIRE that is taken give the steering. -/
def underWay (m : ManagerId) (i : SlotId) : Body := fun s => (s.giveSteering i m, slotReply .done i)

/-- A RETIRE while the slot holds the change window: retire pending is set with origin MANAGER, or found set (R6). -/
def retireLater (i : SlotId) : Body := fun s =>
  (s.setRetirePending i .manager, slotReply (if (s.slot i).retirePending then .done else .accepted) i)

/-- A RETIRE in LIVE. One that only sets retire pending leaves steering none (Table 10-3). -/
def retireLive (m : ManagerId) (i : SlotId) : Body := fun s =>
  if (s.slot i).undoWait then refuse .wrongState s
  else if s.holdsWindow i then retireLater i s
  else ((s.giveSteering i m).startDrain i (some .manager), slotReply .accepted i)

/-- A RETIRE in JOIN_OBSERVE. -/
def retireJoining (m : ManagerId) (i : SlotId) : Body := fun s =>
  if (s.slot i).undoWait then refuse .wrongState s else retireLater i (s.giveSteering i m)

/-- A RETIRE in ORPHANED: DRAINING where the survey found the slot JOINED, else POWERING_DOWN (R27). -/
def retireOrphan (m : ManagerId) (i : SlotId) : Body := fun s =>
  let t := s.giveSteering i m
  if (s.slot i).lane.commanded = .joined then (t.startDrain i (some .manager), slotReply .accepted i)
  else (t.moveTo i .poweringDown, slotReply .accepted i)

/-- A RETIRE by slot state (R144, Table 9-1). -/
def retireSlot (m : ManagerId) (i : SlotId) : Body := fun s =>
  match (s.slot i).state with
  | .present | .declared | .queued => ((s.giveSteering i m).moveTo i .released, slotReply .done i)
  | .precharge | .powered | .listen | .joinWait | .reverted =>
    ((s.giveSteering i m).moveTo i .poweringDown, slotReply .accepted i)
  | .joinObserve => retireJoining m i s
  | .live => retireLive m i s
  | .draining | .leaveWait | .leaveObserve => underWay m i s
  | .poweringDown => ((s.giveSteering i m).modSlot i fun r => { r with target := .released }, slotReply .done i)
  | .orphaned => retireOrphan m i s
  | .empty | .seating | .released | .barred => refuse .wrongState s

def retireBody (r : Request) : Body := onSlot r retireSlot

/-- RETIRE (R144). -/
def execRetire (r : Request) (s : State) : Host.Outcome State Fault Refusal := request r (retireBody r) s

/-! ## FORCE_RETIRE (R147) -/

/-- FORCE_RETIRE passes whatever the steering, and leaves the steering of the other manager unchanged (Table 10-3). -/
def forceRetireBody (r : Request) : Body :=
  fromActive r fun m s =>
    match slotNumber? r.slot with
    | none => refuse .badParam s
    | some i =>
      if (s.slot i).state = .draining then ((s.giveSteering i m).moveTo i .leaveWait, slotReply .accepted i)
      else refuse .wrongState s

/-- FORCE_RETIRE (R147). -/
def execForceRetire (r : Request) (s : State) : Host.Outcome State Fault Refusal := request r (forceRetireBody r) s

/-! ## RETIRE_SELF (R143) -/

/-- A RETIRE_SELF while the slot holds the change window, or has its change undone (R124). -/
def retireSelfLater (i : SlotId) : Body := fun s =>
  if (s.slot i).undoWait then refuse .wrongState s
  else (s.setRetirePending i .blade, slotReply (if (s.slot i).retirePending then .done else .accepted) i)

/-- A RETIRE_SELF by slot state (R143). -/
def retireSelfSlot (i : SlotId) : Body := fun s =>
  match (s.slot i).state with
  | .live =>
    if (s.slot i).undoWait ∨ s.holdsWindow i then retireSelfLater i s
    else (s.startDrain i (some .blade), slotReply .accepted i)
  | .joinObserve => retireSelfLater i s
  | .draining | .leaveWait | .leaveObserve | .poweringDown => (s, slotReply .done i)
  | .empty | .seating | .present | .declared | .queued | .precharge | .powered | .listen | .joinWait | .reverted
  | .released | .barred | .orphaned => refuse .wrongState s

def retireSelfBody (r : Request) : Body := fromBlade r retireSelfSlot

/-- RETIRE_SELF (R143). -/
def execRetireSelf (r : Request) (s : State) : Host.Outcome State Fault Refusal := request r (retireSelfBody r) s

/-! ## UNBAR (R26) -/

/-- UNBAR discards the declaration and the attempt count, and takes the slot to PRESENT with its handle CLOSED, to
RELEASED with its handle OPEN (R26). -/
def State.unbar (i : SlotId) (s : State) : State :=
  let s := s.modSlot i fun r => { r with decl := none, oversize := false, clamped := false, attempts := 0 }
  if (s.slot i).handleClosed then s.moveTo i .present else s.moveTo i .released

def unbarBody (r : Request) : Body :=
  onSlot r fun _ i s =>
    if (s.slot i).state = .barred then (s.unbar i, slotReply .done i) else refuse .wrongState s

/-- UNBAR (R26). -/
def execUnbar (r : Request) (s : State) : Host.Outcome State Fault Refusal := request r (unbarBody r) s

end Sys2Proof.Machine
end

