-- ==== Sys2Proof/Machine/Settings.lean ====
section
/-! DEFINITION. The notice records and the shelf's settings: READ_NOTICES, SET_NOTICE_MASK (chapter 11), SET_TIMERS
(R43), SET_OBSERVATION (R131), and the requests of the counter bank (R142). -/

namespace Sys2Proof.Machine

/-! ## READ_NOTICES (R177) -/

/-- A set of pending slots, where its kind is unmasked. -/
def unmaskedSlots (masked : Bool) (ss : SlotSet) : SlotSet := if masked then 0 else ss

/-- The notices of unmasked kinds leave the pending sets; those of masked kinds stay (R177). -/
def Manager.collect (m : Manager) : Manager :=
  { m with
    slotNotices :=
      { state := if m.mask.getLsbD 0 then m.slotNotices.state else 0
        checkpoint := if m.mask.getLsbD 1 then m.slotNotices.checkpoint else 0
        handle := if m.mask.getLsbD 2 then m.slotNotices.handle else 0
        fault := if m.mask.getLsbD 3 then m.slotNotices.fault else 0
        declareOverdue := if m.mask.getLsbD 4 then m.slotNotices.declareOverdue else 0
        drainOverdue := if m.mask.getLsbD 5 then m.slotNotices.drainOverdue else 0 }
    shelfNotices := m.shelfNotices &&& m.mask.extractLsb' 6 6 }

/-- The shelf kinds returned, in the bit order of SET_NOTICE_MASK: FEED at bit 6 to SURVEY_DONE at bit 11 (log entry
23). -/
def returnedShelf (m : Manager) : BitVec 16 := (m.shelfNotices &&& ~~~m.mask.extractLsb' 6 6).setWidth 16 <<< 6

/-- The byte that tells which masked kinds still have pending notices: bit 0 slot kinds, bit 1 shelf kinds. -/
def maskedByte (m : Manager) : Byte :=
  byte (flagBit ((m.pendingKinds &&& m.mask).extractLsb' 0 6 ≠ 0) 0 +
    flagBit ((m.pendingKinds &&& m.mask).extractLsb' 6 6 ≠ 0) 1)

/-- The data of a READ_NOTICES reply (R177). -/
def readNoticesData (m : Manager) : List Byte :=
  slotBytes (returnedShelf m) ++ slotBytes (unmaskedSlots (m.mask.getLsbD 0) m.slotNotices.state) ++
    slotBytes (unmaskedSlots (m.mask.getLsbD 1) m.slotNotices.checkpoint) ++
    slotBytes (unmaskedSlots (m.mask.getLsbD 2) m.slotNotices.handle) ++
    slotBytes (unmaskedSlots (m.mask.getLsbD 3) m.slotNotices.fault) ++
    slotBytes (unmaskedSlots (m.mask.getLsbD 4) m.slotNotices.declareOverdue) ++
    slotBytes (unmaskedSlots (m.mask.getLsbD 5) m.slotNotices.drainOverdue) ++ [maskedByte m]

def readNoticesBody (r : Request) : Body :=
  readShelfOf r fun m s => (s.modManager m Manager.collect, fun _ => ⟨.done, readNoticesData (s.manager m)⟩)

/-- READ_NOTICES (R177). -/
def execReadNotices (r : Request) (s : State) : Host.Outcome State Fault Refusal := request r (readNoticesBody r) s

/-! ## SET_NOTICE_MASK (R176) -/

/-- The mask a SET_NOTICE_MASK names: two bytes with nothing above bit 11. -/
def noticeMask? (params : List Byte) : Option (BitVec 12) :=
  match params with
  | hi :: lo :: _ => if hi.toNat < 16 then some (BitVec.ofNat 12 (word2 hi lo)) else none
  | _ => none

def setNoticeMaskBody (r : Request) : Body :=
  fromManager false r fun m s =>
    if r.slot ≠ 0 then refuse .badParam s
    else
      match noticeMask? r.params with
      | none => refuse .badParam s
      | some mask => (s.modManager m fun v => { v with mask := mask }, fun _ => ⟨.done, bytes2 mask.toNat⟩)

/-- SET_NOTICE_MASK (R176), taken in any supervision state. -/
def execSetNoticeMask (r : Request) (s : State) : Host.Outcome State Fault Refusal := request r (setNoticeMaskBody r) s

/-! ## SET_TIMERS (R43, R146, R151) -/

/-- Three timer values, each in its range. -/
def timerSettings? (params : List Byte) : Option TimerSettings :=
  match params with
  | dHi :: dLo :: rHi :: rLo :: c :: _ =>
    if 250 ≤ word2 dHi dLo ∧ word2 dHi dLo ≤ 4000 ∧ 500 ≤ word2 rHi rLo ∧ word2 rHi rLo ≤ 60000 ∧ 8 ≤ c.toNat then
      some { declare := word2 dHi dLo, drain := word2 rHi rLo, discharge := c.toNat }
    else none
  | _ => none

def setTimersBody (r : Request) : Body :=
  onShelf r fun s =>
    match timerSettings? r.params with
    | none => refuse .badParam s
    | some t =>
      ({ s with timers := t }, fun _ => ⟨.done, bytes2 t.declare ++ bytes2 t.drain ++ [byte t.discharge]⟩)

/-- SET_TIMERS (R43). -/
def execSetTimers (r : Request) (s : State) : Host.Outcome State Fault Refusal := request r (setTimersBody r) s

/-! ## SET_OBSERVATION (R131) -/

/-- The observation settings W, T and D_max: W and T in range, D_max clamped to W. -/
def observation? (params : List Byte) : Option (Nat × Nat × Nat) :=
  match params with
  | w :: t :: d :: _ =>
    if 4 ≤ w.toNat ∧ w.toNat ≤ 64 ∧ 1 ≤ t.toNat then some (w.toNat, t.toNat, min d.toNat w.toNat) else none
  | _ => none

def setObservationBody (r : Request) : Body :=
  onShelf r fun s =>
    match observation? r.params with
    | none => refuse .badParam s
    | some (w, t, d) =>
      (s.modBlock fun b => { b with window := w, threshold := t, tolerance := d },
        fun _ => ⟨.done, [byte w, byte t, byte d]⟩)

/-- SET_OBSERVATION (R131). -/
def execSetObservation (r : Request) (s : State) : Host.Outcome State Fault Refusal :=
  request r (setObservationBody r) s

/-! ## SET_MONITOR, READ_MONITOR, CLEAR_MONITOR and UNFREEZE (R142) -/

/-- The bank is changed by `f`. -/
def State.modBank (f : Bank → Bank) (s : State) : State := { s with bank := f s.bank }

/-- The selection a SET_MONITOR names. -/
structure MonitorSetting where
  counter   : Fin 4
  kind      : EventKind
  mode      : CountMode
  threshold : Nat
  invert    : Bool
  freezeOn  : Bool
deriving DecidableEq, Repr

/-- A counter number of 1 to 4. -/
def counterNumber? (b : Byte) : Option (Fin 4) :=
  if h : 1 ≤ b.toNat ∧ b.toNat ≤ 4 then some ⟨b.toNat - 1, by omega⟩ else none

/-- The parameters of a SET_MONITOR, every one in its range. -/
def monitorSetting? (params : List Byte) : Option MonitorSetting :=
  match params with
  | c :: k :: m :: t :: iv :: fz :: _ =>
    match counterNumber? c, eventKind? k, countMode? m, flag? iv, flag? fz with
    | some counter, some kind, some mode, some invert, some freezeOn =>
      if t = 0 then none
      else
        some
          { counter := counter, kind := kind, mode := mode, threshold := t.toNat, invert := invert, freezeOn := freezeOn }
    | _, _, _, _, _ => none
  | _ => none

/-- A counter's selection is written: its stored condition becomes false, its value and flag are kept. -/
def Counter.select (v : MonitorSetting) (c : Counter) : Counter :=
  { c with kind := v.kind, mode := v.mode, threshold := v.threshold, invert := v.invert, condition := false }

/-- A SET_MONITOR that is taken. -/
def Bank.select (v : MonitorSetting) (b : Bank) : Bank :=
  { b with
    counters := b.counters.set v.counter.val ((b.counters[v.counter.val]).select v), freezeOn := v.freezeOn }

def setMonitorBody (r : Request) : Body :=
  onShelf r fun s =>
    match monitorSetting? r.params with
    | none => refuse .badParam s
    | some v => (s.modBank (Bank.select v), fun _ => ⟨.done, []⟩)

/-- SET_MONITOR (R142). -/
def execSetMonitor (r : Request) (s : State) : Host.Outcome State Fault Refusal := request r (setMonitorBody r) s

/-- A counter in a READ_MONITOR reply. -/
def counterData (c : Counter) : List Byte :=
  bytes3 c.value ++
    [byte (c.kind.code + 16 * c.mode.code + flagBit c.invert 6 + flagBit c.overflow 7), byte c.threshold]

/-- The data of a READ_MONITOR reply (Table 11-6). -/
def readMonitorData (b : Bank) : List Byte :=
  b.counters.toList.flatMap counterData ++ [byte (flagBit b.freezeOn 0 + flagBit b.frozen 1)]

def readMonitorBody (r : Request) : Body := readShelfOf r fun _ s => answerWith (readMonitorData s.bank) s

/-- READ_MONITOR (R142). -/
def execReadMonitor (r : Request) (s : State) : Host.Outcome State Fault Refusal := request r (readMonitorBody r) s

/-- A set of one to four counters: bits 0 to 3 for counters 1 to 4. -/
def counterSet? (params : List Byte) : Option (BitVec 4) :=
  match params with
  | b :: _ => if b = 0 ∨ 16 ≤ b.toNat then none else some (b.setWidth 4)
  | [] => none

/-- A counter is cleared: value, flag and stored condition. -/
def Counter.clear (c : Counter) : Counter := { c with value := 0, overflow := false, condition := false }

/-- A CLEAR_MONITOR that is taken. -/
def Bank.clear (set : BitVec 4) (b : Bank) : Bank :=
  { b with
    counters := Vector.ofFn fun k : Fin 4 =>
      if set.getLsbD k.val then (b.counters[k.val]).clear else b.counters[k.val] }

def clearMonitorBody (r : Request) : Body :=
  onShelf r fun s =>
    match counterSet? r.params with
    | none => refuse .badParam s
    | some set => (s.modBank (Bank.clear set), fun _ => ⟨.done, []⟩)

/-- CLEAR_MONITOR (R142). -/
def execClearMonitor (r : Request) (s : State) : Host.Outcome State Fault Refusal := request r (clearMonitorBody r) s

def unfreezeBody (r : Request) : Body :=
  onShelf r fun s => (s.modBank fun b => { b with frozen := false }, fun _ => ⟨.done, []⟩)

/-- UNFREEZE (R142). -/
def execUnfreeze (r : Request) (s : State) : Host.Outcome State Fault Refusal := request r (unfreezeBody r) s

end Sys2Proof.Machine
end

