-- ==== Sys2Proof/Machine/Slots.lean ====
section
/-! DEFINITION. What the slot lines and the slot timers do (chapters 1, 2, 5 and 9): SAMPLE_REPORT, GRANT,
PRECHARGE_COMPLETE, PRECHARGE_LIMIT_EXPIRY, and the expiries of the four slot timers. -/

namespace Sys2Proof.Machine

/-! ## The sample report (R35) -/

/-- A handle change to a level is entered in the slot's history with the state it finds, and a HANDLE notice posted
(R36). -/
def Slot.enterHandle (closed : Bool) (r : Slot) : Slot :=
  let code : HandleCode := { opened := !closed, state := r.state }
  { r with firstCode := some (r.firstCode.getD code), latestCode := some code }

/-- What the sample report that waits brings: one report, though the first after the survey brings two accepted changes
of a level where the end of the survey found one and its own tick another (R35, R44, R180). -/
def SlotLines.report (l : SlotLines) : LineReport :=
  { levels := l.accepted, surveyEnd := l.surveyEnd, oc := l.reportOc }

/-- The accepted handle changes of a report, from the level last handed on, each by its new level, in their order. -/
def LineReport.handleMoves (was : Bool) (p : LineReport) : List Bool :=
  let between := match p.surveyEnd with
    | some e => e.handleClosed
    | none => was
  (if between = was then [] else [between]) ++ (if p.levels.handleClosed = between then [] else [p.levels.handleClosed])

/-- Whether a report brings a loss of PG, from the level last handed on (R34). -/
def LineReport.losesPg (was : Bool) (p : LineReport) : Bool :=
  match p.surveyEnd with
  | some e => (was && !e.pg) || (e.pg && !p.levels.pg)
  | none => was && !p.levels.pg

/-- A report is taken: the levels it carries are handed on, and it no longer waits. -/
def SlotLines.take (p : LineReport) (l : SlotLines) : SlotLines :=
  { l with handed := p.levels, reportDue := false, reportOc := false, surveyEnd := none }

/-- A rise of presence, with the handle level of the same report (R38). -/
def State.presenceGained (i : SlotId) (s : State) : State :=
  let now := (s.slot i).lines.handed
  match (s.slot i).state with
  | .empty =>
    let s := s.moveTo i .seating
    if now.presence = .full ∧ now.handleClosed then s.moveTo i .present else s
  | .seating => if now.presence = .full ∧ now.handleClosed then s.moveTo i .present else s
  | _ => s

/-- A loss of presence: isolation of a powered slot, and SEATING or EMPTY from any other state (R28, R40). -/
def State.presenceLost (i : SlotId) (s : State) : State :=
  let now := (s.slot i).lines.handed.presence
  let st := (s.slot i).state
  if st.isPowered then s.isolate i (.presenceLost now)
  else
    match now with
    | .none => if st = .empty then s else s.moveTo i .empty
    | _ => if st = .empty ∨ st = .seating then s else s.moveTo i .seating

/-- Handle changes are entered in the slot's history, with no other effect (R35, R36). -/
def State.enterHandles (i : SlotId) (moves : List Bool) (s : State) : State :=
  moves.foldl (fun s closed => (s.modSlot i (Slot.enterHandle closed)).postSlot .handle i) s

/-- Handle changes that presence and OC leave to act: each is entered in the history and has its effect (R35, fourth
step). DEDUCED (log entry 24): where a report brings two, each acts in turn. -/
def State.actOnHandle (i : SlotId) (moves : List Bool) (s : State) : State :=
  moves.foldl (fun s closed =>
    let s := s.enterHandles i [closed]
    if closed then s.handleClosed i else s.handleOpened i) s

/-- The first four steps of R35: presence, overcurrent or the handle acts, and each handle change is entered in the
history. DEDUCED (log entry 24): in the first report after the survey, presence goes once, from the level of the
classification to that of the report (R32), and an OC sample of the survey's last ticks stands beside the report's own. -/
def State.reportLines (i : SlotId) (p : LineReport) (s : State) : State :=
  let r := s.slot i
  let was := r.lines.handed
  let moves := p.handleMoves was.handleClosed
  let s := s.modSlot i fun v => { v with lines := v.lines.take p }
  if was.presence.rank < p.levels.presence.rank then (s.enterHandles i moves).presenceGained i
  else if p.levels.presence.rank < was.presence.rank then (s.enterHandles i moves).presenceLost i
  else if p.oc ∧ r.state.isPowered then (s.enterHandles i moves).isolate i .overcurrent
  else s.actOnHandle i moves

/-- Whether the report completes the precharge of slot `i`: it holds its zone's channel in PRECHARGE, at sample 2 or
later, with an accepted PG (R92). -/
def State.completes (i : SlotId) (s : State) : Bool :=
  match (s.zone (zoneOf i)).precharge with
  | some p =>
    (s.slot i).state = .precharge && p.holder = i && decide (2 ≤ p.count) && (s.slot i).lines.handed.pg
  | none => false

/-- The precharge completes: POWERED on the full connection, the channel free, and what follows at CP-P. The zone's head
is examined at the end of the event (R92). -/
def State.completePrecharge (i : SlotId) (s : State) : State := (s.moveTo i .powered).atPowered i

/-- The fifth step of R35: PG completes a precharge (R92), and its loss in another powered state posts a FAULT notice
(R34). -/
def State.reportPg (i : SlotId) (lost : Bool) (s : State) : State :=
  let st := (s.slot i).state
  if s.completes i then s.completePrecharge i
  else if st.isPowered ∧ st ≠ .precharge ∧ lost then s.postSlot .fault i
  else s

/-- The slot sequencer takes a slot's sample report (R35). -/
def State.takeReport (i : SlotId) (s : State) : State :=
  let l := (s.slot i).lines
  (s.reportLines i l.report).reportPg i (l.report.losesPg l.handed.pg)

/-- SAMPLE_REPORT (R35), while the slot has a report to be taken. -/
def execSampleReport (i : SlotId) (s : State) : Host.Outcome State Fault Refusal :=
  if (s.slot i).lines.reportDue then event (fun s => s.takeReport i) s else .next s

/-- Whether the sample report that waits is the one that completes the slot's precharge. -/
def State.reportCompletes (i : SlotId) (s : State) : Bool :=
  (s.reportLines i (s.slot i).lines.report).completes i

/-- PRECHARGE_COMPLETE (R92): the sample report of a slot, where it is the one that completes the slot's precharge. -/
def execPrechargeComplete (i : SlotId) (s : State) : Host.Outcome State Fault Refusal :=
  if (s.slot i).lines.reportDue ∧ s.reportCompletes i then event (fun s => s.takeReport i) s else .next s

/-! ## The precharge channel (R89, R93) -/

/-- GRANT (R89): the head of a zone's queue is granted the precharge channel, where the three findings hold. -/
def execGrant (z : ZoneId) (s : State) : Host.Outcome State Fault Refusal :=
  match (s.zone z).queue, s.headWait z with
  | e :: _, .none => event (fun s => s.grantTo z e.slot) s
  | _, _ => .next s

/-- PRECHARGE_LIMIT_EXPIRY (R93): the precharge of a zone times out at sample N_pc. -/
def execPrechargeLimitExpiry (z : ZoneId) (s : State) : Host.Outcome State Fault Refusal :=
  match (s.zone z).precharge with
  | some p =>
    if p.limit ≤ p.count then event (fun s => (s.bar p.holder .prechargeTimeout).count .prechargeFault 1) s
    else .next s
  | none => .next s

/-! ## The slot timers (R12) -/

/-- Whether a timer's count has reached its length. -/
def SlotTimer.due : SlotTimer → Bool
  | .running c l => decide (l ≤ c)
  | .stopped => false
  | .expired => false

/-- DECLARE_TIMER_EXPIRY (R42): EXPIRED, with a DECLARE_OVERDUE notice. -/
def execDeclareTimerExpiry (i : SlotId) (s : State) : Host.Outcome State Fault Refusal :=
  if (s.slot i).declareTimer.due then
    event (fun s => (s.modSlot i fun r => { r with declareTimer := .expired }).postSlot .declareOverdue i) s
  else .next s

/-- DRAIN_TIMER_EXPIRY (R146): EXPIRED, with a DRAIN_OVERDUE notice; the slot stays DRAINING. -/
def execDrainTimerExpiry (i : SlotId) (s : State) : Host.Outcome State Fault Refusal :=
  if (s.slot i).drainTimer.due then
    event (fun s => (s.modSlot i fun r => { r with drainTimer := .expired }).postSlot .drainOverdue i) s
  else .next s

/-- The end of a discharge: the slot enters its discharge target, DECLARED with the HELD mark (R7, R151). -/
def State.endDischarge (i : SlotId) (s : State) : State :=
  match (s.slot i).target with
  | .released => s.moveTo i .released
  | .declared => s.toDeclared i true none

/-- DISCHARGE_TIMER_EXPIRY (R151). -/
def execDischargeTimerExpiry (i : SlotId) (s : State) : Host.Outcome State Fault Refusal :=
  if (s.slot i).dischargeTimer.due then event (fun s => s.endDischarge i) s else .next s

/-- The end of a retry backoff: JOIN_WAIT for a slot that holds groups; any other waits at CP-R (R23). -/
def State.endBackoff (i : SlotId) (s : State) : State :=
  if s.heldGroups i = 0 then s.modSlot i fun r => { r with backoffTimer := .stopped } else s.moveTo i .joinWait

/-- RETRY_BACKOFF_EXPIRY (R23). -/
def execRetryBackoffExpiry (i : SlotId) (s : State) : Host.Outcome State Fault Refusal :=
  if (s.slot i).backoffTimer.due then event (fun s => s.endBackoff i) s else .next s

end Sys2Proof.Machine
end

