-- ==== Sys2Proof/Machine/Zones.lean ====
section
/-! DEFINITION. The commands of the zone budget unit (chapter 4): FEED_HEALTH_CHANGE, SET_ZONE and READ_ZONE. -/

namespace Sys2Proof.Machine

/-! ## FEED_HEALTH_CHANGE (R61, R75 to R78) -/

/-- The feed health of a zone follows the accepted levels of its feed-good lines (R61). -/
def Zone.takeFeeds (z : Zone) : Zone := { z with healthA := z.lineA.accepted, healthB := z.lineB.accepted }

/-- Whether an accepted feed-good level differs from the feed health of its feed. DESIGN CHOICE (log entry 33): a change that no
FEED_HEALTH_CHANGE has taken waits as this difference alone, so that it is lost where its line is accepted back first, and is
one event with a change of the zone's other feed. -/
def Zone.feedChanged (z : Zone) : Bool := z.lineA.accepted ≠ z.healthA || z.lineB.accepted ≠ z.healthB

/-- A zone leaves DARK: its AUTO slots in DECLARED with cause ZONE_DARK go on to QUEUED in the order of their numbers
(R78). -/
def State.leaveDark (z : ZoneId) (s : State) : State :=
  (slotsOf z).foldl (fun s i => if (s.slot i).cause = some .zoneDark then s.autoAdvance i else s) s

/-- The effects of a feed change outside the survey: the FEED notice, what entering or leaving DARK does, and the
examination of the head (R61, R75 to R78). -/
def State.feedEffects (z : ZoneId) (was : Protection) (s : State) : State :=
  let now := (s.zone z).protection
  if now = .dark ∧ was ≠ .dark then s.enterDark z
  else if now ≠ .dark ∧ was = .dark then ((s.postShelf .feed).leaveDark z).examine z
  else (s.postShelf .feed).examine z

/-- A feed change of a zone is taken. During the survey only its notice is held back (R178). -/
def State.feedChange (z : ZoneId) (s : State) : State :=
  let was := (s.zone z).protection
  let s := s.modZone z Zone.takeFeeds
  if s.survey.running then { s with survey := { s.survey with heldFeed := true } } else s.feedEffects z was

/-- A feed change of a zone is taken where one waits, with that of the other feed (log entry 33). -/
def State.takeFeed (z : ZoneId) (s : State) : State := if (s.zone z).feedChanged then s.feedChange z else s

/-- FEED_HEALTH_CHANGE (R61), when an accepted level differs from the health. -/
def execFeedHealthChange (z : ZoneId) (s : State) : Host.Outcome State Fault Refusal :=
  if (s.zone z).feedChanged then event (fun s => s.takeFeed z) s else .next s

/-! ## SET_ZONE (R72, R73) -/

/-- The values of a SET_ZONE after clamping (R72). -/
structure ZoneSetting where
  zone    : ZoneId
  capA    : Nat
  capB    : Nat
  margin  : Nat
  current : Nat
  exposed : Bool
deriving DecidableEq, Repr

/-- The parameters of a SET_ZONE: too few, a zone number other than 1 or 2, or a flag other than 0 or 1 give none; every
other value is clamped to its range (R72). -/
def zoneSetting? (params : List Byte) : Option ZoneSetting :=
  match params with
  | z :: aHi :: aLo :: bHi :: bLo :: m :: q :: f :: _ =>
    match zoneNumber? z, flag? f with
    | some zone, some exposed =>
      some
        { zone := zone, capA := min (word2 aHi aLo) 8000, capB := min (word2 bHi bLo) 8000, margin := min m.toNat 64,
          current := max 2 (min q.toNat 16), exposed := exposed }
    | _, _ => none
  | _ => none

/-- The six values are written. -/
def Zone.configure (v : ZoneSetting) (z : Zone) : Zone :=
  { z with capA := v.capA, capB := v.capB, margin := v.margin, current := v.current, exposedFlag := v.exposed }

/-- The OVERSIZE test at a SET_ZONE: every DECLARED or QUEUED slot of the zone is tested, and an AUTO slot in DECLARED
whose flag clears goes on (R53, R73). -/
def State.retest (i : SlotId) (s : State) : State :=
  let r := s.slot i
  if r.state = .declared ∨ r.state = .queued then
    let s := s.oversizeTest i
    if r.oversize ∧ (s.slot i).oversize = false then s.autoAdvance i else s
  else s

/-- A SET_ZONE that is taken (R73). -/
def State.setZone (v : ZoneSetting) (s : State) : State :=
  let s := s.modZone v.zone (Zone.configure v)
  let s := (slotsOf v.zone).foldl (fun s i => s.retest i) s
  s.examine v.zone

/-- A zone number as a byte. -/
def zoneByte : ZoneId → Byte
  | .one => 1
  | .two => 2

/-- The data of a SET_ZONE reply (Table 11-6). -/
def setZoneData (z : ZoneId) (v : Zone) : List Byte :=
  [zoneByte z] ++ bytes2 v.capA ++ bytes2 v.capB ++ [byte v.margin, byte v.current, byte (flagBit v.exposedFlag 0)] ++
    [byte v.protection.code] ++ bytes2 v.ceff ++ bytes2 v.reserved ++ bytes2 v.inrush ++ bytes2 v.headroom ++
    bytes2 v.deficit

def setZoneBody (r : Request) : Body :=
  onShelf r fun s =>
    match zoneSetting? r.params with
    | none => refuse .badParam s
    | some v => (s.setZone v, fun t => ⟨.done, setZoneData v.zone (t.zone v.zone)⟩)

/-- SET_ZONE (R72). -/
def execSetZone (r : Request) (s : State) : Host.Outcome State Fault Refusal := request r (setZoneBody r) s

/-! ## READ_ZONE (R79, R97) -/

/-- The number of a slot as a byte. -/
def slotNumber (i : SlotId) : Nat := i.val + 1

/-- The precharge record of a READ_ZONE reply: the holder 0xFF and the other fields 0 when it is free. -/
def prechargeData (p : Option Precharge) : List Byte :=
  match p with
  | some p => [byte (slotNumber p.holder), byte p.current] ++ bytes2 p.inrush ++ bytes2 p.bulk ++ [byte p.limit, byte p.count]
  | none => [0xFF, 0, 0, 0, 0, 0, 0, 0]

/-- One place of the eight queue entries: the slot in bits 0 to 4 and the effective priority in bits 5 and 6, 0 when
unused. -/
def queueByte (e : Option QueueEntry) : Byte :=
  match e with
  | some e => byte (slotNumber e.slot + 32 * e.priority.val)
  | none => 0

/-- The data of a READ_ZONE reply (Table 11-6). -/
def readZoneData (v : Zone) : List Byte :=
  bytes2 v.capA ++ bytes2 v.capB ++ [byte v.margin, byte v.current] ++
    [byte (flagBit v.exposedFlag 0 + flagBit (!v.healthA) 1 + flagBit (!v.healthB) 2 + 16 * v.protection.code)] ++
    bytes2 v.ceff ++ bytes2 v.reserved ++ bytes2 v.inrush ++ bytes2 v.headroom ++ bytes2 v.deficit ++
    prechargeData v.precharge ++ [byte v.queue.length] ++ (List.range 8).map (fun k => queueByte v.queue[k]?) ++
    [byte v.wait.code]

def readZoneBody (r : Request) : Body :=
  readShelfOf r fun _ s =>
    match r.params.head?.bind zoneNumber? with
    | none => refuse .badParam s
    | some z => answerWith (readZoneData (s.zone z)) s

/-- READ_ZONE (R79). -/
def execReadZone (r : Request) (s : State) : Host.Outcome State Fault Refusal := request r (readZoneBody r) s

end Sys2Proof.Machine
end

