-- ==== Sys2Proof/Machine/Survey.lean ====
section
/-! DEFINITION. Power-up, controller restart and the shelf survey (chapter 12): POWER_UP, CONTROLLER_RESTART,
SURVEY_CLASSIFICATION and SURVEY_DONE. -/

namespace Sys2Proof.Machine

/-! ## Reset -/

/-- POWER_UP (R178). -/
def execPowerUp (s : State) : Host.Outcome State Fault Refusal := .next s.powerUp

/-- CONTROLLER_RESTART (R178). One that is requested while the restart line is still held waits for its release. -/
def execControllerRestart (s : State) : Host.Outcome State Fault Refusal :=
  if s.restartLine.held then .next s.askRestart else .next s.restart

/-! ## Classification (R179, R180) -/

/-- The lane finding of a slot: the mode and the drive set, from the lane sense of the second tick (section 12.2). -/
def LaneRecord.finding (l : LaneRecord) : LaneMode × GroupSet :=
  match l.sensedMode with
  | .openMode | .biased => (.openMode, 0)
  | .listen => (.listen, 0)
  | .joined => if l.sensedDrive = 0 then (.listen, 0) else (.joined, l.sensedDrive)

/-- The state that the presence and the handle of an unpowered slot give: the first three rows of Table 12-1. -/
def Levels.surveyState (l : Levels) : SlotState :=
  if l.presence = .none then .empty
  else if l.presence = .full ∧ l.handleClosed then .present
  else .seating

/-- The classification of a slot: the first row of Table 12-1 that applies. At the second tick the accepted PG level is
present exactly when both samples showed it present (R31), and `reportOc` gathers the OC samples of both ticks. -/
def Slot.classification (r : Slot) : SlotState :=
  if r.latch.power = .off ∨ r.lines.accepted.presence ≠ .full then r.lines.accepted.surveyState
  else if r.lines.reportOc then .barred
  else if r.lines.accepted.pg then .orphaned
  else r.lines.accepted.surveyState

/-- Whether the survey cuts the slot's power: the fourth, fifth and sixth rows of Table 12-1. -/
def Slot.surveyCuts (r : Slot) : Bool := r.latch.power ≠ .off && r.classification ≠ .orphaned

/-- The `n` lowest-numbered groups of a set. -/
def lowestGroups (n : Nat) (gs : GroupSet) : GroupSet :=
  BitVec.ofFnLE fun g : GroupId =>
    gs.mem g && decide ((List.finRange 32).countP (fun h => decide (h < g) && gs.mem h) < n)

/-- The groups of a set that no slot owns. -/
def State.freeOf (s : State) (gs : GroupSet) : GroupSet :=
  BitVec.ofFnLE fun g : GroupId => gs.mem g && decide (s.map[g.val] = none)

/-- The drive set an ORPHANED slot keeps: of its sensed groups the 8 lowest-numbered, less those that a lower-numbered
slot has been given (R180). Empty unless the slot is found JOINED. -/
def State.orphanDrive (s : State) (i : SlotId) : GroupSet :=
  if (s.slot i).classification = .orphaned then s.freeOf (lowestGroups 8 (s.slot i).lane.finding.2) else 0

/-- The mode an ORPHANED slot is commanded to: the lane finding, or LISTEN when conflicts left it no group (R180); OPEN
for every other classification. -/
def State.surveyMode (s : State) (i : SlotId) : LaneMode :=
  let finding := (s.slot i).lane.finding.1
  if (s.slot i).classification ≠ .orphaned then .openMode
  else if finding = .joined ∧ s.orphanDrive i = 0 then .listen
  else finding

/-- Whether a slot is marked for a FAULT notice: its power was cut, it lost groups, or it is no orphan and its lane
sense showed groups driven (R179, R180). -/
def State.surveyMarks (s : State) (i : SlotId) : Bool :=
  let r := s.slot i
  if r.classification = .orphaned then s.orphanDrive i ≠ r.lane.finding.2
  else r.surveyCuts || r.lane.sensedDrive ≠ 0

/-- The record of a slot as the survey classifies it, less its reservation (R179): it enters the state of its
classification with no declaration, no attempts and no steering, its declare timer waiting for the end of the survey.
The levels it was classified on are kept as handed, for the comparison at the end of the survey (R180). -/
def Slot.classify (t : TimerSettings) (mode : LaneMode) (drive : GroupSet) (r : Slot) : Slot :=
  let st := r.classification
  { r.enter st t with
    declareTimer := .stopped, decl := none, attempts := 0, steering := none
    cause := if st = .barred then some .overcurrent else none
    lines := { r.lines with handed := r.lines.accepted, reportOc := false }
    lane := { r.lane with
      commanded := mode, transmit := drive, pending := none, restore := none, comparison := none, atBoundary := false }
    latch := { power := st.powerPath, mgmt := st.mgmtPower, laneMode := mode, drive := drive } }

/-- The reservation the survey gives a slot: 1000 to an ORPHANED one (R63), none to any other. -/
def SlotState.surveyReservation (st : SlotState) : Nat := if st = .orphaned then Config.surveyReservation else 0

/-- A slot is marked for a FAULT notice at the end of the survey. -/
def State.markFault (i : SlotId) (marked : Bool) (s : State) : State :=
  { s with survey := { s.survey with faults := if marked then s.survey.faults ||| slotBit i else s.survey.faults } }

/-- The survey classifies slot `i`, with the map rebuilt from the slots before it. No block holds anything for the slot
since the reset; as at every change of state, what one might hold is given up first. -/
def State.classifySlot (i : SlotId) (s : State) : State :=
  let st := (s.slot i).classification
  let drive := s.orphanDrive i
  let v := ((s.vacate i st).groupsFor i st).modSlot i (Slot.classify s.timers (s.surveyMode i) drive)
  let u := (v.claimSet i drive).markFault i (s.surveyMarks i)
  (u.setReservation i st.surveyReservation).count .overcurrent (if st = .barred then 1 else 0)

/-- The slots have been classified. -/
def State.markClassified (s : State) : State := { s with survey := { s.survey with classified := true } }

/-- The survey classifies the slots in the order of their numbers. -/
def State.classifyAll (s : State) : State := (allSlots.foldl (fun s i => s.classifySlot i) s).markClassified

/-- SURVEY_CLASSIFICATION (R179), after the lane sense of the second survey tick. -/
def execSurveyClassification (s : State) : Host.Outcome State Fault Refusal :=
  if s.survey.running ∧ s.survey.ticks = 2 ∧ s.survey.classified = false ∧ s.laneDue = false then .next s.classifyAll
  else .next s

/-! ## The end of the survey (R180) -/

/-- The steps of a survey tick that have not been taken yet come first, since they fell at the tick: a feed change of a
zone (R61) and the reset of a stuck line (R172), whose notices then follow SURVEY_DONE in its event (R178). -/
def State.takeSurveyTick (s : State) : State :=
  ((((s.takeFeed .one).takeFeed .two)).takeStuck .a).takeStuck .b

/-- What a slot's lines hand on at the end of the survey, for its first report: the levels that differ from those the
slot was classified on, and with them an OC sample of the third or fourth tick, which `reportOc` keeps (R44, R180). -/
def SlotLines.endSurvey (l : SlotLines) : SlotLines :=
  if l.accepted ≠ l.handed then { l with surveyEnd := some l.accepted } else l

/-- A slot at the end of the survey: its line differences are handed on, and the declare timer of one classified PRESENT
starts at a count of 0. -/
def Slot.endSurvey (t : TimerSettings) (r : Slot) : Slot :=
  { r with
    lines := r.lines.endSurvey
    declareTimer := if r.state = .present then .running 0 t.declare else r.declareTimer }

/-- A manager is set to SILENT or ABSENT from its accepted strap level, with no MANAGER notice (R178). -/
def Manager.setFromStrap (m : Manager) : Manager :=
  { m with bayStrap := m.strap, state := if m.strap then .silent else .absent }

/-- A zone found DARK at the end of the survey with orphans is marked for its first tick (R77). -/
def State.markDark (z : ZoneId) (s : State) : State :=
  s.modZone z fun v =>
    { v with darkAtSurveyEnd :=
        v.protection = .dark && (slotsOf z).any fun i => (s.slot i).state = .orphaned }

/-- The notices of the end of the survey, in the order of R180: SURVEY_DONE, the FAULT notices, FEED and BUS. -/
def State.postSurvey (s : State) : State :=
  let faults := s.survey.faults
  let feed := s.survey.heldFeed || s.zone1.overcommitted || s.zone2.overcommitted
  let bus := s.survey.heldBus
  let s := s.postShelf .surveyDone
  let s := allSlots.foldl (fun s i => if faults.mem i then s.postSlot .fault i else s) s
  let s := if feed then s.postShelf .feed else s
  if bus then s.postShelf .bus else s

/-- The slots and managers as the end of the survey sets them. -/
def State.surveyEnd (s : State) : State :=
  { s.setSlots (s.slots.map (Slot.endSurvey s.timers)) with
    managerA := s.managerA.setFromStrap, managerB := s.managerB.setFromStrap }

/-- The survey runs no more, and holds no notice back; requests are taken from the next tick on (R180, fourth step). -/
def State.stopSurvey (s : State) : State :=
  { s with survey := { s.survey with running := false, closing := true, faults := 0, heldFeed := false, heldBus := false } }

/-- The end of the survey (R180). -/
def State.finishSurvey (s : State) : State :=
  ((s.takeSurveyTick.surveyEnd.postSurvey.markDark .one).markDark .two).stopSurvey

/-- SURVEY_DONE (R180), at the fourth survey tick. -/
def execSurveyDone (s : State) : Host.Outcome State Fault Refusal :=
  if s.survey.running ∧ s.survey.ticks = 4 ∧ s.survey.classified then .next s.finishSurvey else .next s

end Sys2Proof.Machine
end

