-- ==== Sys2Proof/Machine/Timing.lean ====
section
/-! DEFINITION. The timing reference unit between ticks (chapter 6): MARKER_ARRIVAL, SYNC_WINDOW_CLOSE and
HOLDOVER_LIMIT. -/

namespace Sys2Proof.Machine

/-! ## Changes of the reference state -/

/-- What the unit knows of one source is changed by `f`. -/
def Reference.modSource (src : Source) (f : SourceTrack → SourceTrack) (r : Reference) : Reference :=
  match src with
  | .x => { r with sourceX := f r.sourceX }
  | .y => { r with sourceY := f r.sourceY }

/-- The reference changes state: the multiframe in progress is no LOCKED multiframe (R107), and a REFERENCE notice is
posted (R106). -/
def State.setReference (f : Reference → Reference) (s : State) : State :=
  (s.modRef fun r => { f r with lockedSince := false }).postShelf .reference

/-- The reference goes to FREE: the disturbance history is emptied (R132). -/
def State.goFree (s : State) : State :=
  (s.setReference fun r =>
    { r with state := .free, selected := none, acquisition := none, acqCount := 0, trial := 0, holdover := 0 }).modBlock
    fun b => { b with history := [] }

/-! ## HOLDOVER_LIMIT (R105) -/

/-- Whether the holdover has reached its limit. -/
def Reference.limitReached (r : Reference) : Bool := r.state = .holdover && decide (Config.holdoverTicks ≤ r.holdover)

/-- HOLDOVER_LIMIT (R105): at the 250th tick in HOLDOVER the reference goes to FREE. -/
def execHoldoverLimit (s : State) : Host.Outcome State Fault Refusal :=
  if s.ref.limitReached then event (fun s => s.goFree) s else .next s

/-! ## MARKER_ARRIVAL (R100 to R103) -/

/-- A marker arrives on a source: it is the source's latest, and the first of an open sync window if that had none
(R100). Log entry 25: a second one in the window is the latest too. -/
def Reference.mark (src : Source) (r : Reference) : Reference :=
  let inside := r.inSyncWindow
  r.modSource src fun t =>
    { markerAge := some 0, inWindow := if inside ∧ t.inWindow = none then some 0 else t.inWindow }

/-- Whether a marker that follows the one before it by `age` is good (R102). -/
def goodSpacing (age : Option Nat) : Bool :=
  match age with
  | some a => decide (Config.goodSpacingMinUs ≤ a ∧ a ≤ Config.goodSpacingMaxUs)
  | none => false

/-- The reference goes to ACQUIRING on a source (R101). -/
def Reference.acquire (src : Source) (r : Reference) : Reference :=
  { r with state := .acquiring, acquisition := some src, acqCount := 0 }

/-- The reference locks on a source, and the tick generator is re-phased: its count restarts at the lock marker. Markers
before the lock lie in no window of a later tick (R103). -/
def Reference.lock (src : Source) (r : Reference) : Reference :=
  { r with
    state := .locked, selected := some src, acquisition := none, acqCount := 0, preferred := src, genUs := 0
    sourceX := if r.closeDue then r.sourceX else { r.sourceX with inWindow := none }
    sourceY := if r.closeDue then r.sourceY else { r.sourceY with inWindow := none } }

/-- What a marker does in ACQUIRING: a good one counts and the eighth locks the reference; a bad one starts the count
again (R102, R103). -/
def State.acquisitionMarker (src : Source) (age : Option Nat) (s : State) : State :=
  if goodSpacing age then
    if Config.lockCount ≤ s.ref.acqCount + 1 then s.setReference (Reference.lock src)
    else s.modRef fun r => { r with acqCount := r.acqCount + 1 }
  else s.modRef fun r => { r with acqCount := 0 }

/-- A marker arrives, `delay` microseconds after the latest timed event (R100 to R103). During the survey it is used for
presence only (R99). DEDUCED (log entry 25): a second marker in one sync window has no effect on the window's finding; it
still renews presence, and is judged against the marker before it in ACQUIRING. -/
def State.marker (src : Source) (delay : Nat) (s : State) : State :=
  let before := s.ref.advance delay
  let age := (before.source src).markerAge
  let s := s.modRef fun r => (r.advance delay).mark src
  if s.survey.running then s
  else
    match before.state with
    | .free =>
      if src = before.preferred ∨ (before.source before.preferred).isPresent = false then
        s.setReference (Reference.acquire src)
      else s
    | .acquiring => if before.acquisition = some src then s.acquisitionMarker src age else s
    | .locked => s
    | .holdover => s

/-- MARKER_ARRIVAL (R100). -/
def execMarkerArrival (src : Source) (delay : Nat) (s : State) : Host.Outcome State Fault Refusal :=
  event (fun s => s.marker src delay) s

/-! ## SYNC_WINDOW_CLOSE (R100, R102, R104, R105) -/

/-- The generator is trimmed: its count restarts at the first marker of a source in the window (R104). -/
def Reference.trim (first : Nat) (r : Reference) : Reference := { r with genUs := first }

/-- The window closes for both sources. -/
def Reference.closeWindow (r : Reference) : Reference :=
  { r with
    closeDue := false
    sourceX := { r.sourceX with inWindow := none }, sourceY := { r.sourceY with inWindow := none } }

/-- The reference goes to HOLDOVER at a MISSED finding of the selected source (R104). -/
def Reference.hold (r : Reference) : Reference := { r with state := .holdover, holdover := 0, trial := 0 }

/-- The hitless lock on the other source (R105). -/
def Reference.hitlessLock (src : Source) (first : Nat) (r : Reference) : Reference :=
  { (r.trim first) with state := .locked, selected := some src, preferred := src, trial := 0, holdover := 0 }

/-- The age of a source's first marker in the window that closes: some for GOOD, none for MISSED (R100). -/
def Reference.finding (r : Reference) (src : Option Source) : Option Nat :=
  match src with
  | some v => (r.source v).inWindow
  | none => none

/-- What the window close does in LOCKED (R104). -/
def State.closeLocked (finding : Option Nat) (s : State) : State :=
  match finding with
  | some first => s.modRef (Reference.trim first)
  | none => s.setReference Reference.hold

/-- What the window close does in HOLDOVER, with the finding of the other source (R105). -/
def State.closeHoldover (src : Source) (finding : Option Nat) (s : State) : State :=
  match finding with
  | some first =>
    if Config.lockCount ≤ s.ref.trial + 1 then s.setReference (Reference.hitlessLock src first)
    else s.modRef fun r => { r with trial := r.trial + 1 }
  | none => s.modRef fun r => { r with trial := 0 }

/-- What the window close does in ACQUIRING: an absent acquisition source ends the acquisition (R102). -/
def State.closeAcquiring (s : State) : State :=
  match s.ref.acquisition with
  | some src => if (s.ref.source src).isPresent then s else s.goFree
  | none => s

/-- The sync window of the latest tick closes, one frame after the tick. A holdover limit that is still to be taken
comes first, since it fell at the tick. -/
def State.syncClose (s : State) : State :=
  let s := if s.ref.limitReached then s.goFree else s
  let now := s.ref.advance (Config.frameUs - s.ref.tickUs)
  let s := s.modRef fun _ => now.closeWindow
  match now.state with
  | .free => s
  | .acquiring => s.closeAcquiring
  | .locked => s.closeLocked (now.finding now.selected)
  | .holdover =>
    match now.selected with
    | some lost => s.closeHoldover (Source.other lost) (now.finding (some (Source.other lost)))
    | none => s

/-- SYNC_WINDOW_CLOSE (R104), while the window of a tick is open. -/
def execSyncWindowClose (s : State) : Host.Outcome State Fault Refusal :=
  if s.ref.closeDue then event (fun s => s.syncClose) s else .next s

end Sys2Proof.Machine
end

