-- ==== Sys2Proof/Machine/Dispatch.lean ====
section
/-! DEFINITION. One arm for each command, each one call of its meaning. -/

namespace Sys2Proof.Machine

/-- What a command does to everything but the queue of waiting commands. -/
def exec (i : Instr) (s : State) : Host.Outcome State Fault Refusal :=
  match i with
  | .powerUp => Sys2Proof.Machine.execPowerUp s
  | .controllerRestart => Sys2Proof.Machine.execControllerRestart s
  | .surveyClassification => Sys2Proof.Machine.execSurveyClassification s
  | .surveyDone => Sys2Proof.Machine.execSurveyDone s
  | .multiframeTick part => Sys2Proof.Machine.execMultiframeTick part s
  | .sampleReport slot => Sys2Proof.Machine.execSampleReport slot s
  | .grant z => Sys2Proof.Machine.execGrant z s
  | .prechargeComplete slot => Sys2Proof.Machine.execPrechargeComplete slot s
  | .prechargeLimitExpiry z => Sys2Proof.Machine.execPrechargeLimitExpiry z s
  | .feedHealthChange z => Sys2Proof.Machine.execFeedHealthChange z s
  | .bayStrapChange m => Sys2Proof.Machine.execBayStrapChange m s
  | .supervisionTimerExpiry m => Sys2Proof.Machine.execSupervisionTimerExpiry m s
  | .declareTimerExpiry slot => Sys2Proof.Machine.execDeclareTimerExpiry slot s
  | .drainTimerExpiry slot => Sys2Proof.Machine.execDrainTimerExpiry slot s
  | .dischargeTimerExpiry slot => Sys2Proof.Machine.execDischargeTimerExpiry slot s
  | .retryBackoffExpiry slot => Sys2Proof.Machine.execRetryBackoffExpiry slot s
  | .holdoverLimit => Sys2Proof.Machine.execHoldoverLimit s
  | .markerArrival src delay => Sys2Proof.Machine.execMarkerArrival src delay s
  | .syncWindowClose => Sys2Proof.Machine.execSyncWindowClose s
  | .highwayError => Sys2Proof.Machine.execHighwayError s
  | .laneSenseSample senses => Sys2Proof.Machine.execLaneSenseSample senses s
  | .windowGrant => Sys2Proof.Machine.execWindowGrant s
  | .windowVerdict => Sys2Proof.Machine.execWindowVerdict s
  | .revert => Sys2Proof.Machine.execRevert s
  | .restore => Sys2Proof.Machine.execRestore s
  | .undo => Sys2Proof.Machine.execUndo s
  | .readSlot r => Sys2Proof.Machine.execReadSlot r s
  | .readZone r => Sys2Proof.Machine.execReadZone r s
  | .readShelf r => Sys2Proof.Machine.execReadShelf r s
  | .readNotices r => Sys2Proof.Machine.execReadNotices r s
  | .setNoticeMask r => Sys2Proof.Machine.execSetNoticeMask r s
  | .refresh r => Sys2Proof.Machine.execRefresh r s
  | .setZone r => Sys2Proof.Machine.execSetZone r s
  | .setSlotPolicy r => Sys2Proof.Machine.execSetSlotPolicy r s
  | .respContinue r => Sys2Proof.Machine.execRespContinue r s
  | .respHold r => Sys2Proof.Machine.execRespHold r s
  | .respReject r => Sys2Proof.Machine.execRespReject r s
  | .respRollback r => Sys2Proof.Machine.execRespRollback r s
  | .respJoin r => Sys2Proof.Machine.execRespJoin r s
  | .respRetry r => Sys2Proof.Machine.execRespRetry r s
  | .respRetire r => Sys2Proof.Machine.execRespRetire r s
  | .respQuiesced r => Sys2Proof.Machine.execRespQuiesced r s
  | .respCancel r => Sys2Proof.Machine.execRespCancel r s
  | .assignGroups r => Sys2Proof.Machine.execAssignGroups r s
  | .releaseGroups r => Sys2Proof.Machine.execReleaseGroups r s
  | .retire r => Sys2Proof.Machine.execRetire r s
  | .forceRetire r => Sys2Proof.Machine.execForceRetire r s
  | .adopt r => Sys2Proof.Machine.execAdopt r s
  | .unbar r => Sys2Proof.Machine.execUnbar r s
  | .setObservation r => Sys2Proof.Machine.execSetObservation r s
  | .setTimers r => Sys2Proof.Machine.execSetTimers r s
  | .setMonitor r => Sys2Proof.Machine.execSetMonitor r s
  | .readMonitor r => Sys2Proof.Machine.execReadMonitor r s
  | .clearMonitor r => Sys2Proof.Machine.execClearMonitor r s
  | .unfreeze r => Sys2Proof.Machine.execUnfreeze r s
  | .declare r => Sys2Proof.Machine.execDeclare r s
  | .retireSelf r => Sys2Proof.Machine.execRetireSelf r s
  | .badCheckFrame port addr bytes ending => Sys2Proof.Machine.execBadCheckFrame port addr bytes ending s
  | .unknownRequest code r => Sys2Proof.Machine.execUnknownRequest code r s
  | .busError port addr bytes ev => Sys2Proof.Machine.execBusError port addr bytes ev s
  | .emptyWrite port addr => Sys2Proof.Machine.execEmptyWrite port addr s
  | .replyRead port addr n => Sys2Proof.Machine.execReplyRead port addr n s
  | .replyDiscard port addr ev => Sys2Proof.Machine.execReplyDiscard port addr ev s
  | .stuckLineReset port => Sys2Proof.Machine.execStuckLineReset port s

end Sys2Proof.Machine
end

