-- ==== Sys2Proof/Safety.lean ====
section
/-! DEFINITION. What counts as a safe command, and the terms the statements speak in: notices that are pending, and what
an event keeps of the state. -/

namespace Sys2Proof.Machine

/-- The outcome is a next state. -/
def Completes (o : Host.Outcome State Fault Refusal) : Prop := ∃ t, o = .next t

/-- Command `i` is safe in state `s`: it stops neither with a fault nor with a refusal. -/
def Safe (i : Instr) (s : State) : Prop := Completes (exec i s)

/-! ## Notices -/

/-- The slots that have a notice of a slot kind pending. -/
def SlotNotices.of (n : SlotNotices) : SlotNotice → SlotSet
  | .state => n.state
  | .checkpoint => n.checkpoint
  | .handle => n.handle
  | .fault => n.fault
  | .declareOverdue => n.declareOverdue
  | .drainOverdue => n.drainOverdue

/-- A notice of kind `k` for slot `i` is pending for manager `m`. -/
def State.hasSlotNotice (s : State) (m : ManagerId) (k : SlotNotice) (i : SlotId) : Prop :=
  ((s.manager m).slotNotices.of k).mem i = true

/-- A notice of the shelf kind `k` is pending for manager `m`. -/
def State.hasShelfNotice (s : State) (m : ManagerId) (k : ShelfNotice) : Prop :=
  (s.manager m).shelfNotices.getLsbD k.index = true

/-- A slot notice is pending for both managers (R175). -/
def State.posted (s : State) (k : SlotNotice) (i : SlotId) : Prop := ∀ m, s.hasSlotNotice m k i

/-- A shelf notice is pending for both managers (R175). -/
def State.postedShelf (s : State) (k : ShelfNotice) : Prop := ∀ m, s.hasShelfNotice m k

/-! ## Ranges (Tables 3-1, 4-1 and R88) -/

/-- A declaration as the part records it: every field in its range (Table 3-1). -/
structure Declaration.Ranged (d : Declaration) : Prop where
  power     : 1 ≤ d.power ∧ d.power ≤ 800
  bulk      : 1 ≤ d.bulk ∧ d.bulk ≤ 400
  wanted    : d.wanted ≤ 8
  preferred : d.preferred.length ≤ d.wanted ∧ d.preferred.Nodup

/-- The configuration of a zone, in its ranges (R72). -/
structure Zone.Ranged (z : Zone) : Prop where
  capA    : z.capA ≤ 8000
  capB    : z.capB ≤ 8000
  margin  : z.margin ≤ 64
  current : 2 ≤ z.current ∧ z.current ≤ 16

/-- A held precharge record, in its ranges, with the values that follow from the copied ones (R88). -/
structure Precharge.Ranged (p : Precharge) : Prop where
  current : 2 ≤ p.current ∧ p.current ≤ 16
  bulk    : 1 ≤ p.bulk ∧ p.bulk ≤ 400
  inrush  : p.inrush = inrushFor p.current
  limit   : p.limit = prechargeLimit p.bulk p.current
  count   : p.count ≤ p.limit

/-! ## What an event on the slots keeps -/

/-- A manager's record without its pending notices. -/
def Manager.quiet (m : Manager) : Manager := { m with slotNotices := ⟨0, 0, 0, 0, 0, 0⟩, shelfNotices := 0 }

/-- The counter bank without its running totals. -/
def Bank.quiet (b : Bank) : Bank := { b with totals := Vector.replicate 12 0 }

/-- A zone without its reserved sum, its precharge record and its queue: its configuration and its feeds. -/
def Zone.quiet (z : Zone) : Zone := { z with reserved := 0, precharge := none, queue := [], wait := .none }

/-- The change window block without its list and its window: its settings, history, counts and verdict. -/
def WindowBlock.quiet (b : WindowBlock) : WindowBlock := { b with list := [], opened := none }

/-- Everything but the slots, the zones' accounts and queues, the map, the change list and window, the pending notices
and the running totals: the frame of every event of the slot sequencer. Notices already pending stay so. -/
structure Calm (s t : State) : Prop where
  pending   : t.pending = s.pending
  timers    : t.timers = s.timers
  zone1     : t.zone1.quiet = s.zone1.quiet
  zone2     : t.zone2.quiet = s.zone2.quiet
  ref       : t.ref = s.ref
  block     : t.block.quiet = s.block.quiet
  laneDue   : t.laneDue = s.laneDue
  bank      : t.bank.quiet = s.bank.quiet
  managerA  : t.managerA.quiet = s.managerA.quiet
  managerB  : t.managerB.quiet = s.managerB.quiet
  portA     : t.portA = s.portA
  portB     : t.portB = s.portB
  survey    : t.survey = s.survey
  straps    : t.straps = s.straps
  restart   : t.restartLine = s.restartLine
  freeReads : t.freeReads = s.freeReads
  notices   : ∀ m k i, s.hasSlotNotice m k i → t.hasSlotNotice m k i
  shelf     : ∀ m k, s.hasShelfNotice m k → t.hasShelfNotice m k

/-- Slot `j` stands in an admission queue. -/
def State.inQueue (s : State) (j : SlotId) : Bool := (s.zone1.queue ++ s.zone2.queue).any fun e => e.slot = j

/-- What the end of an event can do (R85, R86): slots that stand in a queue can go on to PRECHARGE, or back to DECLARED
when they are OVERSIZE; nothing else about the slots, the map, the window or the list changes. -/
structure EndOfEvent (s t : State) : Prop where
  slots    : ∀ j, s.inQueue j = false → t.slot j = s.slot j
  granted  : ∀ j, (s.slot j).oversize = false → t.slot j = s.slot j ∨ (t.slot j).state = .precharge
  swept    : ∀ j, t.slot j = s.slot j ∨ (t.slot j).state = .precharge ∨ (t.slot j).state = .declared
  oversize : ∀ j, (t.slot j).oversize = (s.slot j).oversize
  map      : t.map = s.map
  opened   : t.block.opened = s.block.opened
  queue    : ∀ z e, e ∈ (t.zone z).queue → e ∈ (s.zone z).queue
  listed   : ∀ x : ChangeEntry, s.inQueue x.slot = false → (x ∈ t.block.list ↔ x ∈ s.block.list)
  bank     : t.bank = s.bank
  notices  : ∀ m k j, s.inQueue j = false → t.hasSlotNotice m k j → s.hasSlotNotice m k j
  shelf    : ∀ m k, k ≠ .feed → t.hasShelfNotice m k → s.hasShelfNotice m k

/-- What is done to slot `i` before the end of its event leaves the other slots as they are: their records, their groups,
their places in the queues and in the change list, their notices, and the whole of the other zone. -/
structure Local (i : SlotId) (s t : State) : Prop where
  slots   : ∀ j, j ≠ i → t.slot j = s.slot j
  held    : ∀ j, j ≠ i → t.heldGroups j = s.heldGroups j
  zone    : ∀ z, z ≠ zoneOf i → t.zone z = s.zone z
  queue   : (t.zone (zoneOf i)).queue.filter (fun e => e.slot ≠ i) =
    (s.zone (zoneOf i)).queue.filter (fun e => e.slot ≠ i)
  listed  : ∀ x : ChangeEntry, x.slot ≠ i → (x ∈ t.block.list ↔ x ∈ s.block.list)
  notices : ∀ m k j, j ≠ i → t.hasSlotNotice m k j → s.hasSlotNotice m k j
  shelf   : ∀ m k, t.hasShelfNotice m k → s.hasShelfNotice m k

/-- The frame of an event on slot `i`, its end included: the rest of the part is kept, and so are the other slots, but for
those that stand in a queue, which the end of the event can take on. The other zone is kept wherever the queues are
sound. -/
structure SlotEvent (i : SlotId) (s t : State) : Prop where
  calm    : Calm s t
  slots   : ∀ j, j ≠ i → s.inQueue j = false → t.slot j = s.slot j
  queued  : ∀ j, j ≠ i → t.slot j = s.slot j ∨ (t.slot j).state = .precharge ∨ (t.slot j).state = .declared
  held    : ∀ j, j ≠ i → t.heldGroups j = s.heldGroups j
  zone    : (∀ z, ∀ e ∈ (s.zone z).queue, zoneOf e.slot = z) → ∀ z, z ≠ zoneOf i → t.zone z = s.zone z
  queue   : ∀ z e, e ∈ (t.zone z).queue → e ∈ (s.zone z).queue ∨ e.slot = i
  listed  : ∀ x : ChangeEntry, x.slot ≠ i → s.inQueue x.slot = false → (x ∈ t.block.list ↔ x ∈ s.block.list)
  notices : ∀ m k j, j ≠ i → s.inQueue j = false → t.hasSlotNotice m k j → s.hasSlotNotice m k j
  shelf   : ∀ m k, k ≠ .feed → t.hasShelfNotice m k → s.hasShelfNotice m k

/-- The frame of an event on slot `i` that neither touches the open window nor reports to the counter bank. -/
structure QuietEvent (i : SlotId) (s t : State) : Prop extends SlotEvent i s t where
  opened : t.block.opened = s.block.opened
  bank   : t.bank = s.bank

/-- What a slot's record `v` holds after it has gone to state `st` with the record `r`: the power path (R8), management
power (R9), the phase (R11), the timers (Table 1-4), the lanes (Table 1-3), the reservation (Table 4-3), the fault
cause, the drain origin, the attempts, the HELD mark, the discharge target and the declaration (R1 to R7), and the
steering (R16). The rest of the record is kept. -/
structure Entered (st : SlotState) (t : TimerSettings) (r v : Slot) : Prop where
  state          : v.state = st
  phase          : v.phase = st.firstPhase
  powerPath      : v.powerPath = st.powerPath ∧ v.latch.power = st.powerPath
  mgmtPower      : v.mgmtPower = st.mgmtPower ∧ v.latch.mgmt = st.mgmtPower
  declareTimer   : v.declareTimer = if st = .present then .running 0 t.declare else .stopped
  drainTimer     : v.drainTimer = if st = .draining then .running 0 t.drain else .stopped
  dischargeTimer : v.dischargeTimer = if st = .poweringDown then .running 0 t.discharge else .stopped
  backoffTimer   : v.backoffTimer =
    if st = .reverted ∧ r.policy = .auto then .running 0 (64 * r.attempts) else .stopped
  lanes          : ∀ m, st.laneMode = some m → v.lane.commanded = m ∧ v.lane.transmit = 0
  lanesKept      : st.laneMode = none → v.lane.commanded = r.lane.commanded ∧ v.lane.transmit = r.lane.transmit
  regroup        : v.lane.pending = none
  reservation    : v.reservation = if st.isPowered then r.reservation else 0
  cause          : v.cause = if st = .barred ∨ st = .declared then r.cause else none
  origin         : v.origin = if st = .live ∨ st = .poweringDown ∨ st = .released ∨ st = .barred ∨ st = .declared ∨
    st = .empty ∨ st = .seating then none else r.origin
  target         : v.target = if st = .poweringDown then .released else r.target
  attempts       : v.attempts = if st = .live ∨ st = .empty ∨ st = .seating ∨ (st = .draining ∧ r.state = .joinObserve)
    then 0 else r.attempts
  heldMark       : v.heldMark = if r.state = .declared then false else r.heldMark
  decl           : v.decl = if st = .empty ∨ st = .seating then none else r.decl
  oversize       : v.oversize = if st = .empty ∨ st = .seating then false else r.oversize
  clamped        : v.clamped = if st = .empty ∨ st = .seating then false else r.clamped
  steering       : v.steering = if st.unsteered then none else r.steering
  policy         : v.policy = r.policy ∧ v.override = r.override
  codes          : v.firstCode = r.firstCode ∧ v.latestCode = r.latestCode
  lines          : v.lines = r.lines

/-- How an AUTO slot `i` with declaration `d` comes out of CP-L (R20, R115): where it holds no group in `s` it is given the
groups of its preferred list that are free there, and otherwise it keeps its own; it goes on to JOIN_WAIT once it holds
one, and waits with a CHECKPOINT notice while it holds none. -/
structure AutoListens (i : SlotId) (d : Option Declaration) (s t : State) : Prop where
  groups : ∀ g : GroupId, t.map[g.val] = some i ↔
    s.map[g.val] = some i ∨ (s.heldGroups i = 0 ∧ s.map[g.val] = none ∧ ∃ x, d = some x ∧ g ∈ x.preferred)
  waits  : t.heldGroups i = 0 → (t.slot i).state = .listen ∧ t.posted .checkpoint i
  joins  : t.heldGroups i ≠ 0 → (t.slot i).state = .joinWait ∧ ⟨i, .join⟩ ∈ t.block.list

/-- The record of a slot whose lines have been taken from a report (R35): its levels are handed on, and each change of the
handle level is entered in the handle history with the state it was accepted in (R36). -/
def Slot.reportedBy (p : LineReport) (r : Slot) : Slot :=
  let code : Bool → HandleCode := fun closed => { opened := !closed, state := r.state }
  let moves := p.handleMoves r.lines.handed.handleClosed
  { r with
    lines := r.lines.take p
    firstCode := r.firstCode.or (moves.head?.map code)
    latestCode := (moves.getLast?.map code).or r.latestCode }

/-- The record of a slot whose sample report has been taken. -/
def Slot.reported (r : Slot) : Slot := r.reportedBy r.lines.report

/-- The record of a slot whose report has been taken with one handle change entered, where another follows it in the same
report (R35, R36, R180). -/
def Slot.turned (closed : Bool) (r : Slot) : Slot := { r with lines := r.lines.take r.lines.report }.enterHandle closed

/-- Whether the report that waits opens and closes the handle: both the level last handed on and the level it carries are
CLOSED, and the end of the survey found it OPEN between them (R44, R180). -/
def SlotLines.opensAndCloses (l : SlotLines) : Bool :=
  l.reportDue && decide (l.accepted.presence = l.handed.presence) && l.handed.handleClosed &&
    l.surveyEnd.any (fun e => !e.handleClosed) && l.accepted.handleClosed

/-- What a handle accepted OPEN makes of a slot's record `r` by its state (the first column of Table 9-1, R6, R7, R18 to R25,
R39), where the slot holds the change window or not. -/
def HandleOpens (holds : Bool) (t : TimerSettings) (r v : Slot) : Prop :=
  let waits : Slot := if r.retirePending then r else { r with retirePending := true, origin := some .handle }
  match r.state with
  | .present | .declared | .queued => Entered .released t r v
  | .precharge | .powered | .listen | .joinWait | .reverted => Entered .poweringDown t r v
  | .joinObserve => v = if r.undoWait then r else waits
  | .live =>
    if r.undoWait then v = r
    else if holds then v = waits
    else Entered .draining t { r with origin := some .handle } v ∧ v.retirePending = false
  | .poweringDown => v = { r with target := .released }
  | .empty | .seating | .draining | .leaveWait | .leaveObserve | .released | .barred | .orphaned => v = r

/-- What a handle accepted CLOSED makes of the record `r` of a slot of zone `z` by its state: SEATING with FULL presence goes to
PRESENT (R38), RELEASED to PRESENT or, with a declaration, through the OVERSIZE test to DECLARED and on to QUEUED in AUTO (R19,
R25, R53), a drain that the handle started back to LIVE (R148), and a retirement that it left pending is taken back (R6). -/
def HandleCloses (z : Zone) (t : TimerSettings) (r v : Slot) : Prop :=
  match r.state with
  | .seating => if r.lines.handed.presence = .full then Entered .present t r v else v = r
  | .released =>
    match r.decl with
    | none => Entered .present t r v
    | some d =>
      let tooBig := decide (min z.capA z.capB < reservationFor d.power z.margin + inrushFor z.current)
      ∃ y, Entered .declared t { r with heldMark := false, cause := none, oversize := tooBig } y ∧
        if r.policy = .auto ∧ tooBig = false then Entered .queued t y v else v = y
  | .draining => if r.origin = some .handle then Entered .live t r v else v = r
  | .joinObserve | .live =>
    v = if r.undoWait = false ∧ r.retirePending = true ∧ r.origin = some .handle then
      { r with retirePending := false, origin := none } else r
  | .empty | .present | .declared | .queued | .precharge | .powered | .listen | .joinWait | .reverted | .leaveWait
  | .leaveObserve | .poweringDown | .barred | .orphaned => v = r

/-- What the end of an event leaves of a slot's record `y`: the record as it is, or, of a QUEUED slot, that of a slot granted
its zone's channel (R85, R89). -/
def Rests (t : TimerSettings) (y v : Slot) : Prop :=
  v = y ∨ (y.state = .queued ∧ Entered .precharge t y { v with reservation := y.reservation })

/-- What emergency isolation leaves of slot `i` and of the window (R152, R153, R136). -/
structure Isolated (i : SlotId) (s t : State) : Prop where
  lanes       : (t.slot i).lane.commanded = .openMode ∧ (t.slot i).lane.transmit = 0 ∧
    (t.slot i).lane.pending = none ∧ (t.slot i).lane.restore = none
  groups      : t.heldGroups i = 0
  power       : (t.slot i).powerPath = .off ∧ (t.slot i).latch.power = .off
  reservation : (t.slot i).reservation = 0
  timers      : (t.slot i).drainTimer = .stopped ∧ (t.slot i).dischargeTimer = .stopped ∧
    (t.slot i).backoffTimer = .stopped
  retirement  : (t.slot i).retirePending = false
  channel     : ∀ p, (t.zone (zoneOf i)).precharge = some p → p.holder ≠ i
  queue       : ∀ e ∈ (t.zone (zoneOf i)).queue, e.slot ≠ i
  listed      : ∀ x ∈ t.block.list, x.slot ≠ i
  notices     : t.posted .fault i ∧ t.posted .state i
  holder      : s.holdsWindow i = true → t.block.opened = none
  closed      : s.block.opened = none → t.block.opened = none
  other       : ∀ w, s.block.opened = some w → w.holder ≠ i → t.block.opened = some
    (if (w.phase = .observeChange ∨ w.phase = .observeRevert) ∧ w.observed < w.window then
      { w with observed := 0, after := 0, before := s.block.disturbedMarks w.window } else w)

/-- An event of the timing reference unit: only the reference record, the disturbance history (R132) and a REFERENCE notice
can change. -/
structure ReferenceEvent (s t : State) : Prop where
  slots    : t.slots = s.slots
  zones    : ∀ z, t.zone z = s.zone z
  map      : t.map = s.map
  block    : t.block = { s.block with history := t.block.history }
  bank     : t.bank = s.bank
  timers   : t.timers = s.timers
  survey   : t.survey = s.survey
  ports    : ∀ p, t.port p = s.port p
  managers : ∀ m, (t.manager m).quiet = (s.manager m).quiet
  notices  : ∀ m k i, t.hasSlotNotice m k i ↔ s.hasSlotNotice m k i
  shelf    : ∀ m k, k ≠ .reference → (t.hasShelfNotice m k ↔ s.hasShelfNotice m k)

/-! ## Requests as they come in (chapters 10 and 11) -/

/-- The source tag of a manager (Table 11-1). -/
def managerTag : ManagerId → Byte
  | .a => 0x01
  | .b => 0x02

/-- A frame written to the part's address, with at most 24 parameter bytes (R167, Table 11-1). -/
structure Received (r : Request) (s : State) : Prop where
  addr   : r.addr = s.busAddress
  params : r.params.length ≤ 24

/-- A request of manager `m`, once requests are taken: from the tick after SURVEY_DONE on (R178, R180). -/
structure FromManager (r : Request) (m : ManagerId) (s : State) : Prop extends Received r s where
  tag    : r.tag = managerTag m
  survey : s.survey.running = false ∧ s.survey.closing = false

/-- A request of the ACTIVE manager `m`. -/
structure FromActive (r : Request) (m : ManagerId) (s : State) : Prop extends FromManager r m s where
  active : (s.manager m).state = .active

/-- A request of the ACTIVE manager `m` that names slot `i`. -/
structure Names (r : Request) (m : ManagerId) (i : SlotId) (s : State) : Prop extends FromActive r m s where
  slot : r.slot.toNat = i.val + 1

/-- A request of the ACTIVE manager `m` that names slot `i` and meets the steering test (R159). -/
structure ToSlot (r : Request) (m : ManagerId) (i : SlotId) (s : State) : Prop extends Names r m i s where
  steering : (s.slot i).steering = none ∨ (s.slot i).steering = some m

/-- A RESPOND of the ACTIVE manager `m` to slot `i` with the response code `c`, meeting the steering test (R163). -/
structure Responds (c : Byte) (r : Request) (m : ManagerId) (i : SlotId) (s : State) : Prop extends ToSlot r m i s where
  code : r.params.head? = some c

/-- A request of the ACTIVE manager `m` that names the shelf. -/
structure ToShelf (r : Request) (m : ManagerId) (s : State) : Prop extends FromActive r m s where
  slot : r.slot = 0

/-- A read of manager `m` that names the shelf: served in every supervision state and during the survey (R158, R178). -/
structure ReadsShelf (r : Request) (m : ManagerId) (s : State) : Prop extends Received r s where
  tag  : r.tag = managerTag m
  slot : r.slot = 0

/-- A request of the blade in slot `i`, once requests are taken, while its management power is on (R170, R46, R180). -/
structure FromBlade (r : Request) (i : SlotId) (s : State) : Prop extends Received r s where
  tag    : r.tag.toNat = 0x11 + i.val
  slot   : r.slot.toNat = i.val + 1
  survey : s.survey.running = false ∧ s.survey.closing = false
  power  : (s.slot i).mgmtPower = true

/-- The state once the port of request `r` has taken the reply `p` (R169, R171). -/
def State.replied (r : Request) (p : Reply) (s : State) : State := s.modPort r.port (BusPort.answer r.ending r.size p)

/-- The record of a slot with the steering that a request of manager `m` gives it (R159). -/
def Slot.steeredBy (m : ManagerId) (r : Slot) : Slot := { r with steering := some (r.steering.getD m) }

/-! ## What parameters say (Tables 11-2 and 11-4) -/

/-- The parameters of a DECLARE give the declaration `d`, field by field as Table 11-2 lays them out: each field that R48
refuses out of its range is in it, the bulk capacitance is limited to 1 to 400 (R49), and the preferred list keeps, in their
order, the first `n_g` of the distinct group numbers 1 to 32 that were sent (R50). `clamped` is set exactly when the capacitance
or the list differs from what was sent (R51). -/
structure Declares (params : List Byte) (d : Declaration) (clamped : Bool) : Prop where
  enough    : 16 ≤ params.length
  cls       : params[0]? = some (byte d.cls.code)
  power     : d.power = (params.getD 1 0).toNat * 256 + (params.getD 2 0).toNat ∧ 1 ≤ d.power ∧ d.power ≤ 800
  bulk      : d.bulk = max 1 (min ((params.getD 3 0).toNat * 256 + (params.getD 4 0).toNat) 400)
  wanted    : d.wanted = (params.getD 5 0).toNat ∧ d.wanted ≤ 8
  serial    : d.serial = (params.drop 6).take 8
  kindCode  : d.kindCode = (params.drop 14).take 2
  preferred : d.preferred.map (fun g => byte (g.val + 1)) =
    ((params.drop 16).filter fun b => decide (1 ≤ b.toNat ∧ b.toNat ≤ 32)).eraseDups.take d.wanted
  clamped   : clamped = true ↔ d.bulk ≠ (params.getD 3 0).toNat * 256 + (params.getD 4 0).toNat ∨
    d.preferred.map (fun g => byte (g.val + 1)) ≠ params.drop 16

/-- The parameters of an ASSIGN_GROUPS or RELEASE_GROUPS list the set `gs`: 1 to 8 bytes, each a group number 1 to 32 and none
repeated, and byte b names group b (R112, Table 11-4). -/
structure ListsGroups (params : List Byte) (gs : GroupSet) : Prop where
  length   : 1 ≤ params.length ∧ params.length ≤ 8
  distinct : params.Nodup
  numbers  : ∀ b ∈ params, 1 ≤ b.toNat ∧ b.toNat ≤ 32
  members  : ∀ g : GroupId, gs.mem g = true ↔ byte (g.val + 1) ∈ params

/-! ## What holds between commands -/

/-- A slot's record agrees with its state: the power path (R8), management power (R9), the phase (R11), and the timers,
each of which runs in one state (Table 1-4). -/
structure Slot.Sound (r : Slot) : Prop where
  powerPath      : r.powerPath = r.state.powerPath
  mgmtPower      : r.mgmtPower = r.state.mgmtPower
  phase          : r.phase.isSome = (r.state = .joinObserve || r.state = .leaveObserve)
  leaving        : r.phase = some .observeLeave ↔ r.state = .leaveObserve
  declareTimer   : r.declareTimer ≠ .stopped → r.state = .present
  drainTimer     : r.drainTimer ≠ .stopped → r.state = .draining
  dischargeTimer : r.dischargeTimer ≠ .stopped → r.state = .poweringDown
  backoffTimer   : r.backoffTimer ≠ .stopped → r.state = .reverted

/-- Every slot's record agrees with its state, and from the survey's classification on so do its power-path and
management-power switches (R8, R9). -/
structure State.SlotsSound (s : State) : Prop where
  records  : ∀ i, (s.slot i).Sound
  switches : s.survey.classified = true → ∀ i,
    (s.slot i).latch.power = (s.slot i).state.powerPath ∧ (s.slot i).latch.mgmt = (s.slot i).state.mgmtPower

/-- The sum of the reservations of a zone's slots. -/
def State.reservations (s : State) (z : ZoneId) : Nat := ((slotsOf z).map fun i => (s.slot i).reservation).sum

/-- The reserved sum of each zone is the sum of the reservations of its slots, and no slot without power has one
(R63, R65). -/
structure State.Booked (s : State) : Prop where
  sums      : ∀ z, (s.zone z).reserved = s.reservations z
  unpowered : ∀ i, (s.slot i).state.isPowered = false → (s.slot i).reservation = 0

/-- Every declaration, reservation, zone configuration and precharge record is in its ranges (R66, R72, R88,
Table 3-1). -/
structure State.Ranged (s : State) : Prop where
  decl        : ∀ i d, (s.slot i).decl = some d → d.Ranged
  reservation : ∀ i, (s.slot i).reservation ≤ 1000
  zone        : ∀ z, (s.zone z).Ranged
  precharge   : ∀ z p, (s.zone z).precharge = some p → p.Ranged

/-- A slot's steering manager is ACTIVE (R159), and no manager is while the survey runs (R155, R156). -/
structure State.Steered (s : State) : Prop where
  active : ∀ i m, (s.slot i).steering = some m → (s.manager m).state = .active
  survey : s.survey.running = true → ∀ m, (s.manager m).state ≠ .active

/-- A slot is in its zone's queue exactly when it is QUEUED, and then exactly once (R81); each entry holds the effective
priority of its slot, and each queue stands in the order of it (R82, R83). -/
structure State.QueueSound (s : State) : Prop where
  member   : ∀ z i, (∃ e ∈ (s.zone z).queue, e.slot = i) ↔ (s.slot i).state = .queued ∧ zoneOf i = z
  once     : ∀ z, ((s.zone z).queue.map (·.slot)).Nodup
  priority : ∀ z, ∀ e ∈ (s.zone z).queue, e.priority = (s.slot e.slot).effectivePriority
  order    : ∀ z, ((s.zone z).queue.map (·.priority)).Pairwise (· ≤ ·)

/-- The change list holds each slot at most once; the slots it holds for a join are those in JOIN_WAIT, for a leave those
in LEAVE_WAIT, and for a regroup those with a pending regroup, which are LIVE (R114, R127); LEAVE entries stand first
(R128). -/
structure State.ListSound (s : State) : Prop where
  once    : (s.block.list.map (·.slot)).Nodup
  join    : ∀ i, ⟨i, .join⟩ ∈ s.block.list ↔ (s.slot i).state = .joinWait
  leave   : ∀ i, ⟨i, .leave⟩ ∈ s.block.list ↔ (s.slot i).state = .leaveWait
  regroup : ∀ i, ⟨i, .regroup⟩ ∈ s.block.list ↔ (s.slot i).lane.pending.isSome = true
  live    : ∀ i, (s.slot i).lane.pending.isSome = true → (s.slot i).state = .live
  order   : s.block.list.Pairwise fun x y => y.kind = .leave → x.kind = .leave

/-- A slot in POWERING_DOWN, RELEASED, BARRED, PRESENT, SEATING or EMPTY holds no groups (R116). -/
def State.GroupsSound (s : State) : Prop := ∀ i, (s.slot i).state.groupless = true → s.heldGroups i = 0

/-- A zone's precharge channel is held by the slot of the zone that is in PRECHARGE, and is free while none is (R88). -/
structure State.ChannelSound (s : State) : Prop where
  holder : ∀ z p, (s.zone z).precharge = some p → zoneOf p.holder = z ∧ (s.slot p.holder).state = .precharge
  held   : ∀ i, (s.slot i).state = .precharge → ∃ p, (s.zone (zoneOf i)).precharge = some p ∧ p.holder = i

/-- The lanes of a slot stand in the mode that its state brings with it, with nothing to transmit (Table 1-3). -/
def State.LanesSound (s : State) : Prop :=
  ∀ i m, (s.slot i).state.laneMode = some m → (s.slot i).lane.commanded = m ∧ (s.slot i).lane.transmit = 0

/-- The attempt count is below 3, but for a slot that the third attempt has barred (R5). -/
def State.AttemptsSound (s : State) : Prop :=
  ∀ i, (s.slot i).attempts ≤ 3 ∧ ((s.slot i).attempts = 3 → (s.slot i).state = .barred)

end Sys2Proof.Machine
end

