-- ==== Sys2Proof/Certificates/Slice0/Obligations.lean ====
section
/-! DEFINITION. The statements about the SAC-16 that are put to the provers, one `def Obligations.<Name> : Prop` each.
`exec c s = .next t` says that command `c` completes in `s` with `t`; the frames (`Calm`, `SlotEvent`, `QuietEvent`) and
the shapes of requests (`ToSlot`, `FromBlade`, …) are those of Sys2Proof/Safety.lean. -/

open Sys2Proof Sys2Proof.Machine

/-! ## Steps and resets -/

/-- A step takes the command at the front of the queue and runs it with the rest left waiting. On an empty queue the
part idles: that is the model's choice (log entry 2). -/
def Obligations.StepTakesFrontCommand : Prop :=
  (∀ c s, step { s with pending := c :: s.pending } = exec c s) ∧ ∀ s : State, s.pending = [] → step s = .next s

/-- Every command in every state ends in a next state: the part has neither faults nor refusals. That a command which is
not due, or which meets a record that no run reaches, completes with nothing changed is the model's choice (log entries 1
and 20). -/
def Obligations.EveryCommandCompletes : Prop := ∀ c s, Completes (exec c s)

/-- POWER_UP gives every record its power-up value (R178 and the tables of the chapters), whatever the state before.
That the queue of waiting commands, the strap pins, the restart line and the count of free values are kept, and that
no bus line counts as low or reported, is the model's choice (log entries 22, 28 and 30). -/
def Obligations.PowerUpGivesPowerUpValues : Prop :=
  ∀ s, ∃ t, exec .powerUp s = .next t ∧
    (∀ i, let r := t.slot i
      r.state = .empty ∧ r.phase = none ∧ r.policy = .auto ∧ r.override = none ∧ r.steering = none ∧ r.decl = none ∧
      r.heldMark = false ∧ r.oversize = false ∧ r.clamped = false ∧ r.reservation = 0 ∧ r.attempts = 0 ∧
      r.cause = none ∧ r.retirePending = false ∧ r.origin = none ∧ r.target = .released ∧ r.firstCode = none ∧
      r.latestCode = none ∧ r.mgmtPower = false ∧ r.powerPath = .off ∧ r.declareTimer = .stopped ∧
      r.drainTimer = .stopped ∧ r.dischargeTimer = .stopped ∧ r.backoffTimer = .stopped ∧
      r.lines.accepted = .noBlade ∧ r.lines.previous = .noBlade ∧ r.lines.oc = false ∧ r.lines.surveyEnd = none ∧
      r.lane.commanded = .openMode ∧ r.lane.transmit = 0 ∧ r.lane.pending = none ∧ r.lane.restore = none ∧
      r.lane.comparison = none ∧ r.latch = ⟨.off, false, .openMode, 0⟩) ∧
    (∀ z, let v := t.zone z
      v.capA = 0 ∧ v.capB = 0 ∧ v.margin = 26 ∧ v.current = 4 ∧ v.exposedFlag = false ∧ v.reserved = 0 ∧
      v.precharge = none ∧ v.queue = [] ∧ v.wait = .none) ∧
    t.timers = ⟨1000, 15000, 50⟩ ∧
    t.ref.state = .free ∧ t.ref.preferred = .x ∧ t.ref.selected = none ∧ t.ref.acquisition = none ∧
    (∀ g : GroupId, t.map[g.val] = none) ∧
    t.block.window = 16 ∧ t.block.threshold = 4 ∧ t.block.tolerance = 1 ∧ t.block.list = [] ∧ t.block.opened = none ∧
    t.block.lastVerdict = none ∧ t.block.history = [] ∧ t.block.errors = 0 ∧
    t.bank.counters.map (·.kind) = #v[.joinDone, .revert, .disturbedMf, .budgetWaitMf] ∧
    (∀ k : Fin 4, let c := t.bank.counters[k.val]
      c.value = 0 ∧ c.mode = .plain ∧ c.threshold = 1 ∧ c.invert = false ∧ c.condition = false ∧ c.overflow = false) ∧
    (∀ k, t.bank.total k = 0) ∧ t.bank.freezeOn = false ∧ t.bank.frozen = false ∧
    (∀ m, let v := t.manager m
      v.state = .absent ∧ v.pendingPhase = none ∧ v.period = 1000 ∧ v.timer = .stopped ∧
      v.slotNotices = ⟨0, 0, 0, 0, 0, 0⟩ ∧ v.shelfNotices = 0 ∧ v.mask = BitVec.allOnes 12) ∧
    (∀ p, (t.port p).state = .idle ∧ (t.port p).reply = []) ∧
    t.survey.running = true ∧ t.survey.ticks = 0 ∧
    t = { State.reset with
      pending := s.pending, straps := s.straps, restartLine := ⟨s.restartLine.held, false⟩, freeReads := s.freeReads }

/-- CONTROLLER_RESTART leaves the part as POWER_UP does, but for the switch latches of the slots, which keep their
positions; one that is requested while the restart line is still held takes effect when the line is released (R178).
That the line's level is found at the ticks, and that the tick which finds it released is not issued, is the model's
choice (log entry 30). -/
def Obligations.RestartKeepsLatches : Prop :=
  (∀ s : State, s.restartLine.held = false → ∃ t u, exec .controllerRestart s = .next t ∧ exec .powerUp s = .next u ∧
    t.setSlots u.slots = u ∧
    ∀ i, (t.slot i).latch = (s.slot i).latch ∧ { t.slot i with latch := (u.slot i).latch } = u.slot i) ∧
  (∀ s : State, s.restartLine.held = true →
    exec .controllerRestart s = .next { s with restartLine := ⟨true, true⟩ }) ∧
  ∀ (s : State) (x : TickInputs) (p : TickPart), (p = .whole x ∨ p = .issue x) →
    s.restartLine.asked = true → x.restartHeld = false →
    exec (.multiframeTick p) s = exec .controllerRestart { s with restartLine := ⟨false, false⟩ }

/-! ## The survey (chapter 12) -/

/-- SURVEY_CLASSIFICATION, once the lane sense of the second survey tick has been taken, classifies every slot by the
first row of Table 12-1 that applies (R179), switches its power and lanes as the row says, and changes nothing of the
settings, the reference, the managers, the ports or the change window block. A slot whose power it cuts, an orphan
that loses groups it drove, and another slot that drove groups are marked for a FAULT notice (R179, R180). That the
classification waits for the lane sense of its tick is the model's choice (log entry 21). -/
def Obligations.SurveyClassifiesSlots : Prop :=
  ∀ s : State, s.survey.running = true → s.survey.ticks = 2 → s.survey.classified = false → s.laneDue = false →
    ∃ t, exec .surveyClassification s = .next t ∧ t.survey.classified = true ∧
      (∀ i, let r := s.slot i; let l := r.lines.accepted; let v := t.slot i
        (r.latch.power = .off ∨ l.presence ≠ .full → v.state =
          if l.presence = .none then .empty else if l.presence = .full ∧ l.handleClosed then .present else .seating) ∧
        (r.latch.power ≠ .off → l.presence = .full →
          (r.lines.reportOc = true → v.state = .barred) ∧
          (r.lines.reportOc = false → l.pg = false → v.state = if l.handleClosed then .present else .seating) ∧
          (r.lines.reportOc = false → l.pg = true → v.state = .orphaned)) ∧
        v.cause = (if v.state = .barred then some .overcurrent else none) ∧
        v.powerPath = v.state.powerPath ∧ v.latch.power = v.state.powerPath ∧
        v.mgmtPower = v.state.mgmtPower ∧ v.latch.mgmt = v.state.mgmtPower ∧
        v.reservation = (if v.state = .orphaned then 1000 else 0) ∧
        (v.state ≠ .orphaned → v.lane.commanded = .openMode ∧ v.lane.transmit = 0) ∧
        (v.state = .orphaned → v.lane.commanded =
          match r.lane.sensedMode with
          | .openMode => .openMode
          | .biased => .openMode
          | .listen => .listen
          | .joined => if v.lane.transmit = 0 then .listen else .joined) ∧
        v.lane.comparison = none ∧ v.decl = none ∧ v.attempts = 0 ∧ v.steering = none ∧ v.policy = r.policy ∧
        v.override = r.override ∧ v.firstCode = r.firstCode ∧ v.latestCode = r.latestCode ∧
        v.lines.accepted = l ∧ v.lines.handed = l ∧ v.lines.reportOc = false ∧
        (t.survey.faults.mem i = true ↔ s.survey.faults.mem i = true ∨
          (v.state ≠ .orphaned ∧ (r.latch.power ≠ .off ∨ r.lane.sensedDrive ≠ 0)) ∨
          (v.state = .orphaned ∧ r.lane.sensedMode = .joined ∧ v.lane.transmit ≠ r.lane.sensedDrive))) ∧
      t.bank.total .overcurrent =
        s.bank.total .overcurrent + allSlots.countP (fun i => decide ((t.slot i).state = .barred)) ∧
      (∀ z, (t.zone z).quiet = (s.zone z).quiet) ∧ t.timers = s.timers ∧ t.ref = s.ref ∧ t.block.quiet = s.block.quiet ∧
      t.block.opened = s.block.opened ∧ t.managerA = s.managerA ∧ t.managerB = s.managerB ∧ t.portA = s.portA ∧
      t.portB = s.portB ∧ t.pending = s.pending

/-- The classification rebuilds the trunk-group map: a group belongs to the lowest-numbered ORPHANED slot whose bank
was sensed JOINED with the group among the 8 lowest-numbered that it drives, and each ORPHANED slot transmits on just
the groups it owns (R180). The map is empty since the reset. -/
def Obligations.SurveyRebuildsMap : Prop :=
  ∀ s : State, s.survey.running = true → s.survey.ticks = 2 → s.survey.classified = false → s.laneDue = false →
    (∀ g : GroupId, s.map[g.val] = none) →
    ∃ t, exec .surveyClassification s = .next t ∧
      let offers : SlotId → GroupId → Prop := fun i g =>
        (t.slot i).state = .orphaned ∧ (s.slot i).lane.sensedMode = .joined ∧ (s.slot i).lane.sensedDrive.mem g ∧
          (List.finRange 32).countP (fun h => decide (h < g) && (s.slot i).lane.sensedDrive.mem h) < 8
      (∀ (g : GroupId) (i : SlotId), t.map[g.val] = some i ↔ offers i g ∧ ∀ j, j < i → ¬ offers j g) ∧
      ∀ i, (t.slot i).lane.transmit = t.heldGroups i

/-- SURVEY_DONE, at the fourth tick of a survey that has classified the slots, ends the survey: the line differences of
each slot since its classification are handed on for its first report (R44, R180), the declare timers of the PRESENT
slots start, the managers are SILENT or ABSENT by their straps, SURVEY_DONE is posted with the FAULT, FEED and BUS
notices held back, and no other (R178, R180), and requests wait for the next tick (R180). A zone found DARK with an
orphan is marked for the first tick (R77). That SURVEY_DONE waits for the classification and takes a feed change or a
stuck line of its ticks with it, and the mark on a DARK zone, are the model's choice (log entries 18 and 21). -/
def Obligations.SurveyDoneEndsSurvey : Prop :=
  ∀ s : State, s.survey.running = true → s.survey.ticks = 4 → s.survey.classified = true →
    ∃ t, exec .surveyDone s = .next t ∧ t.survey.running = false ∧ t.survey.closing = true ∧
      (∀ i, let l := (s.slot i).lines; t.slot i = { s.slot i with
        lines := if l.accepted = l.handed then l else { l with surveyEnd := some l.accepted }
        declareTimer := if (s.slot i).state = .present then .running 0 s.timers.declare else (s.slot i).declareTimer }) ∧
      (∀ m, (t.manager m).state = (if (s.manager m).strap then .silent else .absent) ∧
        (t.manager m).mask = (s.manager m).mask) ∧
      (∀ m k i, t.hasSlotNotice m k i ↔ s.hasSlotNotice m k i ∨ (k = .fault ∧ s.survey.faults.mem i = true)) ∧
      (∀ m k, t.hasShelfNotice m k ↔ s.hasShelfNotice m k ∨ k = .surveyDone ∨
        (k = .feed ∧ (s.survey.heldFeed = true ∨
          ∃ z, (s.zone z).feedChanged = true ∨ (t.zone z).overcommitted = true)) ∨
        (k = .bus ∧ (s.survey.heldBus = true ∨ ∃ p, (s.port p).stuck = true))) ∧
      (∀ z, let v := s.zone z; t.zone z = { v with
        healthA := v.lineA.accepted, healthB := v.lineB.accepted
        darkAtSurveyEnd := !v.lineA.accepted && !v.lineB.accepted &&
          (slotsOf z).any fun i => (s.slot i).state = .orphaned }) ∧
      (∀ p, ((s.port p).stuck = false → t.port p = s.port p) ∧
        ((s.port p).stuck = true → (t.port p).stuck = false ∧ (t.port p).state = .idle ∧ (t.port p).reply = [])) ∧
      (∀ k, t.bank.total k = s.bank.total k + (if k = .busErrorA ∧ s.portA.stuck = true then 1 else 0) +
        (if k = .busErrorB ∧ s.portB.stuck = true then 1 else 0)) ∧ t.bank.quiet = s.bank.quiet ∧
      t.map = s.map ∧ t.ref = s.ref ∧ t.block = s.block ∧ t.timers = s.timers ∧ t.pending = s.pending

/-! ## The multiframe tick (R30, R31, R98) -/

/-- MULTIFRAME_TICK samples the lines of every slot by the two-sample rule (R30, R31), hands on the OC sample (R33),
leaves a sample report to be taken outside the survey, and counts each slot timer up to its length (R12). Nothing else
of a slot changes, but that a switching of the last boundary becomes due for its comparison (R122). The zones marked
at the end of the survey are treated apart (R77). That a report not yet taken merges with this tick's, the parts of a
tick and the mark of a boundary switching are the model's choice (log entries 1, 4, 10 and 11). -/
def Obligations.TickSamplesSlotLines : Prop :=
  ∀ (s : State) (x : TickInputs) (p : TickPart), (p = .whole x ∨ p = .issue x) →
    (∀ z, (s.zone z).darkAtSurveyEnd = false) → (s.restartLine.asked = true → x.restartHeld = true) →
    ∃ t, exec (.multiframeTick p) s = .next t ∧ ∀ i, let r := s.slot i; let v := t.slot i; let a := r.lines.accepted
      let b := r.lines.previous; let y := x.lines[i.val]
      v.lines.previous = ⟨y.long, y.short, y.handleClosed, y.pg⟩ ∧
      (v.lines.accepted.long = if y.long = b.long then y.long else a.long) ∧
      (v.lines.accepted.short = if y.short = b.short then y.short else a.short) ∧
      (v.lines.accepted.handleClosed = if y.handleClosed = b.handleClosed then y.handleClosed else a.handleClosed) ∧
      (v.lines.accepted.pg = if y.pg = b.pg then y.pg else a.pg) ∧
      v.lines.oc = y.oc ∧ v.lines.handed = r.lines.handed ∧ v.lines.reportDue = !s.survey.running ∧
      v.lines.reportOc = (r.lines.reportOc || y.oc) ∧ v.lines.surveyEnd = r.lines.surveyEnd ∧
      (∀ c l, (r.declareTimer = .running c l → v.declareTimer = .running (min (c + 1) l) l) ∧
        (r.drainTimer = .running c l → v.drainTimer = .running (min (c + 1) l) l) ∧
        (r.dischargeTimer = .running c l → v.dischargeTimer = .running (min (c + 1) l) l) ∧
        (r.backoffTimer = .running c l → v.backoffTimer = .running (min (c + 1) l) l)) ∧
      (r.declareTimer = .stopped ∨ r.declareTimer = .expired → v.declareTimer = r.declareTimer) ∧
      (r.drainTimer = .stopped ∨ r.drainTimer = .expired → v.drainTimer = r.drainTimer) ∧
      (r.dischargeTimer = .stopped ∨ r.dischargeTimer = .expired → v.dischargeTimer = r.dischargeTimer) ∧
      (r.backoffTimer = .stopped ∨ r.backoffTimer = .expired → v.backoffTimer = r.backoffTimer) ∧
      v = { r with
        lines := v.lines, declareTimer := v.declareTimer, drainTimer := v.drainTimer
        dischargeTimer := v.dischargeTimer, backoffTimer := v.backoffTimer, lane := { r.lane with atBoundary := false } }

/-- MULTIFRAME_TICK samples the feed-good lines and the bay straps, by the two-sample rule and at the survey's first
tick directly with the feed health and the manager's state (R61, R155), counts the precharges, the supervision timers,
the holdover and the low ticks of the bus lines (R91, R105, R157, R172), asks for lane sense, restarts the generator's
count (R98) and keeps the markers of its sync window (R100), counts the survey's ticks (R178), lets requests be taken
from the tick after the survey on (R180), and keeps the accounts and queues of the zones and the map. The generator's
time in microseconds, the parts of a tick, the wait of the survey's count for its steps, that the level of the restart
line is the one found at the tick, and that a bus line is released when a tick finds it high, are the model's choice (log
entries 4, 5, 21, 30 and 32). -/
def Obligations.TickSamplesShelfLines : Prop :=
  ∀ (s : State) (x : TickInputs) (p : TickPart), (p = .whole x ∨ p = .issue x) →
    (∀ z, (s.zone z).darkAtSurveyEnd = false) → (s.restartLine.asked = true → x.restartHeld = true) →
    ∃ t, exec (.multiframeTick p) s = .next t ∧
      let first := s.survey.running && s.survey.ticks = 0
      (∀ z, let v := s.zone z; let w := t.zone z
        let y : Bool × Bool := match z with | .one => (x.feed1A, x.feed1B) | .two => (x.feed2A, x.feed2B)
        w.lineA = ⟨if first ∨ y.1 = v.lineA.previous then y.1 else v.lineA.accepted, y.1⟩ ∧
        w.lineB = ⟨if first ∨ y.2 = v.lineB.previous then y.2 else v.lineB.accepted, y.2⟩ ∧
        w.healthA = (if first then y.1 else v.healthA) ∧ w.healthB = (if first then y.2 else v.healthB) ∧
        w.precharge = v.precharge.map (fun c => { c with count := min (c.count + 1) c.limit }) ∧
        w.queue = v.queue ∧ w.reserved = v.reserved ∧ w.wait = v.wait ∧ w.capA = v.capA ∧ w.capB = v.capB ∧
        w.margin = v.margin ∧ w.current = v.current ∧ w.exposedFlag = v.exposedFlag) ∧
      (∀ m, let v := s.manager m; let w := t.manager m
        let y : Bool := match m with | .a => x.strapA | .b => x.strapB
        w.strap = (if first ∨ y = v.strapPrev then y else v.strap) ∧ w.strapPrev = y ∧
        w.bayStrap = (if first then y else v.bayStrap) ∧
        w.state = (if first then if y then .silent else .absent else v.state) ∧
        (∀ c l, v.timer = .running c l → w.timer = .running (min (c + 1) l) l) ∧
        (v.timer = .stopped → w.timer = .stopped) ∧
        w.slotNotices = v.slotNotices ∧ w.mask = v.mask ∧ w.pendingPhase = v.pendingPhase ∧ w.period = v.period) ∧
      t.laneDue = true ∧ t.ref.genUs = s.ref.genUs - 2000 ∧ t.ref.tickUs = 0 ∧ t.ref.closeDue = true ∧
      t.ref.state = s.ref.state ∧ t.ref.selected = s.ref.selected ∧ t.ref.preferred = s.ref.preferred ∧
      t.ref.acquisition = s.ref.acquisition ∧ t.ref.acqCount = s.ref.acqCount ∧ t.ref.trial = s.ref.trial ∧
      t.ref.holdover = (if s.ref.state = .holdover then min (s.ref.holdover + 1) 250 else s.ref.holdover) ∧
      (∀ src, let e := 2000 - s.ref.genUs; let v := s.ref.source src; let w := t.ref.source src
        w.markerAge = v.markerAge.map (· + e) ∧
        (v.inWindow = none → w.inWindow = none) ∧
        (∀ a, v.inWindow = some a → w.inWindow = if a + e ≤ 125 then some (a + e) else none)) ∧
      (∀ p, let v := s.port p; let w := t.port p
        let low : Bool × Bool := match p with | .a => (x.clockLowA, x.dataLowA) | .b => (x.clockLowB, x.dataLowB)
        w = { v with
          clock := if low.1 then ⟨min (v.clock.lowTicks + 1) 13, v.clock.reported⟩ else ⟨0, false⟩
          data := if low.2 then ⟨min (v.data.lowTicks + 1) 13, v.data.reported⟩ else ⟨0, false⟩ }) ∧
      (s.survey.running = false → t.survey = { s.survey with closing := false }) ∧
      (s.survey.running = true → t.survey = { s.survey with
        ticks := min (s.survey.ticks + 1) (if s.survey.classified then 4 else 2) }) ∧
      t.map = s.map ∧ t.timers = s.timers ∧ t.block.list = s.block.list ∧ t.pending = s.pending ∧
      t.restartLine = ⟨x.restartHeld, s.restartLine.asked⟩

/-- As a tick is issued it is handed to the change window block and the counter bank with its two flags: it is a valid
boundary when the reference is LOCKED, and it ends a LOCKED multiframe when the reference has been LOCKED since the
tick that began it (R107). It is handed on too whether a revert, a restore or an undo was waiting already, since such an
action is applied at the first valid boundary after the event that made it pending (R135). BUDGET_WAIT_MF is reported
with the number of zones that wait for budget (R87). A whole tick is its two parts one after the other, and a tick still
in hand is taken before the next is issued. That a tick has these two parts, and that the number of waiting zones is
reported before the bank takes its totals, is the model's choice (log entries 4 and 16). -/
def Obligations.TickIsHandedWithItsFlags : Prop :=
  ∀ (s : State) (x : TickInputs), (∀ z, (s.zone z).darkAtSurveyEnd = false) →
    (s.restartLine.asked = true → x.restartHeld = true) →
    (∃ t u, exec (.multiframeTick (.issue x)) s = .next t ∧ exec (.multiframeTick .windowAndBank) t = .next u ∧
      exec (.multiframeTick (.whole x)) s = .next u) ∧
    (s.block.hand ≠ none → ∃ t, exec (.multiframeTick .windowAndBank) s = .next t ∧
      exec (.multiframeTick (.issue x)) s = exec (.multiframeTick (.issue x)) t) ∧
    (s.block.hand = none → ∃ t h, exec (.multiframeTick (.issue x)) s = .next t ∧ t.block.hand = some h ∧
      h.valid = decide (s.ref.state = .locked) ∧ h.lockedMf = (s.ref.lockedSince && decide (s.ref.state = .locked)) ∧
      (h.armed = true ↔ ∃ w, s.block.opened = some w ∧
        (w.undoPending = true ∨ w.phase = .revertPending ∨ w.phase = .restorePending)) ∧
      t.ref.lockedSince = decide (s.ref.state = .locked) ∧
      (∀ k, t.bank.total k = s.bank.total k + if k = .budgetWaitMf then
        (if s.zone1.wait = .budget then 1 else 0) + (if s.zone2.wait = .budget then 1 else 0) else 0) ∧
      t.bank.counters = s.bank.counters ∧ t.block.history = s.block.history ∧ t.block.errors = s.block.errors ∧
      t.block.opened = s.block.opened)

/-- HIGHWAY_ERROR adds 1 to the error count of the multiframe, which holds at 255 (R132). The change window block
takes a tick: the error count e of the multiframe becomes the latest entry of the history of LOCKED multiframes,
marked when it reaches T, and starts again at 0; the history keeps 64 entries (R132). The open window ages, and counts
an observed multiframe (R133). A closed window may be granted, and an action that waited be applied, when the tick is
a valid boundary (R130, R135). That this part of the tick can come alone is the model's choice (log entry 4). -/
def Obligations.WindowBlockTakesTick : Prop :=
  (∀ s, exec .highwayError s = .next (s.modBlock fun b => { b with errors := min (b.errors + 1) 255 })) ∧
  ∀ (s : State) (h : TickInHand), s.block.hand = some h →
    ∃ t, exec (.multiframeTick .windowAndBank) s = .next t ∧ let b := s.block
      (h.lockedMf = true → t.block.history = (⟨b.errors, decide (b.threshold ≤ b.errors)⟩ :: b.history).take 64) ∧
      (h.lockedMf = false → t.block.history = b.history) ∧ t.block.errors = 0 ∧ t.block.hand = none ∧
      (b.opened = none → t.block.opened = none) ∧
      (∀ w, b.opened = some w → ∃ v, t.block.opened = some v ∧ v.age = min (w.age + 1) 65535 ∧
        (h.lockedMf = true → (w.phase = .observeChange ∨ w.phase = .observeRevert) → w.observed < w.window →
          v.observed = w.observed + 1 ∧ v.after = if w.threshold ≤ b.errors then w.after + 1 else w.after) ∧
        ((h.lockedMf = false ∨ (w.phase ≠ .observeChange ∧ w.phase ≠ .observeRevert)) →
          v.observed = w.observed ∧ v.after = w.after) ∧
        { v with age := w.age, observed := w.observed, after := w.after } = w) ∧
      (t.block.grantDue = true ↔ h.valid = true ∧ b.opened = none ∧ b.list ≠ []) ∧
      (t.block.boundaryDue = true ↔ h.valid = true ∧ h.armed = true ∧ b.opened ≠ none) ∧
      t.block.list = b.list ∧ t.block.lastVerdict = b.lastVerdict ∧ t.block.window = b.window ∧
      t.block.threshold = b.threshold ∧ t.block.tolerance = b.tolerance ∧
      t.slots = s.slots ∧ (∀ z, t.zone z = s.zone z) ∧ t.map = s.map ∧ t.ref = s.ref

/-- The counter bank takes a tick: each counter of an unfrozen bank adds the increment of its kind by its mode, stores
the condition, and wraps past 16777215 with its flag set; a wrap posts a MONITOR notice and freezes the bank when
freeze-on-overflow is set; a frozen bank holds its counters; every total starts again at 0 (R139, R140, R141). That this
part of the tick comes alone (log entry 4), that the errors and the disturbed mark of the tick count in the totals the
bank takes at the same tick, and that a wrap takes the value modulo 16777216 (log entry 16), is the model's choice. -/
def Obligations.CounterBankTakesTick : Prop :=
  ∀ (s : State) (h : TickInHand), s.block.hand = some h →
    ∃ t, exec (.multiframeTick .windowAndBank) s = .next t ∧
      let disturbed := h.lockedMf = true ∧ s.block.threshold ≤ s.block.errors
      let n : EventKind → Nat := fun k => s.bank.total k + (if k = .highwayErrors then s.block.errors else 0) +
        (if k = .disturbedMf ∧ disturbed then 1 else 0)
      let holds : Fin 4 → Prop := fun k => let c := s.bank.counters[k.val]
        if c.invert then min (n c.kind) 255 < c.threshold else c.threshold ≤ min (n c.kind) 255
      let sum : Fin 4 → Nat := fun k => let c := s.bank.counters[k.val]
        c.value + match c.mode with
          | .plain => n c.kind
          | .threshold => if holds k then 1 else 0
          | .edge => if holds k ∧ c.condition = false then 1 else 0
      (∀ k, t.bank.total k = 0) ∧ t.bank.freezeOn = s.bank.freezeOn ∧
      (s.bank.frozen = true → t.bank.counters = s.bank.counters ∧ t.bank.frozen = true ∧
        t.managerA = s.managerA ∧ t.managerB = s.managerB) ∧
      (s.bank.frozen = false →
        (∀ k : Fin 4, let c := s.bank.counters[k.val]; let d := t.bank.counters[k.val]
          (sum k ≤ 16777215 → d.value = sum k ∧ d.overflow = c.overflow) ∧
          (16777215 < sum k → d.value = sum k % 16777216 ∧ d.overflow = true) ∧
          (d.condition = true ↔ holds k) ∧
          d.kind = c.kind ∧ d.mode = c.mode ∧ d.threshold = c.threshold ∧ d.invert = c.invert) ∧
        (t.bank.frozen = true ↔ s.bank.freezeOn = true ∧ ∃ k, 16777215 < sum k) ∧
        (∀ m l, t.hasShelfNotice m l ↔ s.hasShelfNotice m l ∨ (l = .monitor ∧ ∃ k, 16777215 < sum k)) ∧
        ∀ m l i, t.hasSlotNotice m l i ↔ s.hasSlotNotice m l i)

/-! ## Sample reports and the slot lines (chapters 1, 2 and 9) -/

/-- SAMPLE_REPORT hands the accepted levels on, and enters an accepted handle change in the slot's history with the
state it was accepted in, with a HANDLE notice; without one the history is kept (R35, R36). The first report after the
survey brings the changes found at its end with those of its own ticks (R44, R180), so that two handle changes can be
entered, both with the state the report finds where presence or overcurrent acts. That a change is the difference from
the levels last handed on, and that two handle changes of a first report act in turn, is the model's choice (log entries
10 and 24). -/
def Obligations.ReportEntersHandleHistory : Prop :=
  ∀ (s : State) (i : SlotId), (s.slot i).lines.reportDue = true →
    ∃ t, exec (.sampleReport i) s = .next t ∧ SlotEvent i s t ∧ let r := s.slot i; let v := t.slot i
      v.lines.handed = r.lines.accepted ∧ v.lines.accepted = r.lines.accepted ∧ v.lines.reportDue = false ∧
      v.lines.reportOc = false ∧ v.lines.surveyEnd = none ∧
      let was := r.lines.handed.handleClosed; let now := r.lines.accepted.handleClosed
      let kept := v.latestCode = r.latestCode ∧ v.firstCode = r.firstCode ∧
        ∀ m, t.hasSlotNotice m .handle i ↔ s.hasSlotNotice m .handle i
      let entered : Bool → Prop := fun closed => v.latestCode = some ⟨!closed, r.state⟩ ∧
        v.firstCode = some (r.firstCode.getD ⟨!closed, r.state⟩) ∧ t.posted .handle i
      (r.lines.surveyEnd = none → (now = was → kept) ∧ (now ≠ was → entered now)) ∧
      (∀ e, r.lines.surveyEnd = some e →
        (e.handleClosed = was → now = was → kept) ∧ (e.handleClosed = was → now ≠ was → entered now) ∧
        (e.handleClosed ≠ was → now = e.handleClosed → entered now) ∧
        (e.handleClosed ≠ was → now = was → t.posted .handle i ∧
          v.firstCode = some (r.firstCode.getD ⟨!e.handleClosed, r.state⟩) ∧
          v.latestCode.map (·.opened) = some (!now) ∧
          (r.lines.accepted.presence ≠ r.lines.handed.presence ∨ (r.lines.reportOc = true ∧ r.state.isPowered = true) →
            v.latestCode = some ⟨!now, r.state⟩)))

/-- SAMPLE_REPORT with a loss of presence: a powered slot is isolated and counted as SURPRISE, and goes to EMPTY or
SEATING by the new presence; an unpowered one goes there without isolation, FAULT notice or count, EMPTY and SEATING
staying as they are for PARTIAL (R28, R40, R152). With an active OC sample and no change of presence, a powered slot
is isolated and barred for OVERCURRENT (R33, R35, R152). It is so of the first report after the survey too, which brings
the survey's last changes and OC samples with its own (R180): a loss of presence comes before any of them (R35). That the
report compares accepted levels with those handed on is the model's choice (log entries 10 and 24). -/
def Obligations.LinesIsolatePoweredSlot : Prop :=
  (∀ (s : State) (i : SlotId), let r := s.slot i; let now := r.lines.accepted.presence
     s.QueueSound → r.lines.reportDue = true → now.rank < r.lines.handed.presence.rank →
     ∃ t, exec (.sampleReport i) s = .next t ∧ SlotEvent i s t ∧
       (r.state.isPowered = true →
         Isolated i s t ∧ (t.slot i).state = (if now = .none then .empty else .seating) ∧
         (t.slot i).decl = none ∧ (t.slot i).attempts = 0 ∧ (t.slot i).cause = none ∧ (t.slot i).steering = none ∧
         (t.slot i).mgmtPower = false ∧ (t.slot i).policy = r.policy ∧ (t.slot i).override = r.override ∧
         t.bank = (s.count .surprise 1).bank) ∧
       (r.state.isPowered = false →
         t.block.opened = s.block.opened ∧ t.bank = s.bank ∧
         (∀ m, t.hasSlotNotice m .fault i ↔ s.hasSlotNotice m .fault i) ∧
         (r.state ≠ .empty → (now = .none ∨ r.state ≠ .seating) →
           Entered (if now = .none then .empty else .seating) s.timers r.reported (t.slot i) ∧ t.heldGroups i = 0) ∧
         (r.state = .empty ∨ (now ≠ .none ∧ r.state = .seating) → t.slot i = r.reported))) ∧
  (∀ (s : State) (i : SlotId), let r := s.slot i
     s.QueueSound → r.lines.reportDue = true →
     r.lines.accepted.presence = r.lines.handed.presence → r.lines.reportOc = true →
     r.state.isPowered = true →
     ∃ t, exec (.sampleReport i) s = .next t ∧ SlotEvent i s t ∧ Isolated i s t ∧ (t.slot i).state = .barred ∧
       (t.slot i).cause = some .overcurrent ∧ (t.slot i).steering = none ∧ (t.slot i).decl = r.decl ∧
       (t.slot i).attempts = r.attempts ∧ (t.slot i).mgmtPower = true ∧ t.bank = (s.count .overcurrent 1).bank)

/-- SAMPLE_REPORT with a rise of presence takes a slot from EMPTY or SEATING to SEATING, or to PRESENT when it is FULL
with the handle CLOSED, where the declare timer starts (R38, R42); other states are left. That the rise is from the
levels last handed on, those of the classification in the first report after the survey, is the model's choice (log
entries 10 and 24). -/
def Obligations.PresenceGainSeatsSlot : Prop :=
  ∀ (s : State) (i : SlotId), let r := s.slot i; let now := r.lines.accepted
    s.QueueSound → r.lines.reportDue = true →
    r.lines.handed.presence.rank < now.presence.rank → r.state ≠ .precharge →
    ∃ t, exec (.sampleReport i) s = .next t ∧ QuietEvent i s t ∧
      (r.state = .empty → now.presence = .full → now.handleClosed = true → (t.slot i).state = .present ∧
        (t.slot i).mgmtPower = true ∧ (t.slot i).declareTimer = .running 0 s.timers.declare ∧
        (t.slot i).decl = none ∧ (t.slot i).attempts = 0 ∧ (t.slot i).cause = none ∧ (t.slot i).steering = none ∧
        t.posted .state i) ∧
      (r.state = .empty → (now.presence ≠ .full ∨ now.handleClosed = false) →
        Entered .seating s.timers r.reported (t.slot i) ∧ t.posted .state i) ∧
      (r.state = .seating → now.presence = .full → now.handleClosed = true →
        Entered .present s.timers r.reported (t.slot i) ∧ t.posted .state i) ∧
      (r.state = .seating → (now.presence ≠ .full ∨ now.handleClosed = false) → t.slot i = r.reported) ∧
      (r.state ≠ .empty → r.state ≠ .seating → t.slot i = r.reported)

/-- SAMPLE_REPORT with a handle accepted OPEN and nothing else to act on takes the slot as the first column of Table
9-1 says (R18 to R22, R24, R25, R39, R6, R7), in the first report after the survey too. Where that report brings an OPEN that
the end of the survey found and a CLOSED of its own tick (R44, R180), the slot goes first where the one and then where the other
takes it. A slot that waits for the end of an undo takes no retirement (R124). The levels compared, the origin of a retirement,
and that the two changes of a first report act in turn, are the model's choice (log entries 10, 12 and 24). -/
def Obligations.HandleOpenStartsRemoval : Prop :=
  ∀ (s : State) (i : SlotId), let r := s.slot i
    s.QueueSound → r.lines.reportDue = true → r.lines.accepted.presence = r.lines.handed.presence →
    (r.lines.reportOc = false ∨ r.state.isPowered = false) → r.lines.handed.handleClosed = true →
    (r.lines.accepted.handleClosed = false → ∃ t, exec (.sampleReport i) s = .next t ∧ QuietEvent i s t ∧
      t.posted .handle i ∧ HandleOpens (s.holdsWindow i) s.timers r.reported (t.slot i) ∧
      ((t.slot i).state ≠ r.state → t.posted .state i) ∧
      (r.state = .present ∨ r.state = .declared ∨ r.state = .queued → t.heldGroups i = 0 ∧ t.inQueue i = false) ∧
      (r.state = .precharge ∨ r.state = .powered ∨ r.state = .listen ∨ r.state = .joinWait ∨ r.state = .reverted →
        t.heldGroups i = 0 ∧ (∀ x ∈ t.block.list, x.slot ≠ i) ∧
        ∀ p, (t.zone (zoneOf i)).precharge = some p → p.holder ≠ i) ∧
      (r.state = .live → (t.slot i).state = .draining → t.posted .checkpoint i)) ∧
    (∀ e, r.lines.surveyEnd = some e → e.handleClosed = false → r.lines.accepted.handleClosed = true →
      ∃ t x y, exec (.sampleReport i) s = .next t ∧ QuietEvent i s t ∧ t.posted .handle i ∧
        HandleOpens (s.holdsWindow i) s.timers (r.turned false) x ∧
        HandleCloses (s.zone (zoneOf i)) s.timers (x.enterHandle true) y ∧ Rests s.timers y (t.slot i) ∧
        (x.state ≠ r.state ∨ y.state ≠ x.state → t.posted .state i) ∧
        (x.state ≠ r.state → x.state.groupless = true → t.heldGroups i = 0) ∧
        (x.state = .draining → r.state ≠ .draining → t.posted .checkpoint i))

/-- SAMPLE_REPORT with a handle accepted CLOSED and nothing else to act on: SEATING with FULL presence goes to PRESENT
(R38), RELEASED to PRESENT, or back to DECLARED when a declaration is held, which is tested for OVERSIZE again and
takes an AUTO slot that passes on to QUEUED (R19, R25, R53), a drain that the handle started goes back to LIVE (R148),
and a retirement that the handle left pending is taken back (R6), in the first report after the survey too. Where that report
brings a CLOSED that the end of the survey found and an OPEN of its own tick (R44, R180), the slot goes first where the one and
then where the other takes it. The levels compared, the origin of a retirement, and that the two changes of a first report act
in turn, are the model's choice (log entries 10, 12 and 24). -/
def Obligations.HandleCloseTakesRemovalBack : Prop :=
  ∀ (s : State) (i : SlotId), let r := s.slot i; let z := s.zone (zoneOf i)
    s.QueueSound → r.lines.reportDue = true → r.lines.accepted.presence = r.lines.handed.presence →
    (r.lines.reportOc = false ∨ r.state.isPowered = false) → r.lines.handed.handleClosed = false →
    (r.lines.accepted.handleClosed = true →
      (∀ p, r.state = .precharge → z.precharge = some p → p.holder = i → p.count < 2 ∨ r.lines.accepted.pg = false) →
      ∃ t y, exec (.sampleReport i) s = .next t ∧ QuietEvent i s t ∧ t.posted .handle i ∧
        HandleCloses z s.timers r.reported y ∧ Rests s.timers y (t.slot i) ∧ (y.state = r.state → t.slot i = y) ∧
        (y.state ≠ r.state → t.posted .state i) ∧
        (r.state = .released → r.decl.isSome = true → r.policy = .supervised → t.posted .checkpoint i)) ∧
    (∀ e, r.lines.surveyEnd = some e → e.handleClosed = true → r.lines.accepted.handleClosed = false →
      ∃ t x, exec (.sampleReport i) s = .next t ∧ QuietEvent i s t ∧ t.posted .handle i ∧
        HandleCloses z s.timers (r.turned true) x ∧
        HandleOpens (s.holdsWindow i) s.timers (x.enterHandle false) (t.slot i) ∧
        (x.state ≠ r.state ∨ (t.slot i).state ≠ x.state → t.posted .state i) ∧
        ((t.slot i).state ≠ x.state → (t.slot i).state.groupless = true → t.heldGroups i = 0) ∧
        (x.state ≠ .draining → (t.slot i).state = .draining → t.posted .checkpoint i))

/-- SAMPLE_REPORT with an accepted PG lost in a powered state other than PRECHARGE posts a FAULT notice, and changes
nothing of the slot but its report (R34); in the first report after the survey a loss that the end of the survey found is one
too (R44, R180). That the loss is from the level last handed on, and judged last, and that a first report brings two changes,
is the model's choice (log entries 10 and 24). -/
def Obligations.PgLossPostsFault : Prop :=
  ∀ (s : State) (i : SlotId), let r := s.slot i; let was := r.lines.handed.pg; let now := r.lines.accepted.pg
    r.lines.reportDue = true → r.lines.accepted.presence = r.lines.handed.presence →
    r.lines.reportOc = false → r.lines.accepted.handleClosed = r.lines.handed.handleClosed →
    (∀ e, r.lines.surveyEnd = some e → e.handleClosed = r.lines.handed.handleClosed) → r.state.isPowered = true →
    r.state ≠ .precharge →
    ∃ t, exec (.sampleReport i) s = .next t ∧ QuietEvent i s t ∧ t.slot i = r.reported ∧
      (∀ z, t.zone z = s.zone z) ∧ t.map = s.map ∧ t.block = s.block ∧
      (r.lines.surveyEnd = none → ∀ m, t.hasSlotNotice m .fault i ↔
        s.hasSlotNotice m .fault i ∨ (was = true ∧ now = false)) ∧
      ∀ e, r.lines.surveyEnd = some e → ∀ m, t.hasSlotNotice m .fault i ↔
        s.hasSlotNotice m .fault i ∨ (was = true ∧ e.pg = false) ∨ (e.pg = true ∧ now = false)

/-! ## Queue, channel and admission (chapters 4 and 5) -/

/-- PRECHARGE_COMPLETE: the report of the slot that holds its zone's channel, with an accepted PG at sample 2 or
later, takes it to POWERED on the full connection and frees the channel. A SUPERVISED slot waits there with a
CHECKPOINT notice; an AUTO slot goes on to LISTEN, where one without groups is given the free ones of its preferred
list, and to JOIN_WAIT once it holds groups (R92, R20, R115). A handle accepted CLOSED in the same report, which PRECHARGE
does not act on (R35, Table 9-1), does not hold it up. That SAMPLE_REPORT does the same is the model's choice (log entry 17).
-/
def Obligations.PgCompletesPrecharge : Prop :=
  ∀ (s : State) (i : SlotId) (p : Precharge), let r := s.slot i
    s.QueueSound → r.lines.reportDue = true →
    r.lines.accepted.presence = r.lines.handed.presence → r.lines.reportOc = false →
    (r.lines.accepted.handleClosed = true ∨ r.lines.handed.handleClosed = false) →
    (∀ e, r.lines.surveyEnd = some e → e.handleClosed = r.lines.handed.handleClosed) → r.state = .precharge →
    (s.zone (zoneOf i)).precharge = some p → p.holder = i → 2 ≤ p.count → r.lines.accepted.pg = true →
    ∃ t, exec (.prechargeComplete i) s = .next t ∧ exec (.sampleReport i) s = .next t ∧ QuietEvent i s t ∧
      (t.slot i).powerPath = .full ∧ (t.slot i).reservation = r.reservation ∧ t.posted .state i ∧
      (∀ q, (t.zone (zoneOf i)).precharge = some q → q.holder ≠ i) ∧
      (r.policy = .supervised → Entered .powered s.timers r.reported (t.slot i) ∧ t.posted .checkpoint i) ∧
      (r.policy = .auto → AutoListens i r.decl s t)

/-- GRANT: the head of a zone's queue that passes the three findings goes to PRECHARGE with its power path on through
the limiter, its reservation ⌈P·(256+m)/256⌉ added to the reserved sum, and the channel held with the current q, the
inrush 27·q, the capacitance C and the limit N_pc, at sample 0 (R63, R64, R88, R89, R91). That the grant is also a
command of its own is the model's choice (log entry 17). -/
def Obligations.GrantStartsPrecharge : Prop :=
  ∀ (s : State) (z : ZoneId) (e : QueueEntry) (l : List QueueEntry) (d : Declaration), s.QueueSound → s.Booked →
    (s.zone z).queue = e :: l → (s.slot e.slot).decl = some d → (s.zone z).precharge = none →
    (s.zone z).admits = true →
    (s.zone z).reserved + reservationFor d.power (s.zone z).margin + inrushFor (s.zone z).current ≤ (s.zone z).ceff →
    ∃ t, exec (.grant z) s = .next t ∧ QuietEvent e.slot s t ∧ (t.slot e.slot).state = .precharge ∧
      (t.slot e.slot).powerPath = .limited ∧ (t.slot e.slot).lane.commanded = .biased ∧
      256 * (t.slot e.slot).reservation < d.power * (256 + (s.zone z).margin) + 256 ∧
      d.power * (256 + (s.zone z).margin) ≤ 256 * (t.slot e.slot).reservation ∧
      (t.zone z).reserved = (s.zone z).reserved + (t.slot e.slot).reservation ∧
      (∃ p, (t.zone z).precharge = some p ∧ p.holder = e.slot ∧ p.current = (s.zone z).current ∧
        p.inrush = 27 * (s.zone z).current ∧ p.bulk = d.bulk ∧
        p.limit = prechargeLimit d.bulk (s.zone z).current ∧ p.count = 0) ∧
      (∀ x ∈ (t.zone z).queue, x ∈ l) ∧ (t.zone z).wait = (if (t.zone z).queue = [] then .none else .channelBusy) ∧
      t.posted .state e.slot

/-- PRECHARGE_LIMIT_EXPIRY: the slot that holds a zone's channel at sample N_pc is barred for PRECHARGE_TIMEOUT with
its path off and its reservation released, and a PRECHARGE_FAULT is counted (R93). -/
def Obligations.PrechargeLimitBarsHolder : Prop :=
  ∀ (s : State) (z : ZoneId) (p : Precharge), s.QueueSound → (s.zone z).precharge = some p → zoneOf p.holder = z → p.limit ≤ p.count →
    ∃ t, exec (.prechargeLimitExpiry z) s = .next t ∧ SlotEvent p.holder s t ∧
      Entered .barred s.timers (s.slot p.holder) { t.slot p.holder with cause := (s.slot p.holder).cause } ∧
      (t.slot p.holder).cause = some .prechargeTimeout ∧ t.posted .fault p.holder ∧ t.posted .state p.holder ∧
      (∀ q, (t.zone z).precharge = some q → q.holder ≠ p.holder) ∧ t.heldGroups p.holder = 0 ∧
      t.block.opened = s.block.opened ∧ t.bank = (s.count .prechargeFault 1).bank

/-! ## Zones and feeds (chapter 4) -/

/-- The protection state and the effective capacity of a zone follow from its two feed health values and its
capacities by Table 4-2 (R62). -/
def Obligations.ProtectionFollowsFeeds : Prop :=
  ∀ v : Zone,
    (v.healthA = true → v.healthB = true → v.protection = .protectedState ∧ v.ceff = min v.capA v.capB) ∧
    (v.healthA = true → v.healthB = false → v.protection = .exposed ∧ v.ceff = v.capA) ∧
    (v.healthA = false → v.healthB = true → v.protection = .exposed ∧ v.ceff = v.capB) ∧
    (v.healthA = false → v.healthB = false → v.protection = .dark ∧ v.ceff = 0)

/-- The headroom and the deficit of a zone (R67): max(0, Ceff − S − I) and max(0, S + I − Ceff), never both greater
than 0, both 0 when S + I equals Ceff; the zone is overcommitted while the deficit is greater than 0. -/
def Obligations.HeadroomAndDeficit : Prop :=
  ∀ v : Zone,
    (v.headroom : Int) = max 0 ((v.ceff : Int) - v.reserved - v.inrush) ∧
    (v.deficit : Int) = max 0 ((v.reserved : Int) + v.inrush - v.ceff) ∧
    (v.headroom = 0 ∨ v.deficit = 0) ∧
    (v.reserved + v.inrush = v.ceff → v.headroom = 0 ∧ v.deficit = 0) ∧
    (v.overcommitted = true ↔ 0 < v.deficit)

/-- The arithmetic of a grant: the reservation is P·(256 + m)/256 rounded up and lies in 1 to 1000 (R63), the inrush
allowance is 27·q and lies in 54 to 432 (R64), and the precharge limit is the charging time in multiframes rounded up,
and 2 more, and lies in 3 to 218 (R91), for every P, m, c and q in their ranges. -/
def Obligations.GrantArithmeticInRange : Prop :=
  ∀ power margin bulk current : Nat, 1 ≤ power → power ≤ 800 → margin ≤ 64 → 1 ≤ bulk → bulk ≤ 400 → 2 ≤ current →
    current ≤ 16 →
    (power * (256 + margin) ≤ 256 * reservationFor power margin ∧
      256 * reservationFor power margin < power * (256 + margin) + 256 ∧
      1 ≤ reservationFor power margin ∧ reservationFor power margin ≤ 1000) ∧
    (inrushFor current = 27 * current ∧ 54 ≤ inrushFor current ∧ inrushFor current ≤ 432) ∧
    (∃ n, prechargeLimit bulk current = n + 2 ∧ 108 * bulk ≤ 100 * current * n ∧
      100 * current * n < 108 * bulk + 100 * current ∧ 3 ≤ n + 2 ∧ n + 2 ≤ 218)

/-- FEED_HEALTH_CHANGE sets the health of a zone's feeds from the accepted lines. Outside the survey, and where the
zone neither enters nor leaves DARK, it posts a FEED notice and examines the zone's head, and nothing else of the part
changes but by that examination (R61, R75, R76). During the survey only the notice is held back (R178). That a change which no
FEED_HEALTH_CHANGE has taken waits as the difference between the accepted level and the record is the model's choice (log
entry 33). -/
def Obligations.FeedChangeExaminesHead : Prop :=
  ∀ (s : State) (z : ZoneId),
    (s.zone z).lineA.accepted ≠ (s.zone z).healthA ∨ (s.zone z).lineB.accepted ≠ (s.zone z).healthB →
    let u := s.modZone z fun v => { v with healthA := v.lineA.accepted, healthB := v.lineB.accepted }
    (s.survey.running = false → ((u.zone z).protection = .dark ↔ (s.zone z).protection = .dark) →
      ∃ t, exec (.feedHealthChange z) s = .next t ∧ Calm u t ∧ EndOfEvent u t ∧ t.postedShelf .feed ∧
        (s.QueueSound → (t.zone z).wait = t.headWait z ∧ ((t.zone z).queue ≠ [] → (t.zone z).wait ≠ .none))) ∧
    (s.survey.running = true →
      exec (.feedHealthChange z) s = .next { u with survey := { s.survey with heldFeed := true } })

/-- FEED_HEALTH_CHANGE that takes a zone into DARK isolates every powered slot of it: power off, lanes OPEN, groups
freed, reservation 0, and on to RELEASED, DECLARED with cause ZONE_DARK, or PRESENT (R28, R77, R152). The slots of the
zone that had no power and the slots of the other zone are kept, but for the end of the event. A zone that the end of
the survey found DARK with an orphan is treated in the same way by the first MULTIFRAME_TICK after it, if it is DARK
still (R77). The mark that says so, and that the handle level is the one last handed on, is the model's choice (log
entries 10 and 18). -/
def Obligations.DarkZoneIsolatesPoweredSlots : Prop :=
  let darkened : ZoneId → State → State → Prop := fun z s t =>
    (t.zone z).protection = .dark ∧ t.postedShelf .feed ∧
    ∀ i, zoneOf i = z → (s.slot i).state.isPowered = true → let r := s.slot i; let v := t.slot i
      v.powerPath = .off ∧ v.latch.power = .off ∧ v.lane.commanded = .openMode ∧ v.lane.transmit = 0 ∧
      t.heldGroups i = 0 ∧ v.reservation = 0 ∧ v.retirePending = false ∧ t.posted .fault i ∧ t.posted .state i ∧
      (∀ x ∈ t.block.list, x.slot ≠ i) ∧ (s.holdsWindow i = true → t.block.opened = none) ∧
      (∀ p, (t.zone z).precharge = some p → p.holder ≠ i) ∧
      (if (r.state = .draining ∨ r.state = .leaveWait ∨ r.state = .leaveObserve ∨ r.retirePending = true) ∨
          r.lines.handed.handleClosed = false then v.state = .released ∧ v.cause = none
        else if r.decl = none then v.state = .present ∧ v.cause = none ∧
          v.declareTimer = .running 0 s.timers.declare
        else v.state = .declared ∧ v.cause = some .zoneDark ∧ v.decl = r.decl ∧ v.attempts = r.attempts)
  (∀ (s : State) (z : ZoneId), s.QueueSound → s.survey.running = false → (s.zone z).protection ≠ .dark →
    (s.zone z).lineA.accepted = false → (s.zone z).lineB.accepted = false →
    ∃ t, exec (.feedHealthChange z) s = .next t ∧ darkened z s t ∧
      (∀ i, (zoneOf i ≠ z ∨ (s.slot i).state.isPowered = false) → s.inQueue i = false →
        t.slot i = s.slot i ∧ t.heldGroups i = s.heldGroups i) ∧
      (s.Booked → (t.zone z).reserved = 0)) ∧
  ∀ (s : State) (z : ZoneId) (x : TickInputs) (p : TickPart), (p = .whole x ∨ p = .issue x) → s.QueueSound →
    s.survey.running = false → (s.zone z).darkAtSurveyEnd = true → (s.zone z).protection = .dark →
    (s.restartLine.asked = true → x.restartHeld = true) →
    ∃ t, exec (.multiframeTick p) s = .next t ∧ darkened z s t ∧ (t.zone z).darkAtSurveyEnd = false ∧
      (s.Booked → (t.zone z).reserved = 0)

/-- FEED_HEALTH_CHANGE that brings a zone out of DARK sends its AUTO slots in DECLARED with cause ZONE_DARK, and
neither HELD nor OVERSIZE, on to QUEUED, from where the examination of the head may take one to PRECHARGE; the cause
becomes absent. The other slots wait on (R78). -/
def Obligations.ZoneLeavingDarkRequeuesSlots : Prop :=
  ∀ (s : State) (z : ZoneId), s.QueueSound → s.survey.running = false → (s.zone z).protection = .dark →
    ((s.zone z).lineA.accepted = true ∨ (s.zone z).lineB.accepted = true) →
    ∃ t, exec (.feedHealthChange z) s = .next t ∧ (t.zone z).protection ≠ .dark ∧ t.postedShelf .feed ∧
      (∀ i, zoneOf i = z → let r := s.slot i
        r.state = .declared → r.cause = some .zoneDark → r.policy = .auto → r.heldMark = false → r.oversize = false →
        ((t.slot i).state = .queued ∨ (t.slot i).state = .precharge) ∧ (t.slot i).cause = none ∧
        (t.slot i).decl = r.decl ∧ t.posted .state i) ∧
      (∀ i, s.inQueue i = false → let r := s.slot i
        ¬ (zoneOf i = z ∧ r.state = .declared ∧ r.cause = some .zoneDark ∧ r.policy = .auto ∧ r.heldMark = false ∧
          r.oversize = false) → t.slot i = r) ∧
      t.map = s.map ∧ t.block.opened = s.block.opened ∧ t.bank = s.bank

/-! ## Manager supervision by strap and timer (chapter 10) -/

/-- BAY_STRAP_CHANGE to absent makes the manager ABSENT with its supervision timer stopped, its refresh phase none and
its steerings dropped; to present it makes an ABSENT manager SILENT (R155). SUPERVISION_TIMER_EXPIRY makes the manager
LAPSED in the same way, and changes nothing else of a slot (R157). Each change of state posts a MANAGER notice. That a strap change which no BAY_STRAP_CHANGE
has taken waits as the difference between the accepted level and the record is the model's choice (log entry 33). -/
def Obligations.StrapAndTimerSetManager : Prop :=
  (∀ (s : State) (m : ManagerId), s.survey.running = false → (s.manager m).strap ≠ (s.manager m).bayStrap →
     ∃ t, exec (.bayStrapChange m) s = .next t ∧ (t.manager m).bayStrap = (s.manager m).strap ∧
       ((s.manager m).strap = false → (t.manager m).state = .absent ∧ (t.manager m).timer = .stopped ∧
         (t.manager m).pendingPhase = none ∧ (t.manager m).period = (s.manager m).period ∧ t.postedShelf .manager ∧
         ∀ i, t.slot i = { s.slot i with
           steering := if (s.slot i).steering = some m then none else (s.slot i).steering }) ∧
       ((s.manager m).strap = true → (s.manager m).state = .absent →
         (t.manager m).state = .silent ∧ t.postedShelf .manager) ∧
       ((s.manager m).strap = true → (s.manager m).state ≠ .absent → (t.manager m).state = (s.manager m).state) ∧
       ((s.manager m).strap = true → t.slots = s.slots ∧ (t.manager m).period = (s.manager m).period ∧
         (t.manager m).timer = (s.manager m).timer ∧ (t.manager m).pendingPhase = (s.manager m).pendingPhase) ∧
       (t.manager (ManagerId.other m)).quiet = (s.manager (ManagerId.other m)).quiet ∧
       (∀ n k i, t.hasSlotNotice n k i ↔ s.hasSlotNotice n k i) ∧ (∀ z, t.zone z = s.zone z) ∧ t.map = s.map ∧
       t.block = s.block ∧ t.bank = s.bank ∧ t.ref = s.ref) ∧
  (∀ (s : State) (m : ManagerId) (c p : Nat), (s.manager m).timer = .running c p → p ≤ c →
     ∃ t, exec (.supervisionTimerExpiry m) s = .next t ∧ (t.manager m).state = .lapsed ∧
       (t.manager m).timer = .stopped ∧ (t.manager m).pendingPhase = none ∧
       (t.manager m).period = (s.manager m).period ∧ (t.manager m).bayStrap = (s.manager m).bayStrap ∧
       t.postedShelf .manager ∧
       (∀ i, t.slot i = { s.slot i with
         steering := if (s.slot i).steering = some m then none else (s.slot i).steering }) ∧
       (t.manager (ManagerId.other m)).quiet = (s.manager (ManagerId.other m)).quiet ∧
       (∀ n k i, t.hasSlotNotice n k i ↔ s.hasSlotNotice n k i) ∧ (∀ z, t.zone z = s.zone z) ∧ t.map = s.map ∧
       t.block = s.block ∧ t.bank = s.bank ∧ t.ref = s.ref)

/-! ## Slot timers (R12) -/

/-- DECLARE_TIMER_EXPIRY and DRAIN_TIMER_EXPIRY: the timer becomes EXPIRED with its overdue notice, and the slot stays
as it is otherwise (R42, R146). DISCHARGE_TIMER_EXPIRY takes the slot to its discharge target: RELEASED, or DECLARED
with the HELD mark, and PRESENT instead of DECLARED when no declaration is held (R7, R151). RETRY_BACKOFF_EXPIRY takes
a slot that holds groups to JOIN_WAIT, behind the entries of the change list; a slot with no group stays with its
timer stopped (R23, R128). An expiry that is not due does nothing: the model's choice (log entry 1). -/
def Obligations.SlotTimersExpire : Prop :=
  (∀ (s : State) (i : SlotId) (c l : Nat), l ≤ c →
     ((s.slot i).declareTimer = .running c l → ∃ t, exec (.declareTimerExpiry i) s = .next t ∧ QuietEvent i s t ∧
       t.slot i = { s.slot i with declareTimer := .expired } ∧ t.posted .declareOverdue i ∧
       (∀ j, j ≠ i → t.slot j = s.slot j) ∧ (∀ z, t.zone z = s.zone z) ∧ t.map = s.map ∧ t.block = s.block) ∧
     ((s.slot i).drainTimer = .running c l → ∃ t, exec (.drainTimerExpiry i) s = .next t ∧ QuietEvent i s t ∧
       t.slot i = { s.slot i with drainTimer := .expired } ∧ t.posted .drainOverdue i ∧
       (∀ j, j ≠ i → t.slot j = s.slot j) ∧ (∀ z, t.zone z = s.zone z) ∧ t.map = s.map ∧ t.block = s.block)) ∧
  (∀ (s : State) (i : SlotId) (c l : Nat), s.QueueSound → (s.slot i).dischargeTimer = .running c l → l ≤ c →
     ∃ t, exec (.dischargeTimerExpiry i) s = .next t ∧ QuietEvent i s t ∧ t.posted .state i ∧
       ((s.slot i).target = .released → Entered .released s.timers (s.slot i) (t.slot i)) ∧
       ((s.slot i).target = .declared → (s.slot i).decl = none → Entered .present s.timers (s.slot i) (t.slot i)) ∧
       (∀ d, (s.slot i).target = .declared → (s.slot i).decl = some d →
         (t.slot i).state = .declared ∧ (t.slot i).heldMark = true ∧ (t.slot i).cause = none ∧
         (t.slot i).decl = some d ∧ t.posted .checkpoint i ∧
         ((t.slot i).oversize = true ↔ (s.zone (zoneOf i)).ceiling <
           reservationFor d.power (s.zone (zoneOf i)).margin + inrushFor (s.zone (zoneOf i)).current))) ∧
  (∀ (s : State) (i : SlotId) (c l : Nat), s.QueueSound → (s.slot i).backoffTimer = .running c l → l ≤ c →
     ∃ t, exec (.retryBackoffExpiry i) s = .next t ∧ QuietEvent i s t ∧
       (s.heldGroups i ≠ 0 → Entered .joinWait s.timers (s.slot i) (t.slot i) ∧ t.heldGroups i = s.heldGroups i ∧
         t.posted .state i ∧ ((∀ x ∈ s.block.list, s.inQueue x.slot = false) →
           t.block.list = s.block.list.filter (fun x => x.slot ≠ i) ++ [⟨i, .join⟩])) ∧
       (s.heldGroups i = 0 → t.slot i = { s.slot i with backoffTimer := .stopped } ∧ t.block = s.block)) ∧
  (∀ (s : State) (i : SlotId), let waits : SlotTimer → Prop := fun x => ∀ c l, x = .running c l → c < l
     (waits (s.slot i).declareTimer → exec (.declareTimerExpiry i) s = .next s) ∧
     (waits (s.slot i).drainTimer → exec (.drainTimerExpiry i) s = .next s) ∧
     (waits (s.slot i).dischargeTimer → exec (.dischargeTimerExpiry i) s = .next s) ∧
     (waits (s.slot i).backoffTimer → exec (.retryBackoffExpiry i) s = .next s))

/-! ## The timing reference (chapter 6) -/

/-- MARKER_ARRIVAL makes its source present, and acts by the state of the reference. In FREE, outside the survey, a
marker of the preferred source, or of the other one while the preferred is absent, starts an acquisition (R100, R101).
In ACQUIRING a marker of the acquisition source 15 to 17 frames after the one before it counts, and the eighth locks
the reference on that source, preferred from then on, with the tick generator restarted; at any other spacing the
count starts again (R102, R103). In LOCKED and HOLDOVER it is kept as the first marker of an open sync window, for the
finding at its close (R100). That every marker renews the presence of its source, and that times are counted in
microseconds, with the edges of the windows inclusive, is the model's choice (log entries 5 and 25). -/
def Obligations.MarkerArrivalByReferenceState : Prop :=
  (∀ (s : State) (src : Source) (d : Nat), s.ref.state = .free →
     ∃ t, exec (.markerArrival src d) s = .next t ∧ ReferenceEvent s t ∧ (t.ref.source src).markerAge = some 0 ∧
       t.block = s.block ∧ t.ref.preferred = s.ref.preferred ∧ t.ref.selected = s.ref.selected ∧
       t.ref.genUs = s.ref.genUs + d ∧
       let preferredAbsent := ∀ a, (s.ref.source s.ref.preferred).markerAge = some a → 32 * 125 < a + d
       (s.survey.running = false → (src = s.ref.preferred ∨ preferredAbsent) →
         t.ref.state = .acquiring ∧ t.ref.acquisition = some src ∧ t.ref.acqCount = 0 ∧ t.postedShelf .reference) ∧
       (s.survey.running = true ∨ (src ≠ s.ref.preferred ∧ ¬ preferredAbsent) →
         t.ref.state = .free ∧ t.ref.acquisition = s.ref.acquisition ∧
         ∀ m k, t.hasShelfNotice m k ↔ s.hasShelfNotice m k)) ∧
  (∀ (s : State) (src : Source) (d : Nat), s.survey.running = false → s.ref.state = .acquiring →
     ∃ t, exec (.markerArrival src d) s = .next t ∧ ReferenceEvent s t ∧ (t.ref.source src).markerAge = some 0 ∧
       t.block = s.block ∧
       (s.ref.acquisition ≠ some src → t.ref.state = .acquiring ∧ t.ref.acquisition = s.ref.acquisition ∧
         t.ref.acqCount = s.ref.acqCount) ∧
       (∀ a, s.ref.acquisition = some src → (s.ref.source src).markerAge = some a → 15 * 125 ≤ a + d →
         a + d ≤ 17 * 125 →
         (s.ref.acqCount + 1 < 8 → t.ref.state = .acquiring ∧ t.ref.acquisition = some src ∧
           t.ref.acqCount = s.ref.acqCount + 1) ∧
         (8 ≤ s.ref.acqCount + 1 → t.ref.state = .locked ∧ t.ref.selected = some src ∧ t.ref.acquisition = none ∧
           t.ref.acqCount = 0 ∧ t.ref.preferred = src ∧ t.ref.genUs = 0 ∧ t.ref.lockedSince = false ∧
           t.postedShelf .reference)) ∧
       (s.ref.acquisition = some src →
         (∀ a, (s.ref.source src).markerAge = some a → a + d < 15 * 125 ∨ 17 * 125 < a + d) →
         t.ref.state = .acquiring ∧ t.ref.acquisition = some src ∧ t.ref.acqCount = 0)) ∧
  (∀ (s : State) (src : Source) (d : Nat), (s.ref.state = .locked ∨ s.ref.state = .holdover) →
     ∃ t, exec (.markerArrival src d) s = .next t ∧ ReferenceEvent s t ∧ t.block = s.block ∧
       t.ref.state = s.ref.state ∧ t.ref.selected = s.ref.selected ∧ t.ref.preferred = s.ref.preferred ∧
       t.ref.trial = s.ref.trial ∧ t.ref.holdover = s.ref.holdover ∧ t.ref.genUs = s.ref.genUs + d ∧
       (t.ref.source src).markerAge = some 0 ∧
       let within := 16 * 125 ≤ s.ref.genUs + d + 125 ∨ (s.ref.closeDue = true ∧ s.ref.tickUs + d ≤ 125)
       ((s.ref.source src).inWindow = none → within → (t.ref.source src).inWindow = some 0) ∧
       ((s.ref.source src).inWindow = none → ¬ within → (t.ref.source src).inWindow = none) ∧
       (∀ a, (s.ref.source src).inWindow = some a → (t.ref.source src).inWindow = some (a + d)) ∧
       ∀ m k, t.hasShelfNotice m k ↔ s.hasShelfNotice m k)

/-- SYNC_WINDOW_CLOSE, `d` microseconds after the latest timed event: in LOCKED a GOOD finding of the selected source
trims the generator to the first marker of the window, and a MISSED one takes the reference to HOLDOVER (R104); in
HOLDOVER a GOOD finding of the other source counts, and the eighth locks on it without a break, while a MISSED one
starts the count again (R105). Times are counted in microseconds: the model's choice (log entry 5). -/
def Obligations.WindowCloseTrimsOrHolds : Prop :=
  ∀ (s : State) (src : Source), s.ref.closeDue = true → s.ref.selected = some src →
    let d := 125 - s.ref.tickUs
    (s.ref.state = .locked → ∃ t, exec .syncWindowClose s = .next t ∧ ReferenceEvent s t ∧ t.block = s.block ∧
      t.ref.closeDue = false ∧ t.ref.selected = some src ∧ t.ref.preferred = s.ref.preferred ∧
      (∀ a, (s.ref.source src).inWindow = some a → t.ref.state = .locked ∧ t.ref.genUs = a + d ∧
        t.ref.lockedSince = s.ref.lockedSince) ∧
      ((s.ref.source src).inWindow = none → t.ref.state = .holdover ∧ t.ref.holdover = 0 ∧ t.ref.trial = 0 ∧
        t.ref.genUs = s.ref.genUs + d ∧ t.ref.lockedSince = false ∧ t.postedShelf .reference)) ∧
    (s.ref.state = .holdover → s.ref.holdover < 250 → ∃ t, exec .syncWindowClose s = .next t ∧ ReferenceEvent s t ∧
      t.block = s.block ∧ t.ref.closeDue = false ∧
      (∀ a, (s.ref.source (Source.other src)).inWindow = some a →
        (s.ref.trial + 1 < 8 → t.ref.state = .holdover ∧ t.ref.trial = s.ref.trial + 1 ∧
          t.ref.selected = some src ∧ t.ref.holdover = s.ref.holdover ∧ t.ref.preferred = s.ref.preferred) ∧
        (8 ≤ s.ref.trial + 1 → t.ref.state = .locked ∧ t.ref.selected = some (Source.other src) ∧
          t.ref.preferred = Source.other src ∧ t.ref.trial = 0 ∧ t.ref.holdover = 0 ∧ t.ref.genUs = a + d ∧
          t.ref.lockedSince = false ∧ t.postedShelf .reference)) ∧
      ((s.ref.source (Source.other src)).inWindow = none → t.ref.state = .holdover ∧ t.ref.trial = 0 ∧
        t.ref.selected = some src ∧ t.ref.holdover = s.ref.holdover ∧ t.ref.genUs = s.ref.genUs + d))

/-- HOLDOVER_LIMIT at the 250th tick in HOLDOVER, and SYNC_WINDOW_CLOSE in ACQUIRING with the acquisition source
absent, take the reference to FREE with its sources and counts cleared, a REFERENCE notice, and the disturbance
history emptied; the preferred source stays (R102, R105, R132). Times are counted in microseconds: the model's choice
(log entry 5). -/
def Obligations.ReferenceFallsFree : Prop :=
  ∀ s : State,
    (s.ref.state = .holdover → 250 ≤ s.ref.holdover → ∃ t, exec .holdoverLimit s = .next t ∧ ReferenceEvent s t ∧
      t.ref.state = .free ∧ t.ref.selected = none ∧ t.ref.holdover = 0 ∧ t.ref.trial = 0 ∧
      t.ref.preferred = s.ref.preferred ∧ t.ref.genUs = s.ref.genUs ∧ t.block.history = [] ∧
      t.postedShelf .reference) ∧
    (∀ src, s.ref.closeDue = true → s.ref.state = .acquiring → s.ref.acquisition = some src →
      (∀ a, (s.ref.source src).markerAge = some a → 32 * 125 < a + (125 - s.ref.tickUs)) →
      ∃ t, exec .syncWindowClose s = .next t ∧ ReferenceEvent s t ∧ t.ref.state = .free ∧ t.ref.acquisition = none ∧
        t.ref.acqCount = 0 ∧ t.ref.preferred = s.ref.preferred ∧ t.block.history = [] ∧ t.postedShelf .reference)

/-! ## Lane sense and the change window (chapters 7 and 8) -/

/-- LANE_SENSE_SAMPLE records the lane sense of every slot and compares each switching once, but not at the boundary
that made it nor during the survey (R122, R180). A disagreement posts a FAULT notice, of a slot in an admission queue too. After a TRANSMIT_ON it marks the
holder of the window LANE_MISMATCH and an undo waits (R124); after a TRANSMIT_OFF, more drive than commanded isolates
a powered slot as a STUCK_LANE, and the sample after an undo bars the slot (R124, R125); a PLAIN switching has no more
to it. The end of the event can take a slot of an admission queue on (R85). That a boundary's switching is compared at
the next tick's sample rests on log entry 11. -/
def Obligations.LaneSenseComparesSwitchings : Prop :=
  ∀ (s : State) (senses : Vector LaneSense 16), s.laneDue = true →
    ∃ t, exec (.laneSenseSample senses) s = .next t ∧ Calm { s with laneDue := false } t ∧ ∀ i,
      let r := s.slot i; let v := t.slot i; let y := senses[i.val]
      let sensed : Slot := { r with lane := { r.lane with sensedMode := y.mode, sensedDrive := y.drive } }
      let compared : Slot := { sensed with lane := { sensed.lane with comparison := none } }
      let agrees := y.drive = r.lane.drive ∧ y.mode = r.lane.commanded
      let rests : Slot → Prop := fun x => v = x ∨
        (s.inQueue i = true ∧ (v.state = .precharge ∨ (v.state = .declared ∧ x.oversize = true)))
      v.lane.sensedMode = y.mode ∧ v.lane.sensedDrive = y.drive ∧
      (r.lane.comparison = none ∨ r.lane.atBoundary = true ∨ s.survey.running = true → rests sensed) ∧
      (r.lane.atBoundary = false → s.survey.running = false →
        (r.lane.comparison ≠ none → ¬ agrees → t.posted .fault i) ∧
        (r.lane.comparison = some .plain → rests compared) ∧
        (r.lane.comparison = some .transmitOn → agrees ∨ s.holdsWindow i = false → rests compared) ∧
        (r.lane.comparison = some .transmitOn → ¬ agrees → s.holdsWindow i = true →
          rests { compared with
            cause := some .laneMismatch
            phase := if r.state = .joinObserve then some .revertPending else r.phase } ∧
          (r.state = .joinObserve → t.posted .state i) ∧
          ∃ w, t.block.opened = some w ∧ w.holder = i ∧ w.undoPending = true) ∧
        (r.lane.comparison = some .transmitOff → r.undoWait = false →
          y.drive &&& ~~~r.lane.drive = 0 ∨ r.state.isPowered = false → rests compared) ∧
        (r.lane.comparison = some .transmitOff → s.inQueue i = false →
          (r.undoWait = true →
            v.state = .barred ∧ v.cause = (if y.drive = 0 then some .laneMismatch else some .stuckLane) ∧
            v.powerPath = .off ∧ v.lane.commanded = .openMode ∧ v.reservation = 0 ∧ t.heldGroups i = 0 ∧
            t.posted .state i ∧ t.posted .fault i) ∧
          (r.undoWait = false → y.drive &&& ~~~r.lane.drive ≠ 0 → r.state.isPowered = true →
            v.state = .barred ∧ v.cause = some .stuckLane ∧ v.powerPath = .off ∧ v.lane.commanded = .openMode ∧
            v.lane.transmit = 0 ∧ v.reservation = 0 ∧ t.heldGroups i = 0 ∧ t.posted .state i ∧ t.posted .fault i ∧
            (s.holdsWindow i = true → t.block.opened = none))))

/-- WINDOW_GRANT: at a valid boundary that finds the window closed, the first entry of the change list takes the
window with the settings copied, the age 0 and the baseline worked out, and its switching is applied (R127, R130,
R134): a join closes the transmit switches on the held groups (R117), a regroup switches to the pending set and keeps
the set before it to restore (R119), a leave opens them and frees the groups (R121). The mark that defers the
comparison rests on log entry 11, and that the boundary lasts until the close of its sync window on log entry 1. -/
def Obligations.WindowGrantAppliesChange : Prop :=
  ∀ (s : State) (e : ChangeEntry) (l : List ChangeEntry), s.SlotsSound → s.QueueSound → s.ListSound →
    s.block.list = e :: l → s.ref.closeDue = true → s.block.grantDue = true → s.block.opened = none →
    let b := s.block; let u := s.modBlock fun b => { b with lastVerdict := none, grantDue := false }
    ∃ t, exec .windowGrant s = .next t ∧ SlotEvent e.slot u t ∧ t.bank = s.bank ∧ t.posted .state e.slot ∧
      t.block = { b with
        list := l, lastVerdict := none, grantDue := false
        opened := some
          { holder := e.slot, kind := e.kind, phase := .observeChange, undoPending := false, age := 0
            window := b.window, threshold := b.threshold, tolerance := b.tolerance
            before := b.disturbedMarks b.window, after := 0, observed := 0 } } ∧
      let r := s.slot e.slot; let v := t.slot e.slot; let gs := s.heldGroups e.slot
      (e.kind = .join → t.heldGroups e.slot = gs ∧ v = { r with
        state := .joinObserve, phase := some .observeJoin, cause := none
        lane := { r.lane with commanded := .joined, transmit := gs, comparison := some .transmitOn, atBoundary := true }
        latch := { r.latch with power := .full, mgmt := true, laneMode := .joined, drive := gs } }) ∧
      (∀ p, r.lane.pending = some p → e.kind = .regroup → t.heldGroups e.slot = gs ∧ v = { r with
        lane := { r.lane with
          commanded := .joined, transmit := p, pending := none, restore := some r.lane.transmit
          comparison := some .transmitOn, atBoundary := true }
        latch := { r.latch with laneMode := .joined, drive := p } }) ∧
      (e.kind = .leave → t.heldGroups e.slot = 0 ∧ v = { r with
        state := .leaveObserve, phase := some .observeLeave, cause := none
        lane := { r.lane with
          commanded := .listen, transmit := 0, pending := none, restore := none, comparison := some .transmitOff
          atBoundary := true }
        latch := { r.latch with power := .full, mgmt := true, laneMode := .listen, drive := 0 } })

/-- WINDOW_VERDICT, once the window has observed its W multiframes: DISTURBED when more than D_max marks were added to
the baseline, else CLEAN (R134). With an undo waiting it is recorded and the window waits. A CLEAN join ends in LIVE,
or in DRAINING with a retirement pending, a DISTURBED one waits for its revert; a CLEAN revert ends in REVERTED,
BARRED at the third attempt, or POWERING_DOWN with a retirement pending, and a DISTURBED one in an isolation; a CLEAN
regroup frees the groups it dropped, and a DISTURBED one waits for its restore; a leave ends in POWERING_DOWN (R21,
R120, R135, R150). -/
def Obligations.VerdictActsByKind : Prop :=
  ∀ (s : State) (w : OpenWindow), s.SlotsSound → s.QueueSound → s.block.opened = some w →
    (w.phase = .observeChange ∨ w.phase = .observeRevert) → w.window ≤ w.observed →
    let i := w.holder; let r := s.slot i
    r.state = w.kind.observedState →
    let disturbed := w.before + w.tolerance < w.after
    let u := s.modBlock fun b => { b with lastVerdict := some (if disturbed then .disturbed else .clean) }
    ∃ t, exec .windowVerdict s = .next t ∧ SlotEvent i u t ∧ let v := t.slot i; let b := t.block
      (w.undoPending = true → t.slots = s.slots ∧ t.bank = s.bank ∧ b.opened = some { w with phase := .donePending }) ∧
      (w.undoPending = false → w.kind = .join → w.phase = .observeChange →
        (¬ disturbed → b.opened = none ∧ t.posted .state i ∧
          (r.retirePending = false → Entered .live s.timers r v ∧ t.heldGroups i = s.heldGroups i ∧
            t.bank = (s.count .joinDone 1).bank) ∧
          (r.retirePending = true → Entered .draining s.timers r v ∧ v.retirePending = false ∧ t.bank = s.bank ∧
            t.posted .checkpoint i)) ∧
        (disturbed → b.opened = some { w with phase := .revertPending } ∧ t.bank = s.bank ∧
          v = { r with phase := some .revertPending } ∧ t.posted .state i)) ∧
      (w.undoPending = false → w.kind = .join → w.phase = .observeRevert →
        (¬ disturbed → b.opened = none ∧ t.posted .state i ∧ t.bank = s.bank ∧
          let more : Slot := { r with attempts := r.attempts + 1 }
          (3 ≤ r.attempts + 1 → Entered .barred s.timers { more with cause := some .attempts } v ∧ t.posted .fault i) ∧
          (r.attempts + 1 < 3 → r.retirePending = true → Entered .poweringDown s.timers more v) ∧
          (r.attempts + 1 < 3 → r.retirePending = false → Entered .reverted s.timers more v)) ∧
        (disturbed → Isolated i s t ∧ v.state = .barred ∧ v.cause = some .revertDisturbed ∧ t.bank = s.bank)) ∧
      (w.undoPending = false → w.kind = .regroup → w.phase = .observeChange → t.bank = s.bank ∧
        (¬ disturbed → b.opened = none ∧ t.posted .state i ∧
          let kept : Slot := { r with lane := { r.lane with restore := none } }
          (r.retirePending = false → v = kept ∧
            t.heldGroups i = s.heldGroups i &&& ~~~(r.lane.restore.getD 0 &&& ~~~r.lane.transmit)) ∧
          (r.retirePending = true → Entered .draining s.timers kept v ∧ t.posted .checkpoint i)) ∧
        (disturbed → b.opened = some { w with phase := .restorePending } ∧ t.slots = s.slots ∧ t.posted .fault i)) ∧
      (w.undoPending = false → w.kind = .leave → w.phase = .observeChange →
        b.opened = none ∧ Entered .poweringDown s.timers r v ∧ t.heldGroups i = 0 ∧ t.posted .state i ∧
        t.bank = (s.count .leaveDone 1).bank ∧ (disturbed → t.posted .fault i))

/-- REVERT, RESTORE and UNDO, at the boundary of a tick that found the action waiting (R135), each with a REVERT
report and a TRANSMIT_OFF comparison: a revert takes the slot to LISTEN, its groups still owned, and starts the
observation of the revert (R118); a restore takes it back to its restore set, frees the groups the regroup added and
closes the window (R120); an undo takes it to LISTEN and closes the window, whatever its phase (R124). Once the sync
window of the tick has closed none of them, and no WINDOW_GRANT, has an effect, so that they wait while the reference is
not LOCKED (R108). The mark that defers the comparison rests on log entry 11, and the end of the boundary on log entry
1. -/
def Obligations.BoundaryActionsSwitchBack : Prop :=
  (∀ s : State, s.ref.closeDue = false →
    exec .windowGrant s = .next s ∧ exec .revert s = .next s ∧ exec .restore s = .next s ∧ exec .undo s = .next s) ∧
  ∀ (s : State) (w : OpenWindow), s.SlotsSound → s.QueueSound → s.block.opened = some w → s.ref.closeDue = true →
    s.block.boundaryDue = true →
    let i := w.holder; let r := s.slot i; let u := s.modBlock fun b => { b with boundaryDue := false }
    let away : Slot := { r with
      lane := { r.lane with commanded := .listen, transmit := 0, comparison := some .transmitOff, atBoundary := true }
      latch := { r.latch with laneMode := .listen, drive := 0 } }
    (w.phase = .revertPending → w.undoPending = false → r.state = .joinObserve →
      ∃ t, exec .revert s = .next t ∧ SlotEvent i u t ∧ t.slot i = { away with phase := some .observeRevert } ∧
        t.block.opened = some { w with phase := .observeRevert, observed := 0, after := 0 } ∧ t.map = s.map ∧
        t.posted .state i ∧ t.bank = (s.count .revert 1).bank) ∧
    (∀ set, r.lane.restore = some set → w.phase = .restorePending → w.undoPending = false → r.state = .live →
      ∃ t, exec .restore s = .next t ∧ SlotEvent i u t ∧ t.block.opened = none ∧ t.posted .state i ∧
        t.bank = (s.count .revert 1).bank ∧
        let back : Slot := { r with
          lane := { r.lane with
            commanded := .joined, transmit := set, restore := none, comparison := some .transmitOff, atBoundary := true }
          latch := { r.latch with laneMode := .joined, drive := set } }
        (r.retirePending = false → t.slot i = back ∧
          t.heldGroups i = s.heldGroups i &&& ~~~(r.lane.transmit &&& ~~~set)) ∧
        (r.retirePending = true → Entered .draining s.timers back (t.slot i) ∧ t.posted .checkpoint i)) ∧
    (w.undoPending = true → r.state = w.kind.observedState →
      ∃ t, exec .undo s = .next t ∧ SlotEvent i u t ∧ t.block.opened = none ∧ t.map = s.map ∧
        t.bank = (s.count .revert 1).bank ∧ t.slot i = { away with
          lane := { away.lane with restore := none }
          phase := if r.state = .joinObserve then some .observeRevert else r.phase })

/-! ## Requests: reads and settings (chapters 3, 4, 8, 10 and 11) -/

/-- The reads change nothing but what they report as read, and answer DONE with the records, laid out byte by byte as
Table 11-6 says: READ_SLOT part 1, by which a manager clears the first handle code, and part 2, READ_ZONE, READ_SHELF
part 1 with the presence of the sources at the read, parts 2 and 3, and READ_MONITOR (R37, R79, R97, R100, R106, R138,
R142, R158, R168, R173, R174). The removal indicator that READ_SLOT reports is the first row of Table 1-5 that holds, with
a slot awaiting a manager as R13 says (R13, R14). READ_SHELF part 3 draws one free value while the history is empty. That
value, the time of a read in microseconds, that parameters beyond those named are ignored, and that the indicator is a
value worked out from the records, are the model's choice (log entries 5, 8, 15 and 19). -/
def Obligations.ReadsAnswerFromRecords : Prop :=
  ∀ (r : Request) (s : State),
    (∀ m (i : SlotId), Received r s → r.tag = managerTag m → r.slot.toNat = i.val + 1 →
      (r.params = [] ∨ r.params.head? = some 1 → exec (.readSlot r) s = .next
        ((s.modSlot i fun v => { v with firstCode := none }).replied r ⟨.done, readSlotData s i⟩)) ∧
      (r.params.head? = some 2 →
        exec (.readSlot r) s = .next (s.replied r ⟨.done, readDeclarationData (s.slot i)⟩))) ∧
    (∀ i : SlotId, Received r s → r.tag.toNat = 0x11 + i.val → r.slot.toNat = i.val + 1 → (s.slot i).mgmtPower = true →
      (r.params = [] ∨ r.params.head? = some 1 → exec (.readSlot r) s = .next (s.replied r ⟨.done, readSlotData s i⟩)) ∧
      (r.params.head? = some 2 →
        exec (.readSlot r) s = .next (s.replied r ⟨.done, readDeclarationData (s.slot i)⟩))) ∧
    ((∀ n, n < 65536 → (bytes2 n).map (·.toNat) = [n / 256, n % 256]) ∧
      ∀ (gs : GroupSet) (g : GroupId), ((groupBytes gs)[3 - g.val / 8]?.getD 0).getLsbD (g.val % 8) = gs.mem g) ∧
    (∀ i : SlotId, let l := readSlotData s i; let v := s.slot i; l.length = 35 ∧
      l.take 6 = [byte v.state.code, optByte (v.phase.map SlotPhase.code), byte v.policy.code,
        optByte (v.override.map (·.val)), optByte (v.steering.map ManagerId.code),
        byte ((if v.heldMark then 1 else 0) + (if v.oversize then 2 else 0) + (if v.clamped then 4 else 0) +
          (if v.retirePending then 8 else 0))] ∧
      (l.drop 6).take 14 = bytes2 v.reservation ++ groupBytes (s.heldGroups i) ++ groupBytes v.lane.transmit ++
        groupBytes (v.lane.pending.getD 0) ∧
      (l.drop 20).take 7 = [byte v.attempts, optByte (v.cause.map FaultCause.code),
        optByte (v.origin.map DrainOrigin.code), byte v.target.code, optByte (v.firstCode.map HandleCode.code),
        optByte (v.latestCode.map HandleCode.code), byte (s.indicator i).code] ∧
      (l.drop 27).take 4 =
        [byte ((if v.mgmtPower then 1 else 0) + (if v.powerPath = .off then 0 else 2) + 4 * LaneMode.code v.lane.commanded),
          byte (v.declareTimer.code + 4 * v.drainTimer.code + 16 * v.dischargeTimer.code + 64 * v.backoffTimer.code),
          (let a := v.lines.accepted
           byte ((if a.long then 1 else 0) + (if a.short then 2 else 0) + (if a.handleClosed then 4 else 0) +
             (if a.pg then 8 else 0) + (if v.lines.oc then 16 else 0) + 32 * a.presence.code)),
          byte (LaneMode.code v.lane.sensedMode)] ∧
      l.drop 31 = groupBytes v.lane.sensedDrive ∧
      readDeclarationData v = byte (if v.clamped then 1 else 0) ::
        (match v.decl with
         | some d => [byte d.cls.code] ++ bytes2 d.power ++ bytes2 d.bulk ++ [byte d.wanted] ++ d.serial ++ d.kindCode ++
             d.preferred.map fun g => byte (g.val + 1)
         | none => [])) ∧
    (∀ i : SlotId, let v := s.slot i; let held := s.heldGroups i
      let awaits : Prop :=
        (v.policy = .supervised ∧ v.state ∈ [.declared, .powered, .listen, .reverted, .draining]) ∨
        v.state = .draining ∨ (v.state = .declared ∧ v.heldMark = true) ∨ (v.state = .listen ∧ held = 0) ∨
        (v.state = .reverted ∧ v.backoffTimer = .stopped ∧ held = 0)
      let on : Prop := v.state = .released ∨ v.state = .barred
      let fast : Prop := (v.state = .present ∧ v.declareTimer = .expired) ∨
        (v.state = .draining ∧ v.drainTimer = .expired) ∨ (awaits ∧ ∀ m, (s.manager m).state ≠ .active)
      let slow : Prop := v.state ∈ [.draining, .leaveWait, .leaveObserve, .poweringDown]
      (on → s.indicator i = .on) ∧ (¬ on → fast → s.indicator i = .fast) ∧
        (¬ on → ¬ fast → slow → s.indicator i = .slow) ∧ (¬ on → ¬ fast → ¬ slow → s.indicator i = .off)) ∧
    (∀ m, ReadsShelf r m s →
      (∀ z, r.params.head? = some (zoneByte z) →
        exec (.readZone r) s = .next (s.replied r ⟨.done, readZoneData (s.zone z)⟩)) ∧
      (r.params = [] ∨ r.params.head? = some 1 →
        exec (.readShelf r) s = .next (s.replied r ⟨.done, readShelfData r.delay s⟩)) ∧
      (r.params.head? = some 2 → exec (.readShelf r) s = .next (s.replied r ⟨.done, readMapData s⟩)) ∧
      (r.params.head? = some 3 → exec (.readShelf r) s = .next
        (({ s with freeReads := if s.block.history = [] then s.freeReads + 1 else s.freeReads } : State).replied r
          ⟨.done, readWindowData s⟩)) ∧
      exec (.readMonitor r) s = .next (s.replied r ⟨.done, readMonitorData s.bank⟩)) ∧
    (∀ v : Zone, let l := readZoneData v; l.length = 35 ∧
      l.take 7 = bytes2 v.capA ++ bytes2 v.capB ++ [byte v.margin, byte v.current,
        byte ((if v.exposedFlag then 1 else 0) + (if v.healthA then 0 else 2) + (if v.healthB then 0 else 4) +
          16 * v.protection.code)] ∧
      (l.drop 7).take 10 = bytes2 v.ceff ++ bytes2 v.reserved ++ bytes2 v.inrush ++ bytes2 v.headroom ++ bytes2 v.deficit ∧
      (v.precharge = none → (l.drop 17).take 8 = [0xFF, 0, 0, 0, 0, 0, 0, 0]) ∧
      (∀ c, v.precharge = some c → (l.drop 17).take 8 = [byte (c.holder.val + 1), byte c.current] ++ bytes2 c.inrush ++
        bytes2 c.bulk ++ [byte c.limit, byte c.count]) ∧
      l[25]? = some (byte v.queue.length) ∧
      (∀ k, k < 8 → l[26 + k]? = some
        (match v.queue[k]? with | some e => byte (e.slot.val + 1 + 32 * e.priority.val) | none => 0)) ∧
      l[34]? = some (byte v.wait.code)) ∧
    (let l := readShelfData r.delay s; let u := s.ref
      let here : Source → Nat → Nat := fun src n =>
        if (u.source src).markerAge.any fun a => decide (a + r.delay ≤ 32 * 125) then n else 0
      l.length = 29 ∧
      l.take 8 = [byte u.state.code, byte (Source.code u.preferred), optByte (u.selected.map Source.code),
        optByte (u.acquisition.map Source.code), byte u.acqCount, byte u.trial, byte u.holdover,
        byte (here .x 1 + here .y 2)] ∧
      (∀ m, let v := s.manager m
        (l.drop (match m with | .a => 8 | .b => 15)).take 7 =
          [byte (v.state.code + (if v.bayStrap then 4 else 0) + (if v.pendingPhase = none then 0 else 8))] ++
          bytes2 (v.pendingPhase.getD 0) ++ bytes2 v.period ++
          match v.timer with | .running c _ => bytes2 c | .stopped => [0xFF, 0xFF]) ∧
      l.drop 22 = bytes2 s.timers.declare ++ bytes2 s.timers.drain ++
        [byte s.timers.discharge, byte s.zone1.protection.code, byte s.zone2.protection.code]) ∧
    ((readMapData s).length = 32 ∧ ∀ g : GroupId, (readMapData s)[g.val]? =
      some (match s.map[g.val] with | some i => byte (i.val + 1) | none => 0xFF)) ∧
    (let l := readWindowData s; let b := s.block; l.length = 36 ∧
      l.take 3 = [byte b.window, byte b.threshold, byte b.tolerance] ∧
      (b.opened = none → (l.drop 3).take 12 = 0xFF :: List.replicate 11 0) ∧
      (∀ w, b.opened = some w → (l.drop 3).take 12 =
        [byte (w.holder.val + 1), byte w.kind.code, byte w.phase.code, byte (if w.undoPending then 1 else 0)] ++
          bytes2 w.age ++
          [byte w.window, byte w.threshold, byte w.tolerance, byte w.before, byte w.after, byte w.observed]) ∧
      l[15]? = some (optByte (b.lastVerdict.map Verdict.code)) ∧ l[16]? = some (byte b.list.length) ∧
      (∀ k, k < 16 → l[17 + k]? = some
        (match b.list[k]? with | some e => byte (e.slot.val + 1 + 32 * e.kind.code) | none => 0)) ∧
      l[33]? = some (byte b.history.length) ∧ (∀ h t, b.history = h :: t → l[34]? = some (byte h.errors)) ∧
      l[35]? = some (byte (b.disturbedMarks b.window))) ∧
    let l := readMonitorData s.bank; l.length = 21 ∧
      (∀ k : Fin 4, let c := s.bank.counters[k.val]; (l.drop (5 * k.val)).take 5 = bytes3 c.value ++
        [byte (c.kind.index.val + 1 + 16 * c.mode.code + (if c.invert then 64 else 0) + (if c.overflow then 128 else 0)),
          byte c.threshold]) ∧
      l[20]? = some (byte ((if s.bank.freezeOn then 1 else 0) + (if s.bank.frozen then 2 else 0)))

/-- READ_NOTICES returns the pending notices of the unmasked kinds in its 15 bytes, with the kinds that are masked and
pending in the last, and they leave the sender's record, which keeps the masked ones; the attention line is asserted
exactly while a notice of an unmasked kind is pending (R168, R176, R177); SET_NOTICE_MASK writes the twelve mask bits of
the sender, in any supervision state (R176). A mask with bits above bit 11, or one byte, is refused with BAD_PARAM, and
so is a slot number, which is the model's choice (log entry 9). The other manager's record and the rest of the part are
kept. The order of the shelf kinds in the reply rests on log entry 23, and that parameters beyond those named are
ignored is the model's choice (log entry 8). -/
def Obligations.NoticesAreCollected : Prop :=
  ∀ (r : Request) (m : ManagerId) (s : State),
    let place : SlotNotice → Nat := fun k => match k with
      | .state => 0 | .checkpoint => 1 | .handle => 2 | .fault => 3 | .declareOverdue => 4 | .drainOverdue => 5
    let slots : Bool → SlotNotice → SlotId → Prop := fun masked k i =>
      s.hasSlotNotice m k i ∧ (s.manager m).mask.getLsbD (place k) = masked
    let shelf : Bool → ShelfNotice → Prop := fun masked k =>
      s.hasShelfNotice m k ∧ (s.manager m).mask.getLsbD (6 + k.index) = masked
    ((s.manager m).attention = true ↔ (∃ k i, slots false k i) ∨ ∃ k, shelf false k) ∧
    (let l := readNoticesData (s.manager m)
      let bit : Nat → Nat → Bool := fun n j => (l[n + 1 - j / 8]?.getD 0).getLsbD (j % 8)
      l.length = 15 ∧ (∀ j, j < 16 → (bit 0 j = true ↔ ∃ k, j = 6 + k.index ∧ shelf false k)) ∧
      (∀ k i, bit (2 + 2 * place k) i.val = true ↔ slots false k i) ∧ (l[14]?.getD 0).toNat < 4 ∧
      ((l[14]?.getD 0).getLsbD 0 = true ↔ ∃ k i, slots true k i) ∧
      ((l[14]?.getD 0).getLsbD 1 = true ↔ ∃ k, shelf true k)) ∧
    (ReadsShelf r m s → ∃ u : State, exec (.readNotices r) s = .next (u.replied r ⟨.done, readNoticesData (s.manager m)⟩) ∧
      u = s.modManager m (fun v => { v with
        slotNotices := (u.manager m).slotNotices, shelfNotices := (u.manager m).shelfNotices }) ∧
      (∀ k i, u.hasSlotNotice m k i ↔ slots true k i) ∧ (∀ k, u.hasShelfNotice m k ↔ shelf true k) ∧
      (u.manager m).attention = false) ∧
    (∀ hi lo l, FromManager r m s → r.slot = 0 → r.params = hi :: lo :: l → hi.toNat < 16 →
      exec (.setNoticeMask r) s = .next ((s.modManager m fun v => { v with
        mask := BitVec.ofNat 12 (hi.toNat * 256 + lo.toNat) }).replied r ⟨.done, [hi, lo]⟩)) ∧
    (FromManager r m s → (r.slot ≠ 0 ∨ r.params.length < 2 ∨ ∃ b, r.params.head? = some b ∧ 15 < b.toNat) →
      exec (.setNoticeMask r) s = .next (s.replied r ⟨.badParam, []⟩))

/-- SET_TIMERS writes three values in their ranges for the timers started from then on (R43), and SET_OBSERVATION
writes W, T and D_max with D_max limited to W (R131). A value out of range is refused with BAD_PARAM, nothing written.
Parameters beyond those named are ignored: the model's choice (log entry 8). -/
def Obligations.SettingsAreWritten : Prop :=
  ∀ (r : Request) (m : ManagerId) (s : State), ToShelf r m s →
    (∀ a b c d e l, r.params = a :: b :: c :: d :: e :: l →
      let declare := a.toNat * 256 + b.toNat; let drain := c.toNat * 256 + d.toNat
      if 250 ≤ declare ∧ declare ≤ 4000 ∧ 500 ≤ drain ∧ drain ≤ 60000 ∧ 8 ≤ e.toNat then
        exec (.setTimers r) s = .next
          (({ s with timers := ⟨declare, drain, e.toNat⟩ } : State).replied r ⟨.done, [a, b, c, d, e]⟩)
      else exec (.setTimers r) s = .next (s.replied r ⟨.badParam, []⟩)) ∧
    (∀ w t d l, r.params = w :: t :: d :: l →
      if 4 ≤ w.toNat ∧ w.toNat ≤ 64 ∧ 1 ≤ t.toNat then
        exec (.setObservation r) s = .next ((s.modBlock fun b => { b with
          window := w.toNat, threshold := t.toNat, tolerance := min d.toNat w.toNat }).replied r
          ⟨.done, [w, t, if w.toNat ≤ d.toNat then w else d]⟩)
      else exec (.setObservation r) s = .next (s.replied r ⟨.badParam, []⟩)) ∧
    (r.params.length < 5 → exec (.setTimers r) s = .next (s.replied r ⟨.badParam, []⟩)) ∧
    (r.params.length < 3 → exec (.setObservation r) s = .next (s.replied r ⟨.badParam, []⟩))

/-- SET_MONITOR writes one counter's event kind, mode, threshold and inversion and the freeze-on-overflow flag, with
the stored condition false and the value kept; CLEAR_MONITOR clears the counters of its set; UNFREEZE ends the freeze
(R142). Nothing else of the bank or of the part changes. A parameter that is missing or out of range is refused with
BAD_PARAM. The values of the two flag bytes, and that parameters beyond
those named are ignored, are the model's choice (log entries 8 and 26). -/
def Obligations.MonitorRequestsSetBank : Prop :=
  ∀ (r : Request) (m : ManagerId) (s : State), ToShelf r m s →
    (∀ (k : Fin 4) (e : EventKind) (mode : CountMode) (invert freeze : Bool) (t : Byte) (l : List Byte), t ≠ 0 →
      r.params = byte (k.val + 1) :: byte (e.index.val + 1) :: byte mode.code :: t ::
        byte (flagBit invert 0) :: byte (flagBit freeze 0) :: l →
      ∃ b, exec (.setMonitor r) s = .next (({ s with bank := b } : State).replied r ⟨.done, []⟩) ∧
        b.freezeOn = freeze ∧ b.frozen = s.bank.frozen ∧ b.totals = s.bank.totals ∧
        ∀ j : Fin 4, let c := s.bank.counters[j.val]; let d := b.counters[j.val]
          (j ≠ k → d = c) ∧ (j = k → d = { c with
            kind := e, mode := mode, threshold := t.toNat, invert := invert, condition := false })) ∧
    (∀ (set : BitVec 4) (l : List Byte), set ≠ 0 → r.params = set.setWidth 8 :: l →
      ∃ b, exec (.clearMonitor r) s = .next (({ s with bank := b } : State).replied r ⟨.done, []⟩) ∧
        b.freezeOn = s.bank.freezeOn ∧ b.frozen = s.bank.frozen ∧ b.totals = s.bank.totals ∧
        ∀ j : Fin 4, let c := s.bank.counters[j.val]
          b.counters[j.val] = if set.getLsbD j.val then { c with value := 0, overflow := false, condition := false }
            else c) ∧
    (r.params.length < 6 → exec (.setMonitor r) s = .next (s.replied r ⟨.badParam, []⟩)) ∧
    (∀ c k mode t inv fz l, r.params = c :: k :: mode :: t :: inv :: fz :: l →
      c = 0 ∨ 4 < c.toNat ∨ k = 0 ∨ 12 < k.toNat ∨ 2 < mode.toNat ∨ t = 0 ∨ 1 < inv.toNat ∨ 1 < fz.toNat →
      exec (.setMonitor r) s = .next (s.replied r ⟨.badParam, []⟩)) ∧
    ((∀ b, r.params.head? = some b → b = 0 ∨ 15 < b.toNat) →
      exec (.clearMonitor r) s = .next (s.replied r ⟨.badParam, []⟩)) ∧
    exec (.unfreeze r) s = .next (({ s with bank := { s.bank with frozen := false } } : State).replied r ⟨.done, []⟩)

/-- REFRESH of a manager whose strap is present: phase 1 keeps the period it names, and phase 2 completes the pair,
which makes a SILENT or LAPSED manager ACTIVE and starts its supervision timer again with that period; phase 2 alone
is refused, and so are a REFRESH of an ABSENT manager and one with a slot number or a parameter out of range (R156).
ADOPT gives the sender the steering of a slot that has none, and changes nothing where the sender
has it (R161). Parameters beyond those named are ignored: the model's choice (log entry 8). -/
def Obligations.RefreshAndAdoptSupervise : Prop :=
  ∀ (r : Request) (m : ManagerId) (s : State),
    (FromManager r m s → r.slot = 0 → (s.manager m).state ≠ .absent → let other := (s.manager (ManagerId.other m)).state
      (∀ hi lo l, r.params = 1 :: hi :: lo :: l → 125 ≤ hi.toNat * 256 + lo.toNat → hi.toNat * 256 + lo.toNat ≤ 4000 →
        exec (.refresh r) s = .next ((s.modManager m fun v => { v with
          pendingPhase := some (hi.toNat * 256 + lo.toNat) }).replied r
          ⟨.done, [byte (s.manager m).state.code] ++ bytes2 (s.manager m).period ++ [byte other.code]⟩)) ∧
      (∀ l p, r.params = 2 :: l → (s.manager m).pendingPhase = some p →
        ∃ u : State, exec (.refresh r) s = .next (u.replied r ⟨.done, [2] ++ bytes2 p ++ [byte other.code]⟩) ∧
          (u.manager m).quiet = { (s.manager m).quiet with
            state := .active, period := p, pendingPhase := none, timer := .running 0 p } ∧
          (u.manager (ManagerId.other m)).quiet = (s.manager (ManagerId.other m)).quiet ∧
          ((s.manager m).state ≠ .active → u.postedShelf .manager) ∧
          ((s.manager m).state = .active → ∀ n k, u.hasShelfNotice n k ↔ s.hasShelfNotice n k) ∧
          (∀ n k i, u.hasSlotNotice n k i ↔ s.hasSlotNotice n k i) ∧ u.slots = s.slots ∧ (∀ z, u.zone z = s.zone z) ∧
          u.map = s.map ∧ u.block = s.block ∧ u.ref = s.ref) ∧
      (∀ l, r.params = 2 :: l → (s.manager m).pendingPhase = none →
        exec (.refresh r) s = .next (s.replied r ⟨.wrongState, []⟩))) ∧
    (FromManager r m s → (s.manager m).state = .absent → exec (.refresh r) s = .next (s.replied r ⟨.wrongState, []⟩)) ∧
    (FromManager r m s → (s.manager m).state ≠ .absent →
      (r.slot ≠ 0 ∨ (r.params.head? ≠ some 1 ∧ r.params.head? ≠ some 2) ∨
        (r.params.head? = some 1 ∧ (r.params.length < 3 ∨ ∃ x hi lo l, r.params = x :: hi :: lo :: l ∧
          (hi.toNat * 256 + lo.toNat < 125 ∨ 4000 < hi.toNat * 256 + lo.toNat)))) →
      exec (.refresh r) s = .next (s.replied r ⟨.badParam, []⟩)) ∧
    (∀ i, ToSlot r m i s → (s.slot i).state.adoptable = true →
      ∃ u, exec (.adopt r) s = .next (u.replied r ⟨.done, [byte (ManagerId.code m)]⟩) ∧ QuietEvent i s u ∧
        u.slot i = (s.slot i).steeredBy m ∧ u.map = s.map ∧ u.block = s.block ∧ (∀ z, u.zone z = s.zone z) ∧
        ∀ n, u.hasSlotNotice n .checkpoint i ↔
          s.hasSlotNotice n .checkpoint i ∨ ((s.slot i).steering = none ∧ s.awaiting i = true))

/-- SET_ZONE writes the six values, each limited to its range (R72), tests every DECLARED and QUEUED slot of the zone
for OVERSIZE again, sends the AUTO slots that are no longer OVERSIZE on, and examines the zone's head (R73). A powered
slot keeps its record, its reservation and its power. Parameters beyond those named are ignored: the model's choice
(log entry 8). -/
def Obligations.ZoneSettingIsTaken : Prop :=
  ∀ (r : Request) (m : ManagerId) (s : State) (z : ZoneId) (exposed : Bool) (a b c d e f : Byte) (l : List Byte),
    ToShelf r m s → s.QueueSound →
    r.params = zoneByte z :: a :: b :: c :: d :: e :: f :: byte (flagBit exposed 0) :: l →
    ∃ u : State, exec (.setZone r) s = .next (u.replied r ⟨.done, setZoneData z (u.zone z)⟩) ∧
      let v := u.zone z; let w := s.zone z
      v.capA = min (a.toNat * 256 + b.toNat) 8000 ∧ v.capB = min (c.toNat * 256 + d.toNat) 8000 ∧
      v.margin = min e.toNat 64 ∧ v.current = max 2 (min f.toNat 16) ∧ v.exposedFlag = exposed ∧
      v.healthA = w.healthA ∧ v.healthB = w.healthB ∧ v.lineA = w.lineA ∧ v.lineB = w.lineB ∧
      (∀ p, w.precharge = some p → (s.slot p.holder).state = .precharge → v.precharge = some p) ∧
      v.wait = u.headWait z ∧ (v.queue ≠ [] → v.wait ≠ .none) ∧ u.map = s.map ∧ u.block.opened = s.block.opened ∧
      u.bank = s.bank ∧ u.timers = s.timers ∧ u.ref = s.ref ∧
      (∀ i, (s.slot i).state ≠ .declared → (s.slot i).state ≠ .queued → u.slot i = s.slot i) ∧
      (∀ i, zoneOf i ≠ z → u.slot i = s.slot i) ∧
      (∀ i x, zoneOf i = z → (s.slot i).decl = some x → (s.slot i).state = .declared ∨ (s.slot i).state = .queued →
        let tooBig := min v.capA v.capB < reservationFor x.power v.margin + inrushFor v.current
        (u.slot i).decl = some x ∧ ((u.slot i).oversize = true ↔ tooBig) ∧
        (tooBig → (u.slot i).state = .declared) ∧
        ((s.slot i).state = .queued → ¬ tooBig → (u.slot i).state = .queued ∨ (u.slot i).state = .precharge) ∧
        ((s.slot i).state = .declared → ¬ tooBig →
          if (s.slot i).oversize = true ∧ (s.slot i).policy = .auto ∧ (s.slot i).heldMark = false ∧
              ¬ ((s.slot i).cause = some .zoneDark ∧ w.protection = .dark) then
            (u.slot i).state = .queued ∨ (u.slot i).state = .precharge
          else (u.slot i) = { s.slot i with oversize := false }))

/-- SET_SLOT_POLICY writes the policy and the override of a slot, and acts at once on one that waits (R83, R162): a
slot that becomes AUTO goes on from its checkpoint, given the free groups of its preferred list where it holds none
(R115), or starts its retry backoff in REVERTED; one that becomes
SUPERVISED awaits a manager there, its backoff stopped. Parameters beyond those named are ignored: the model's choice
(log entry 8). -/
def Obligations.PolicyActsAtCheckpoints : Prop :=
  ∀ (r : Request) (m : ManagerId) (i : SlotId) (s : State) (p o : Byte) (l : List Byte) (policy : Policy)
    (prio : Option (Fin 4)), ToSlot r m i s → s.QueueSound → r.params = p :: o :: l → policy? p = some policy →
    override? o = some prio →
    ∃ u, exec (.setSlotPolicy r) s = .next (u.replied r ⟨.done, []⟩) ∧ QuietEvent i s u ∧
      let v := s.slot i; let set : Slot := { v with policy := policy, override := prio }
      (u.slot i).policy = policy ∧ (u.slot i).override = prio ∧ (u.slot i).steering = v.steering ∧
      (v.state ≠ .queued → (v.policy = policy ∨ v.state ∉ [.declared, .powered, .listen, .reverted]) →
        u.slot i = set ∧ u.map = s.map ∧ u.block = s.block) ∧
      (v.state = .queued → v.override = prio → u.slot i = set ∧ ∀ z, (u.zone z).queue = (s.zone z).queue) ∧
      (v.state = .queued → v.override ≠ prio →
        (u.slot i = set ∧ ∃ x y, (u.zone (zoneOf i)).queue = x ++ ⟨i, set.effectivePriority⟩ :: y ∧
          x.all (fun e => e.priority ≤ set.effectivePriority) ∧ y.all (fun e => set.effectivePriority < e.priority)) ∨
        (u.slot i).state = .precharge ∨ ((u.slot i).state = .declared ∧ v.oversize = true)) ∧
      (v.policy = .supervised → policy = .auto →
        (v.state = .declared → v.oversize = false → v.heldMark = false → v.cause ≠ some .zoneDark →
          (u.slot i).state = .queued ∨ (u.slot i).state = .precharge) ∧
        (v.state = .powered ∨ v.state = .listen → AutoListens i v.decl s u) ∧
        (v.state = .reverted → u.slot i = { set with backoffTimer := .running 0 (64 * v.attempts) })) ∧
      (v.policy = .auto → policy = .supervised →
        (v.state = .declared ∨ v.state = .powered ∨ v.state = .listen → u.slot i = set ∧ u.posted .checkpoint i) ∧
        (v.state = .reverted → u.slot i = { set with backoffTimer := .stopped } ∧ u.posted .checkpoint i))

/-! ## Requests on a slot (chapters 1, 3, 7, 9 and 10) -/

/-- CONTINUE takes a slot from DECLARED to QUEUED, from where it may be granted at once, and from POWERED to LISTEN,
where an AUTO slot goes on with the groups of R115; an OVERSIZE slot is refused. HOLD marks a DECLARED slot HELD, and takes a QUEUED one back to DECLARED with the mark.
Each gives its sender the steering of a slot that has none (R4, R19, R20, R159, R163, R164). That a HOLD of a slot
already HELD gives it too, and that parameters beyond the response are ignored, is the model's choice (log entries 8
and 31). -/
def Obligations.ContinueAndHoldAnswerCheckpoint : Prop :=
  ∀ (r : Request) (m : ManagerId) (i : SlotId) (s : State), s.QueueSound →
    let v := s.slot i; let w := v.steeredBy m
    (Responds 1 r m i s →
      (v.state = .declared → v.oversize = true → exec (.respContinue r) s = .next (s.replied r ⟨.oversize, []⟩)) ∧
      (v.state = .declared → v.oversize = false →
        ∃ u : State, exec (.respContinue r) s = .next (u.replied r ⟨.done, [byte (u.slot i).state.code]⟩) ∧
          QuietEvent i s u ∧ ((u.slot i).state = .queued ∨ (u.slot i).state = .precharge) ∧
          (u.slot i).steering = w.steering ∧ (u.slot i).heldMark = false ∧ (u.slot i).cause = none ∧
          (u.slot i).decl = v.decl ∧ u.posted .state i) ∧
      (v.state = .powered →
        ∃ u : State, exec (.respContinue r) s = .next (u.replied r ⟨.done, [byte (u.slot i).state.code]⟩) ∧
          QuietEvent i s u ∧ u.posted .state i ∧
          (v.policy = .supervised → Entered .listen s.timers w (u.slot i) ∧ u.heldGroups i = s.heldGroups i ∧
            u.posted .checkpoint i) ∧
          (v.policy = .auto → AutoListens i v.decl s u))) ∧
    (Responds 2 r m i s →
      (v.state = .declared → ∃ u : State, exec (.respHold r) s = .next (u.replied r ⟨.done, [3]⟩) ∧ QuietEvent i s u ∧
        u.slot i = { w with heldMark := true } ∧ (∀ z, u.zone z = s.zone z) ∧ u.map = s.map ∧ u.block = s.block) ∧
      (∀ d, v.state = .queued → v.decl = some d →
        ∃ u : State, exec (.respHold r) s = .next (u.replied r ⟨.done, [3]⟩) ∧ QuietEvent i s u ∧
          (u.slot i).state = .declared ∧ (u.slot i).heldMark = true ∧ (u.slot i).decl = some d ∧
          (u.slot i).steering = w.steering ∧ (u.slot i).cause = none ∧ u.inQueue i = false ∧ u.posted .state i ∧
          u.posted .checkpoint i))

/-- The responses that move a slot, each in the states that permit it (R163, Table 10-4), and FORCE_RETIRE, which
passes whatever the steering (R147): REJECT bars the slot for REJECTED (R19); ROLLBACK powers it down with the
discharge target DECLARED (R165); JOIN and RETRY take it to JOIN_WAIT and are refused with NO_GROUPS when it holds
none (R20, R23); RETIRE_RESPONSE powers it down (R23); QUIESCED and FORCE_RETIRE take it to LEAVE_WAIT (R147) and
CANCEL back to LIVE (R148). Parameters beyond the response are ignored: the model's choice (log entry 8). -/
def Obligations.ResponsesMoveSlot : Prop :=
  ∀ (r : Request) (m : ManagerId) (i : SlotId) (s : State), s.QueueSound →
    let v := s.slot i; let w := v.steeredBy m
    (Responds 3 r m i s → v.state = .declared →
      ∃ u : State, exec (.respReject r) s = .next (u.replied r ⟨.done, [17]⟩) ∧ QuietEvent i s u ∧
        Entered .barred s.timers { w with cause := some .rejected } (u.slot i) ∧ u.heldGroups i = 0 ∧
        u.posted .fault i ∧ u.posted .state i) ∧
    (Responds 4 r m i s → (v.state = .powered ∨ v.state = .listen) →
      ∃ u : State, exec (.respRollback r) s = .next (u.replied r ⟨.accepted, [15]⟩) ∧ QuietEvent i s u ∧
        Entered .poweringDown s.timers w { u.slot i with target := .released } ∧ (u.slot i).target = .declared ∧
        u.heldGroups i = 0 ∧ u.posted .state i) ∧
    (∀ c ∈ [(5, Instr.respJoin r, SlotState.listen), (6, Instr.respRetry r, SlotState.reverted)],
      Responds c.1 r m i s → v.state = c.2.2 →
      (s.heldGroups i = 0 → exec c.2.1 s = .next (s.replied r ⟨.noGroups, []⟩)) ∧
      (s.heldGroups i ≠ 0 → ∃ u : State, exec c.2.1 s = .next (u.replied r ⟨.accepted, [8]⟩) ∧ QuietEvent i s u ∧
        Entered .joinWait s.timers w (u.slot i) ∧ u.heldGroups i = s.heldGroups i ∧ ⟨i, .join⟩ ∈ u.block.list ∧
        u.posted .state i)) ∧
    (Responds 7 r m i s → v.state = .reverted →
      ∃ u : State, exec (.respRetire r) s = .next (u.replied r ⟨.accepted, [15]⟩) ∧ QuietEvent i s u ∧
        Entered .poweringDown s.timers w (u.slot i) ∧ u.heldGroups i = 0 ∧ u.posted .state i) ∧
    (Responds 8 r m i s → v.state = .draining →
      ∃ u : State, exec (.respQuiesced r) s = .next (u.replied r ⟨.accepted, [13]⟩) ∧ QuietEvent i s u ∧
        Entered .leaveWait s.timers w (u.slot i) ∧ ⟨i, .leave⟩ ∈ u.block.list ∧ u.heldGroups i = s.heldGroups i ∧
        u.posted .state i) ∧
    (Responds 9 r m i s → v.state = .draining →
      ∃ u : State, exec (.respCancel r) s = .next (u.replied r ⟨.done, [10]⟩) ∧ QuietEvent i s u ∧
        Entered .live s.timers w (u.slot i) ∧ u.heldGroups i = s.heldGroups i ∧ u.posted .state i) ∧
    (Names r m i s → v.state = .draining →
      ∃ u : State, exec (.forceRetire r) s = .next (u.replied r ⟨.accepted, [13]⟩) ∧ QuietEvent i s u ∧
        Entered .leaveWait s.timers w (u.slot i) ∧ ⟨i, .leave⟩ ∈ u.block.list ∧ u.heldGroups i = s.heldGroups i ∧
        u.posted .state i)

/-- ASSIGN_GROUPS and RELEASE_GROUPS of a listed set, whose parameters are its 1 to 8 distinct group numbers, byte b for group
b (R112, Table 11-4). Outside LIVE they take effect at once: an AUTO slot that
gains its first groups in LISTEN or at the end of its backoff goes to JOIN_WAIT, and a JOIN_WAIT slot left with none
goes back to LISTEN (R113), where an AUTO one is given the free groups of its preferred list, its own released ones
among them, and goes on with them (R115). In LIVE the new transmit set becomes the pending regroup, which waits in the change list,
or takes it back when it equals the present set; a waiting addition that is released is freed at once (R114). What
becomes of an AUTO slot left without groups rests on log entry 13. -/
def Obligations.GroupsAreGivenAndTaken : Prop :=
  ∀ (r : Request) (m : ManagerId) (i : SlotId) (s : State) (gs : GroupSet), ToSlot r m i s → s.QueueSound →
    ListsGroups r.params gs → (s.slot i).state.takesGroups = true → (s.slot i).undoWait = false →
    s.holdsWindow i = false →
    let v := s.slot i; let held := s.heldGroups i; let wanted := v.lane.pending.getD v.lane.transmit
    let regrouped : State → GroupSet → Prop := fun u new =>
      if new = v.lane.transmit then
        u.slot i = { v with lane := { v.lane with pending := none } } ∧ ∀ x ∈ u.block.list, x.slot ≠ i
      else u.slot i = { v with lane := { v.lane with pending := some new } } ∧
        (v.lane.pending = none → ⟨i, .regroup⟩ ∈ u.block.list)
    ((∀ g : GroupId, gs.mem g = true → s.map[g.val] = none ∨ s.map[g.val] = some i) → groupCount (held ||| gs) ≤ 8 →
      ∃ u : State, QuietEvent i s u ∧ u.heldGroups i = held ||| gs ∧ u.posted .state i ∧
        (v.state ≠ .live → exec (.assignGroups r) s = .next (u.replied r ⟨.done, groupBytes (held ||| gs)⟩) ∧
          (held = 0 ∧ v.policy = .auto ∧ (v.state = .listen ∨ (v.state = .reverted ∧ v.backoffTimer = .stopped)) →
            Entered .joinWait s.timers v (u.slot i) ∧ ⟨i, .join⟩ ∈ u.block.list) ∧
          (¬ (held = 0 ∧ v.policy = .auto ∧ (v.state = .listen ∨ (v.state = .reverted ∧ v.backoffTimer = .stopped))) →
            u.slot i = v ∧ u.block = s.block)) ∧
        (v.state = .live → regrouped u (wanted ||| gs) ∧ exec (.assignGroups r) s = .next (u.replied r
          ⟨if (u.slot i).lane.pending = none then .done else .accepted, groupBytes (held ||| gs) ++
            groupBytes v.lane.transmit ++ groupBytes ((u.slot i).lane.pending.getD 0)⟩))) ∧
    (gs &&& ~~~held = 0 →
      (v.state ≠ .live → ∃ u : State, QuietEvent i s u ∧ u.posted .state i ∧
        exec (.releaseGroups r) s = .next (u.replied r ⟨.done, groupBytes (u.heldGroups i)⟩) ∧
        (v.state ≠ .joinWait ∨ held &&& ~~~gs ≠ 0 → u.slot i = v ∧ u.block = s.block ∧
          u.heldGroups i = held &&& ~~~gs) ∧
        (v.state = .joinWait → held &&& ~~~gs = 0 →
          (v.policy = .supervised → Entered .listen s.timers v (u.slot i) ∧ u.heldGroups i = 0 ∧
            (∀ x ∈ u.block.list, x.slot ≠ i)) ∧
          (v.policy = .auto → AutoListens i v.decl (s.freeSet i gs) u ∧
            (u.heldGroups i = 0 → ∀ x ∈ u.block.list, x.slot ≠ i)))) ∧
      (v.state = .live → wanted &&& ~~~gs = 0 →
        exec (.releaseGroups r) s = .next (s.replied r ⟨.noGroups, []⟩)) ∧
      (v.state = .live → wanted &&& ~~~gs ≠ 0 → ∃ u : State, QuietEvent i s u ∧ u.posted .state i ∧
        u.heldGroups i = held &&& ~~~(gs &&& ~~~v.lane.transmit) ∧ regrouped u (wanted &&& ~~~gs) ∧
        exec (.releaseGroups r) s = .next (u.replied r
          ⟨if (u.slot i).lane.pending = none then .done else .accepted, groupBytes (u.heldGroups i) ++
            groupBytes v.lane.transmit ++ groupBytes ((u.slot i).lane.pending.getD 0)⟩)))

/-- RETIRE by slot state (R144, Table 9-1): a slot without power goes to RELEASED, one powered but not yet LIVE to
POWERING_DOWN, a LIVE one to DRAINING, and the holder of the change window keeps the retirement pending (R6); a slot
under way is answered DONE, and one that cannot be retired WRONG_STATE. An ORPHANED slot drains or powers down by its
lanes (R27). A slot whose undo the next sample judges is refused (R124). A RETIRE that is taken gives its sender
the steering of a slot that has none, but for one in LIVE that only sets retire pending (R159, Table 10-3). That one which finds
a retirement under way (JOIN_OBSERVE with retire pending set, DRAINING, LEAVE_WAIT, LEAVE_OBSERVE, POWERING_DOWN) gives the
steering too, in LEAVE_OBSERVE beside the "no effect" of R149, and that one in LIVE which finds retire pending set gives none, is
the model's choice (log entry 31); so is that parameters are ignored (log entry 8). Where the mark of a pending retirement is
cleared rests on log entry 12. -/
def Obligations.RetireActsByState : Prop :=
  ∀ (r : Request) (m : ManagerId) (i : SlotId) (s : State), ToSlot r m i s → s.QueueSound →
    let v := s.slot i; let w := v.steeredBy m
    let moves : SlotState → Slot → Completion → Prop := fun st from_ c =>
      ∃ u : State, exec (.retire r) s = .next (u.replied r ⟨c, [byte st.code]⟩) ∧ QuietEvent i s u ∧
        Entered st s.timers from_ (u.slot i) ∧ u.posted .state i ∧ (st.groupless = true → u.heldGroups i = 0)
    let stays : Slot → Completion → Prop := fun new c =>
      ∃ u : State, exec (.retire r) s = .next (u.replied r ⟨c, [byte v.state.code]⟩) ∧ QuietEvent i s u ∧
        u.slot i = new ∧ u.map = s.map ∧ u.block = s.block
    match v.state with
    | .present | .declared | .queued => moves .released w .done
    | .precharge | .powered | .listen | .joinWait | .reverted => moves .poweringDown w .accepted
    | .joinObserve =>
      if v.undoWait then exec (.retire r) s = .next (s.replied r ⟨.wrongState, []⟩)
      else if v.retirePending then stays w .done
      else stays { w with retirePending := true, origin := some .manager } .accepted
    | .live =>
      if v.undoWait then exec (.retire r) s = .next (s.replied r ⟨.wrongState, []⟩)
      else if s.holdsWindow i then
        if v.retirePending then stays v .done else stays { v with retirePending := true, origin := some .manager } .accepted
      else moves .draining { w with origin := some .manager } .accepted
    | .draining | .leaveWait | .leaveObserve => stays w .done
    | .poweringDown => stays { w with target := .released } .done
    | .orphaned =>
      if v.lane.commanded = .joined then moves .draining { w with origin := some .manager } .accepted
      else moves .poweringDown w .accepted
    | .empty | .seating | .released | .barred => exec (.retire r) s = .next (s.replied r ⟨.wrongState, []⟩)

/-- RETIRE_SELF by slot state: a LIVE slot drains, the holder of the change window keeps the retirement pending, a
slot under way is answered DONE, and any other WRONG_STATE (R6, R143). UNBAR of a BARRED slot discards the declaration
and the attempts, and takes it to PRESENT, or to RELEASED with its handle OPEN; in any other state it is refused
(R26). The handle level is the one last handed on, and parameters are ignored: the model's choice (log entries 8 and
10). -/
def Obligations.RetireSelfAndUnbar : Prop :=
  ∀ (r : Request) (i : SlotId) (s : State), s.QueueSound → let v := s.slot i
    (FromBlade r i s →
      let stays : Slot → Completion → Prop := fun new c =>
        ∃ u : State, exec (.retireSelf r) s = .next (u.replied r ⟨c, [byte v.state.code]⟩) ∧ QuietEvent i s u ∧
          u.slot i = new ∧ u.map = s.map ∧ u.block = s.block
      let refused := exec (.retireSelf r) s = .next (s.replied r ⟨.wrongState, []⟩)
      match v.state with
      | .live =>
        if v.undoWait then refused
        else if s.holdsWindow i then
          if v.retirePending then stays v .done else stays { v with retirePending := true, origin := some .blade } .accepted
        else ∃ u : State, exec (.retireSelf r) s = .next (u.replied r ⟨.accepted, [12]⟩) ∧ QuietEvent i s u ∧
          Entered .draining s.timers { v with origin := some .blade } (u.slot i) ∧ u.posted .state i ∧
          u.posted .checkpoint i
      | .joinObserve =>
        if v.undoWait then refused
        else if v.retirePending then stays v .done
        else stays { v with retirePending := true, origin := some .blade } .accepted
      | .draining | .leaveWait | .leaveObserve | .poweringDown => stays v .done
      | .empty | .seating | .present | .declared | .queued | .precharge | .powered | .listen | .joinWait | .reverted
      | .released | .barred | .orphaned => refused) ∧
    (∀ m, ToSlot r m i s →
      (v.state ≠ .barred → exec (.unbar r) s = .next (s.replied r ⟨.wrongState, []⟩)) ∧
      (v.state = .barred →
        let st : SlotState := if v.handleClosed then .present else .released
        ∃ u : State, exec (.unbar r) s = .next (u.replied r ⟨.done, [byte st.code]⟩) ∧ QuietEvent i s u ∧
          Entered st s.timers { v with decl := none, oversize := false, clamped := false, attempts := 0 } (u.slot i) ∧
          u.posted .state i))

/-- DECLARE of a usable declaration in PRESENT and DECLARED: it is recorded as repaired, tested for OVERSIZE, and an
AUTO slot that nothing blocks goes on to QUEUED; any other waits in DECLARED (R47 to R55). The fields are those of the bytes
sent (Table 11-2), the capacitance limited to 1 to 400 and the preferred list cut to the first `n_g` of its distinct group
numbers, CLAMPED when either differs from what was sent (R49 to R51), and every DECLARE whose content R48 does not refuse is
usable. The reply carries the state after the event, the flags and the reservation (R59). -/
def Obligations.DeclarationIsRecorded : Prop :=
  (∀ params : List Byte, let power := (params.getD 1 0).toNat * 256 + (params.getD 2 0).toNat
    16 ≤ params.length → (params.getD 0 0).toNat ≤ 3 → 1 ≤ power → power ≤ 800 → (params.getD 5 0).toNat ≤ 8 →
    ∃ d clamped, Declares params d clamped) ∧
  ∀ (r : Request) (i : SlotId) (s : State) (d : Declaration) (clamped : Bool), FromBlade r i s → s.QueueSound →
    Declares r.params d clamped →
    let v := s.slot i; let z := s.zone (zoneOf i); let reservation := reservationFor d.power z.margin
    let tooBig := decide (min z.capA z.capB < reservation + inrushFor z.current)
    v.state = .present ∨ v.state = .declared →
    ∃ u : State, exec (.declare r) s = .next (u.replied r
        ⟨.done, [byte (u.slot i).state.code, byte ((if tooBig then 1 else 0) + (if clamped then 2 else 0))] ++
          bytes2 reservation⟩) ∧
      QuietEvent i s u ∧ (u.slot i).decl = some d ∧ (u.slot i).clamped = clamped ∧ (u.slot i).oversize = tooBig ∧
      d.Ranged ∧ u.posted .state i ∧
      (v.policy = .auto → tooBig = false → v.heldMark = false → v.cause ≠ some .zoneDark → (u.slot i).state = .queued ∨ (u.slot i).state = .precharge) ∧
      (v.policy = .supervised ∨ tooBig = true ∨ v.heldMark = true →
        (u.slot i).state = .declared ∧ (u.slot i).heldMark = v.heldMark ∧ (u.slot i).cause = v.cause ∧
        (u.slot i).declareTimer = if v.state = .present then .stopped else v.declareTimer) ∧
      (v.policy = .supervised → u.posted .checkpoint i)

/-- DECLARE of a usable declaration (R48 to R51, Table 11-2) in LIVE takes a new reservation that the zone's headroom covers and refuses any
other with NO_HEADROOM (R56, R57); in ORPHANED it takes the slot to the state of its lanes with the reservation
computed and its attempts 0, an AUTO slot goes on through CP-P and CP-L (R20, R115), and the effect of an OPEN handle
follows: POWERING_DOWN from POWERED, LISTEN and
JOIN_WAIT, with no CHECKPOINT notice for a state passed through, and DRAINING with origin HANDLE from LIVE (R27,
R58). The handle level is the one last handed on: the model's choice (log entry 10). -/
def Obligations.DeclarationOfPoweredSlot : Prop :=
  ∀ (r : Request) (i : SlotId) (s : State) (d : Declaration) (clamped : Bool), FromBlade r i s → s.QueueSound →
    s.Booked → Declares r.params d clamped →
    let v := s.slot i; let z := s.zone (zoneOf i); let reservation := reservationFor d.power z.margin
    let flags := byte (if clamped then 2 else 0)
    (v.state = .live → v.undoWait = false →
      (v.reservation + z.headroom < reservation → exec (.declare r) s = .next (s.replied r
        ⟨.noHeadroom, bytes2 reservation ++ bytes2 z.headroom⟩)) ∧
      (reservation ≤ v.reservation + z.headroom → ∃ u : State, exec (.declare r) s = .next (u.replied r
          ⟨.done, [10, flags] ++ bytes2 reservation⟩) ∧ QuietEvent i s u ∧
        u.slot i = { v with decl := some d, clamped := clamped, oversize := false, reservation := reservation } ∧
        u.map = s.map ∧ u.posted .state i ∧ (u.zone (zoneOf i)).reserved = u.reservations (zoneOf i))) ∧
    (v.state = .orphaned → ∃ u : State, exec (.declare r) s = .next (u.replied r
        ⟨.done, [byte (u.slot i).state.code, flags] ++ bytes2 reservation⟩) ∧ QuietEvent i s u ∧
      (u.slot i).decl = some d ∧ u.posted .state i ∧
      let taken : Slot :=
        { v with decl := some d, clamped := clamped, oversize := false, attempts := 0, reservation := reservation }
      (v.handleClosed = true → v.lane.commanded = .joined → Entered .live s.timers taken (u.slot i) ∧
        u.heldGroups i = s.heldGroups i) ∧
      (v.handleClosed = true → v.policy = .supervised → v.lane.commanded = .listen →
        Entered .listen s.timers taken (u.slot i) ∧ u.posted .checkpoint i) ∧
      (v.handleClosed = true → v.policy = .supervised → (v.lane.commanded = .openMode ∨ v.lane.commanded = .biased) →
        Entered .powered s.timers taken (u.slot i) ∧ u.posted .checkpoint i) ∧
      (v.handleClosed = true → v.policy = .auto → v.lane.commanded ≠ .joined →
        (u.slot i).reservation = reservation ∧ AutoListens i (some d) s u) ∧
      (v.handleClosed = false → v.lane.commanded ≠ .joined → (u.slot i).state = .poweringDown ∧
        (u.slot i).reservation = 0 ∧ u.heldGroups i = 0 ∧
        ∀ m, u.hasSlotNotice m .checkpoint i ↔ s.hasSlotNotice m .checkpoint i) ∧
      (v.handleClosed = false → v.lane.commanded = .joined → s.holdsWindow i = false →
        Entered .draining s.timers { taken with origin := some .handle, steering := none } (u.slot i) ∧
        u.heldGroups i = s.heldGroups i ∧ u.posted .checkpoint i))

/-! ## The bus ports (chapter 11) -/

/-- The bytes of a request frame are read as its tag, code, slot and parameters, and name the command of its code
(Tables 11-1 and 11-4). The commands of a bus port outside the requests (R167, R169 to R172), with the acknowledges
they give: a whole frame with a wrong length or check byte is answered BAD_CHECK and counted; an unknown sender or
code is answered UNKNOWN_REQUEST, or SURVEYING where the code is that of a request other than a read and the survey runs (R170,
R178) or has ended since the last tick (log entry 29); a frame broken off is a bus error, nothing held; an empty write drops the held
reply; a read sends it with 0xFF past its end; a STOP or START drops it or begins its read, and a START in IDLE begins
a write; a START in RECEIVING breaks off the frame, with the address of another device too, which changes nothing in
any other state; a STOP drops a held reply in a transaction with another device too; a line held low is reported once as a bus
error with a BUS notice, which the survey holds back. The row of a RESPOND without a known code (log entry
7), that a START for another device leaves a held reply, and what of such a transaction reaches the port (log entry 27), the
SURVEYING answer between SURVEY_DONE and the next tick (log entry 29), that the acknowledges kept are those of the
latest command (log entry 6), and that one reset serves both lines of a port (log entry 33), are the model's choice. -/
def Obligations.BusPortsTakeFrames : Prop :=
  (∀ (code : Byte) (r : Request), r.params.length ≤ 24 →
    let f := r.frame code
    let reads : Instr → Prop := fun x => frameCommand r.port r.addr f.bytes r.ending r.delay = x
    f.bytes.length = 5 + r.params.length ∧ byteSum f.bytes = 0 ∧ requestFrame? f.bytes = some f ∧
    (unknownTo code r.tag = true → reads (.unknownRequest code r)) ∧
    (unknownTo code r.tag = false →
      (∀ y ∈ [((0x01 : Byte), Instr.readSlot r), (0x02, .readZone r), (0x03, .readShelf r), (0x04, .readNotices r),
          (0x05, .setNoticeMask r), (0x06, .refresh r), (0x07, .setZone r), (0x08, .setSlotPolicy r),
          (0x0A, .assignGroups r), (0x0B, .releaseGroups r), (0x0C, .retire r), (0x0D, .forceRetire r),
          (0x0E, .adopt r), (0x0F, .unbar r), (0x10, .setObservation r), (0x11, .setTimers r), (0x12, .setMonitor r),
          (0x13, .readMonitor r), (0x14, .clearMonitor r), (0x15, .unfreeze r), (0x20, .declare r),
          (0x21, .retireSelf r)], code = y.1 → reads y.2) ∧
      (∀ y ∈ [((1 : Byte), Instr.respContinue r), (2, .respHold r), (3, .respReject r), (4, .respRollback r),
          (5, .respJoin r), (6, .respRetry r), (7, .respRetire r), (8, .respQuiesced r), (9, .respCancel r)],
        code = 0x09 → r.params.head? = some y.1 → reads y.2))) ∧
  ∀ (s : State) (p : Port),
    let v := s.port p
    let wrote : Nat → List Bool := fun n => (if v.state = .receiving then [] else [true]) ++ List.replicate n true
    let kept : State → Prop := fun t => t.slots = s.slots ∧ (∀ z, t.zone z = s.zone z) ∧ t.map = s.map ∧
      t.block = s.block ∧ t.ref = s.ref ∧ t.timers = s.timers ∧
      (∀ q, q ≠ p → t.port q = s.port q) ∧ (∀ m, (t.manager m).quiet = (s.manager m).quiet) ∧
      (∀ m k i, t.hasSlotNotice m k i ↔ s.hasSlotNotice m k i)
    let turns : Instr → BusPort → Prop := fun c w => ∃ t, exec c s = .next t ∧ kept t ∧ t.port p = w ∧ t.bank = s.bank
    let error : Vector Nat 12 := (s.count (match p with | .a => .busErrorA | .b => .busErrorB) 1).bank.totals
    let breaks : Instr → BusPort → Prop := fun c w =>
      ∃ t, exec c s = .next t ∧ kept t ∧ t.port p = w ∧ t.bank = { s.bank with totals := error }
    let clear : BusPort := { v with state := .idle, frame := [], reply := [] }
    (∀ bytes ending, wholeFrame bytes = true → goodFrame bytes = false →
      ∃ t, exec (.badCheckFrame p s.busAddress bytes ending) s = .next t ∧ kept t ∧
        t.port p = BusPort.answer ending bytes.length ⟨.badCheck, []⟩ v ∧ t.bank = (s.count .checkFail 1).bank) ∧
    (∀ code r, Received r s → unknownTo code r.tag = true → exec (.unknownRequest code r) s = .next (s.replied r
      ⟨if (s.survey.running ∨ s.survey.closing) ∧ code ∈ otherRequestCodes then .surveying else .unknownRequest, []⟩)) ∧
    (∀ bytes ev, wholeFrame bytes = false → (bytes ≠ [] ∨ ev ≠ .stop) →
      breaks (.busError p s.busAddress bytes ev) { clear with
        state := if ev = .startWrite then .receiving else .idle
        acks := wrote bytes.length ++
          match ev with | .stop => [] | .startWrite => [true] | .startRead => [false] | .startOther => [] }) ∧
    turns (.emptyWrite p s.busAddress) { clear with acks := wrote 0 } ∧
    (∀ n, v.state = .holding ∨ v.state = .sending →
      ∃ t, exec (.replyRead p s.busAddress n) s = .next t ∧ kept t ∧ t.bank = s.bank ∧
        t.port p = { clear with sent := (t.port p).sent, acks := if v.state = .holding then [true] else [] } ∧
        (t.port p).sent.length = n ∧ ∀ k, k < n → (t.port p).sent[k]? = some (v.reply.getD k 0xFF)) ∧
    (∀ n, v.state = .idle → turns (.replyRead p s.busAddress n) { clear with acks := [false] }) ∧
    (v.state = .idle ∨ v.state = .holding ∨ v.state = .sending →
      (∀ a, turns (.replyDiscard p a .stop) { clear with acks := [] }) ∧
      turns (.replyDiscard p s.busAddress .startWrite) { clear with state := .receiving, acks := [true] } ∧
      (v.state ≠ .holding → turns (.replyDiscard p s.busAddress .startRead) { clear with acks := [false] })) ∧
    (v.state = .holding →
      turns (.replyDiscard p s.busAddress .startRead) { v with state := .sending, acks := [true] }) ∧
    (v.state = .receiving → (∀ a, turns (.replyDiscard p a .stop) { clear with acks := [] }) ∧
      breaks (.replyDiscard p s.busAddress .startWrite) { clear with state := .receiving, acks := [true] } ∧
      breaks (.replyDiscard p s.busAddress .startRead) { clear with acks := [false] } ∧
      ∀ n, breaks (.replyRead p s.busAddress n) { clear with acks := [false] }) ∧
    (∀ (a : BitVec 7) (bytes inside : List Byte) (n d : Nat), a ≠ s.busAddress → wholeFrame bytes = true →
      wholeFrame inside = false →
      (∀ c ∈ [Instr.emptyWrite p a, frameCommand p a bytes .stop d] ++
          (if inside = [] then [] else [.busError p a inside .stop]),
        (v.state = .receiving → breaks c { clear with acks := [] }) ∧
        (v.state = .idle ∨ v.state = .holding ∨ v.state = .sending → turns c { clear with acks := [] })) ∧
      (∀ c ∈ [Instr.replyDiscard p a .startWrite, .replyDiscard p a .startRead, .replyDiscard p a .startOther,
          .replyRead p a n, .busError p a inside .startOther] ++
          [FrameEnd.hold, .read, .write].map (fun e => frameCommand p a bytes e d),
        (v.state = .receiving → breaks c { clear with acks := [] }) ∧ (v.state ≠ .receiving → exec c s = .next s)) ∧
      (v.state = .receiving →
        breaks (.busError p a inside .startWrite) { clear with state := .receiving, acks := [true] } ∧
        breaks (.busError p a inside .startRead) { clear with acks := [false] }) ∧
      (v.state ≠ .receiving → ∀ ev, ev = .startWrite ∨ ev = .startRead →
        exec (.busError p a inside ev) s = exec (.replyDiscard p s.busAddress ev) s)) ∧
    (v.stuck = true → ∃ t, exec (.stuckLineReset p) s = .next t ∧ kept t ∧ (t.port p).reply = [] ∧
      (t.port p).state = .idle ∧ (t.port p).stuck = false ∧
      t.bank = { s.bank with totals := error } ∧
      (s.survey.running = false → t.postedShelf .bus) ∧
      (s.survey.running = true → t.survey.heldBus = true ∧ ∀ m, t.manager m = s.manager m))

/-- A reply frame is its completion code, the number of its data bytes, the data and a check byte that makes the 8-bit
sum of its bytes 0; a port that ends a transaction with a repeated start holds it or sends it, and drops it after a
STOP or a START for a write. It acknowledges the write address, unless it took it before, each byte written, and a
read address that ends the frame, but no write address there; the clock stretch before a reply that is read while it
is being built starts the low-tick counts of its lines again (R167, R169, R171, R172, Table 11-1). That a request and its
reply are one command, which keeps its own acknowledges, is the model's choice (log entry 6). -/
def Obligations.ReplyFrameSumsToZero : Prop :=
  ∀ (p : Reply) (v : BusPort) (n : Nat), p.frame.length = p.data.length + 3 ∧ byteSum p.frame = 0 ∧
    p.frame[0]? = some p.code.code ∧ (p.data.length < 256 → p.frame[1]?.map (·.toNat) = some p.data.length) ∧
    (∀ k, k < p.data.length → p.frame[k + 2]? = p.data[k]?) ∧
    ∀ e, let w := BusPort.answer e n p v
      w.reply = (match e with | .hold => p.frame | .read => p.frame | .stop => [] | .write => []) ∧
      w.state = (match e with | .hold => .holding | .read => .sending | .stop => .idle | .write => .idle) ∧
      w.acks = (if v.state = .receiving then [] else [true]) ++ List.replicate n true ++
        (match e with | .hold => [] | .read => [true] | .stop => [] | .write => [false]) ∧
      let counted : BusLine → BusLine := fun l => if e = .read ∧ l.stuck = false then { l with lowTicks := 0 } else l
      w = { v with
        state := w.state, frame := [], reply := w.reply, acks := w.acks, clock := counted v.clock
        data := counted v.data }

/-- Every request that comes in is answered, and one whose answer is neither DONE nor ACCEPTED changes nothing but its
port. The port and the tests of its sender refuse a request that is no read during the survey, and after it until the
next tick (SURVEYING, R170, R180), one of a manager that is not ACTIVE (NOT_ACTIVE, R158), one on a slot that the
other manager steers (NOT_STEERING, R159), one that names no slot (BAD_PARAM), and a blade's for another slot or without management power (NOT_PRESENT,
R46, R170). The owning block refuses a RESPOND by the slot's state and its response (R163); a DECLARE by state and
content (R47, R48); FORCE_RETIRE and ADOPT by state (R147, R161); ASSIGN_GROUPS and RELEASE_GROUPS by the tests of R112;
and the parameters of SET_ZONE, SET_SLOT_POLICY and the reads that are missing or out of range (R72, R162, R173). The
other refusals stand with the statements of their requests. BAD_PARAM for a shelf request that names a slot, the row that
takes a response code, and that SURVEYING is the answer between SURVEY_DONE and the next tick, are the model's choice (log
entries 7, 9 and 29). -/
def Obligations.RefusedRequestsChangeNothing : Prop :=
  ∀ (r : Request) (s : State), Received r s →
    let refuses : List Instr → Completion → Prop := fun l c => ∀ x ∈ l, exec x s = .next (s.replied r ⟨c, []⟩)
    let onShelf : List Instr := [.setZone r, .setObservation r, .setTimers r, .setMonitor r, .clearMonitor r, .unfreeze r]
    let onSlot : List Instr := [.setSlotPolicy r, .assignGroups r, .releaseGroups r, .retire r, .adopt r, .unbar r]
    let responses : List (Byte × Instr) := [(1, .respContinue r), (2, .respHold r), (3, .respReject r),
      (4, .respRollback r), (5, .respJoin r), (6, .respRetry r), (7, .respRetire r), (8, .respQuiesced r),
      (9, .respCancel r)]
    let answers : Instr → Prop := fun x => ∃ (u : State) (p : Reply), exec x s = .next (u.replied r p) ∧
      (p.code ≠ .done → p.code ≠ .accepted → u = s)
    (∀ x ∈ onShelf ++ onSlot ++ [.readSlot r, .readZone r, .readShelf r, .readNotices r, .readMonitor r,
      .setNoticeMask r, .refresh r, .forceRetire r, .declare r, .retireSelf r], answers x) ∧
    (∀ x ∈ responses, r.params.head? = some x.1 → answers x.2) ∧
    (s.survey.running = true ∨ s.survey.closing = true → refuses
      (onShelf ++ onSlot ++ [.setNoticeMask r, .refresh r, .forceRetire r, .declare r, .retireSelf r]) .surveying) ∧
    (∀ m, FromManager r m s →
      ((s.manager m).state ≠ .active → refuses (onShelf ++ onSlot ++ [.forceRetire r]) .notActive) ∧
      ((s.manager m).state = .active → r.slot ≠ 0 → refuses onShelf .badParam) ∧
      ((s.manager m).state = .active → (r.slot = 0 ∨ 16 < r.slot.toNat) → refuses (.forceRetire r :: onSlot) .badParam)) ∧
    (∀ m, ToShelf r m s →
      (r.params.length < 8 → refuses [.setZone r] .badParam) ∧
      (∀ z a b c d e f x l, r.params = z :: a :: b :: c :: d :: e :: f :: x :: l →
        (z ≠ 1 ∧ z ≠ 2) ∨ 1 < x.toNat → refuses [.setZone r] .badParam)) ∧
    (∀ m, r.tag = managerTag m →
      (r.slot = 0 ∨ 16 < r.slot.toNat → refuses [.readSlot r] .badParam) ∧
      (∀ (i : SlotId) (b : Byte), r.slot.toNat = i.val + 1 → r.params.head? = some b → b ≠ 1 → b ≠ 2 →
        refuses [.readSlot r] .badParam) ∧
      (r.slot ≠ 0 → refuses [.readZone r, .readShelf r, .readNotices r, .readMonitor r] .badParam) ∧
      (r.slot = 0 → r.params.head? ≠ some 1 → r.params.head? ≠ some 2 → refuses [.readZone r] .badParam ∧
        (r.params ≠ [] → r.params.head? ≠ some 3 → refuses [.readShelf r] .badParam))) ∧
    (∀ m i, Names r m i s →
      ((s.slot i).steering = some (ManagerId.other m) → refuses onSlot .notSteering) ∧
      ((s.slot i).state ≠ .draining → refuses [.forceRetire r] .wrongState)) ∧
    (∀ i : SlotId, r.tag.toNat = 0x11 + i.val → (r.slot.toNat ≠ i.val + 1 ∨ (s.slot i).mgmtPower = false) →
      refuses [.readSlot r] .notPresent ∧
      (s.survey.running = false → s.survey.closing = false → refuses [.declare r, .retireSelf r] .notPresent)) ∧
    (∀ i, FromBlade r i s → let v := s.slot i
      let takes := v.state ∈ [.present, .declared, .orphaned] ∨ (v.state = .live ∧ v.undoWait = false)
      (¬ takes → refuses [.declare r] .wrongState) ∧ (takes → r.params.length < 16 → refuses [.declare r] .badParam) ∧
      (takes → ∀ cls pHi pLo cHi cLo n l, r.params = cls :: pHi :: pLo :: cHi :: cLo :: n :: l → 10 ≤ l.length →
        3 < cls.toNat ∨ pHi.toNat * 256 + pLo.toNat = 0 ∨ 800 < pHi.toNat * 256 + pLo.toNat ∨ 8 < n.toNat →
        refuses [.declare r] .badDeclaration)) ∧
    (∀ m i, ToSlot r m i s → let v := s.slot i; let held := s.heldGroups i
      let both : List Instr := [.assignGroups r, .releaseGroups r]
      let takes := v.state ∈ [.declared, .queued, .precharge, .powered, .listen, .joinWait, .joinObserve, .live, .reverted] ∧
        v.undoWait = false
      (v.state ∈ [.empty, .seating, .live, .released, .barred] → refuses [.adopt r] .wrongState) ∧
      (r.params.length < 2 → refuses [.setSlotPolicy r] .badParam) ∧
      (∀ p o l, r.params = p :: o :: l → 1 < p.toNat ∨ (3 < o.toNat ∧ o ≠ 0xFF) → refuses [.setSlotPolicy r] .badParam) ∧
      (¬ takes → refuses both .wrongState) ∧ (takes → s.holdsWindow i = true → refuses both .busyOther) ∧
      (takes → s.holdsWindow i = false →
        (r.params = [] ∨ 8 < r.params.length ∨ ¬ r.params.Nodup ∨ (∃ b ∈ r.params, b = 0 ∨ 32 < b.toNat) →
          refuses both .badParam) ∧
        ∀ gs, ListsGroups r.params gs →
          ((∃ (g : GroupId) (j : SlotId), gs.mem g = true ∧ s.map[g.val] = some j ∧ j ≠ i) →
            refuses [.assignGroups r] .groupTaken) ∧
          ((∀ g : GroupId, gs.mem g = true → s.map[g.val] = none ∨ s.map[g.val] = some i) →
            8 < groupCount (held ||| gs) → refuses [.assignGroups r] .badParam) ∧
          (gs &&& ~~~held ≠ 0 → refuses [.releaseGroups r] .badParam))) ∧
    (∀ m i, ToSlot r m i s → (∀ b, r.params.head? = some b → b = 0 ∨ 9 < b.toNat) →
      refuses (responses.map (·.2)) .badParam) ∧
    (∀ c ∈ responses, r.params.head? = some c.1 →
      (s.survey.running = true ∨ s.survey.closing = true → refuses [c.2] .surveying) ∧
      (∀ m, FromManager r m s →
        ((s.manager m).state ≠ .active → refuses [c.2] .notActive) ∧
        ((s.manager m).state = .active → (r.slot = 0 ∨ 16 < r.slot.toNat) → refuses [c.2] .badParam)) ∧
      (∀ m i, Names r m i s → (s.slot i).steering = some (ManagerId.other m) → refuses [c.2] .notSteering) ∧
      (∀ m i, ToSlot r m i s →
        ((s.slot i).state ∉ [.declared, .queued, .powered, .listen, .reverted, .draining] → refuses [c.2] .wrongState) ∧
        ((s.slot i).state ∈ [.declared, .queued, .powered, .listen, .reverted, .draining] →
          (c.1, (s.slot i).state) ∉ [((1 : Byte), SlotState.declared), (1, .powered), (2, .declared), (2, .queued),
            (3, .declared), (4, .powered), (4, .listen), (5, .listen), (6, .reverted), (7, .reverted), (8, .draining),
            (9, .draining)] →
          refuses [c.2] .wrongResponse)))

/-! ## What every step keeps -/

/-- The machine after reset meets every invariant stated below (R178). -/
def Obligations.ResetIsSound : Prop :=
  State.reset.SlotsSound ∧ State.reset.Booked ∧ State.reset.Ranged ∧ State.reset.Steered ∧ State.reset.QueueSound ∧
    State.reset.ListSound ∧ State.reset.GroupsSound ∧ State.reset.ChannelSound ∧ State.reset.LanesSound ∧
    State.reset.AttemptsSound

/-- Every step keeps each slot's power path, management power, phase and timers in agreement with its state, and its
switch latches too from the classification on (R8, R9, R11, Table 1-4); and no slot in a state without groups holds
one (R116). -/
def Obligations.SlotRecordsStaySound : Prop :=
  ∀ s t : State, step s = .next t → (s.SlotsSound → t.SlotsSound) ∧ (s.GroupsSound → t.GroupsSound)

/-- Every step keeps the reserved sum of each zone equal to the sum of its slots' reservations (R63, R65), and every
declaration, reservation, zone setting and precharge record in its range (R66, R72, R88, Table 3-1); so the reserved
sum never passes 8000, nor the reserved sum and the inrush together 8432 (R66). -/
def Obligations.AccountsStaySound : Prop :=
  ∀ s t : State, step s = .next t → (s.Booked → t.Booked) ∧ (s.Ranged → t.Ranged) ∧
    (s.Booked → s.Ranged → ∀ z, (t.zone z).reserved ≤ 8000 ∧ (t.zone z).reserved + (t.zone z).inrush ≤ 8432)

/-- Every step keeps each admission queue to the QUEUED slots of its zone, each once with its effective priority, in the
order of it (R81, R82), and the change list to exactly the slots in JOIN_WAIT and LEAVE_WAIT and the slots with a regroup
pending, which are LIVE, each once, LEAVE entries first (R114, R127, R128). A slot is placed when it enters QUEUED, when the
setting of its override changes its effective priority (R83), and when the first report after the survey opens and closes its
handle, so that it leaves the queue and comes back (R82, R84): it then stands behind every entry of its own or a lower priority
number, but for those placed at the same event, which stand in the order of the slot numbers. All the other entries keep their
order (R84). That the two handle changes of a first report act in turn is the model's choice (log entry 24). -/
def Obligations.QueuesStaySound : Prop :=
  ∀ s t : State, step s = .next t → (s.QueueSound → t.QueueSound) ∧ (s.ListSound → t.ListSound) ∧
    (s.QueueSound →
      let placed : SlotId → Bool := fun i => decide ((s.slot i).state ≠ .queued ∨
        (t.slot i).override ≠ (s.slot i).override ∨
        (s.pending.head? = some (.sampleReport i) ∧ (s.slot i).lines.opensAndCloses = true))
      (∀ i, placed i = true → (t.slot i).state = .queued → let p := (t.slot i).effectivePriority
        ∃ x y, (t.zone (zoneOf i)).queue = x ++ ⟨i, p⟩ :: y ∧ (∀ e ∈ x, e.priority ≤ p) ∧
          ∀ e ∈ y, p < e.priority ∨ (p = e.priority ∧ placed e.slot = true ∧ i < e.slot)) ∧
      ∀ z, ((t.zone z).queue.filter fun e => !placed e.slot).Sublist (s.zone z).queue)

/-- Every step leaves slots steered only by managers that are ACTIVE, and no manager ACTIVE while the survey runs
(R155, R156, R157, R159). -/
def Obligations.SteeringStaysSound : Prop := ∀ s t : State, step s = .next t → s.Steered → t.Steered

/-- Every step keeps each precharge channel held by exactly the slot of its zone that is in PRECHARGE (R88), the lanes
of each slot in the mode that Table 1-3 gives its state, with nothing to transmit outside JOINED (R10), and the
attempt count below 3 but for a slot that is BARRED (R5). -/
def Obligations.ChannelsAndLanesStaySound : Prop :=
  ∀ s t : State, step s = .next t → s.SlotsSound → s.QueueSound → s.ListSound →
    (s.ChannelSound → t.ChannelSound) ∧ (s.LanesSound → t.LanesSound) ∧ (s.AttemptsSound → t.AttemptsSound)

/-- No step admits a slot beyond its zone's effective capacity: wherever a slot goes to PRECHARGE, the reserved sum
and the inrush allowance of the precharge fit in Ceff, the zone is not DARK, and outside PROTECTED the
exposed-admission flag is set (R69, R86). -/
def Obligations.AdmissionStaysWithinBudget : Prop :=
  ∀ s t : State, step s = .next t → s.QueueSound → s.Booked →
    (∀ i, (s.slot i).state ≠ .precharge → (t.slot i).state = .precharge → let z := t.zone (zoneOf i)
      z.reserved + z.inrush ≤ z.ceff ∧ z.protection ≠ .dark ∧ (z.protection = .exposed → z.exposedFlag = true) ∧
      (t.slot i).powerPath = .limited)
end

