-- ==== Sys2Proof/Laws/State.lean ====
section
/-! SUPPORT. One lemma for each field under each update of the state, so that no later proof unfolds a record update; and
what each update does to the field it changes. -/

namespace Sys2Proof.Machine

variable (s : State)

/-! ## `State.setSlot` -/

@[simp] theorem setSlot_pending (i : SlotId) (r : Slot) : (s.setSlot i r).pending = s.pending := rfl
@[simp] theorem setSlot_timers (i : SlotId) (r : Slot) : (s.setSlot i r).timers = s.timers := rfl
@[simp] theorem setSlot_zone1 (i : SlotId) (r : Slot) : (s.setSlot i r).zone1 = s.zone1 := rfl
@[simp] theorem setSlot_zone2 (i : SlotId) (r : Slot) : (s.setSlot i r).zone2 = s.zone2 := rfl
@[simp] theorem setSlot_ref (i : SlotId) (r : Slot) : (s.setSlot i r).ref = s.ref := rfl
@[simp] theorem setSlot_map (i : SlotId) (r : Slot) : (s.setSlot i r).map = s.map := rfl
@[simp] theorem setSlot_block (i : SlotId) (r : Slot) : (s.setSlot i r).block = s.block := rfl
@[simp] theorem setSlot_laneDue (i : SlotId) (r : Slot) : (s.setSlot i r).laneDue = s.laneDue := rfl
@[simp] theorem setSlot_bank (i : SlotId) (r : Slot) : (s.setSlot i r).bank = s.bank := rfl
@[simp] theorem setSlot_managerA (i : SlotId) (r : Slot) : (s.setSlot i r).managerA = s.managerA := rfl
@[simp] theorem setSlot_managerB (i : SlotId) (r : Slot) : (s.setSlot i r).managerB = s.managerB := rfl
@[simp] theorem setSlot_portA (i : SlotId) (r : Slot) : (s.setSlot i r).portA = s.portA := rfl
@[simp] theorem setSlot_portB (i : SlotId) (r : Slot) : (s.setSlot i r).portB = s.portB := rfl
@[simp] theorem setSlot_survey (i : SlotId) (r : Slot) : (s.setSlot i r).survey = s.survey := rfl
@[simp] theorem setSlot_straps (i : SlotId) (r : Slot) : (s.setSlot i r).straps = s.straps := rfl
@[simp] theorem setSlot_freeReads (i : SlotId) (r : Slot) : (s.setSlot i r).freeReads = s.freeReads := rfl
@[simp] theorem setSlot_restartLine (i : SlotId) (r : Slot) : (s.setSlot i r).restartLine = s.restartLine := rfl
@[simp] theorem setSlot_zone (i : SlotId) (r : Slot) (w : ZoneId) : (s.setSlot i r).zone w = s.zone w := by
  cases w <;> rfl
@[simp] theorem setSlot_manager (i : SlotId) (r : Slot) (w : ManagerId) : (s.setSlot i r).manager w = s.manager w := by
  cases w <;> rfl
@[simp] theorem setSlot_port (i : SlotId) (r : Slot) (w : Port) : (s.setSlot i r).port w = s.port w := by
  cases w <;> rfl
@[simp] theorem setSlot_heldGroups (i : SlotId) (r : Slot) (j : SlotId) : (s.setSlot i r).heldGroups j = s.heldGroups j := rfl
@[simp] theorem setSlot_holdsWindow (i : SlotId) (r : Slot) (j : SlotId) : (s.setSlot i r).holdsWindow j = s.holdsWindow j := rfl

/-! ## `State.modSlot` -/

@[simp] theorem modSlot_pending (i : SlotId) (f : Slot → Slot) : (s.modSlot i f).pending = s.pending := rfl
@[simp] theorem modSlot_timers (i : SlotId) (f : Slot → Slot) : (s.modSlot i f).timers = s.timers := rfl
@[simp] theorem modSlot_zone1 (i : SlotId) (f : Slot → Slot) : (s.modSlot i f).zone1 = s.zone1 := rfl
@[simp] theorem modSlot_zone2 (i : SlotId) (f : Slot → Slot) : (s.modSlot i f).zone2 = s.zone2 := rfl
@[simp] theorem modSlot_ref (i : SlotId) (f : Slot → Slot) : (s.modSlot i f).ref = s.ref := rfl
@[simp] theorem modSlot_map (i : SlotId) (f : Slot → Slot) : (s.modSlot i f).map = s.map := rfl
@[simp] theorem modSlot_block (i : SlotId) (f : Slot → Slot) : (s.modSlot i f).block = s.block := rfl
@[simp] theorem modSlot_laneDue (i : SlotId) (f : Slot → Slot) : (s.modSlot i f).laneDue = s.laneDue := rfl
@[simp] theorem modSlot_bank (i : SlotId) (f : Slot → Slot) : (s.modSlot i f).bank = s.bank := rfl
@[simp] theorem modSlot_managerA (i : SlotId) (f : Slot → Slot) : (s.modSlot i f).managerA = s.managerA := rfl
@[simp] theorem modSlot_managerB (i : SlotId) (f : Slot → Slot) : (s.modSlot i f).managerB = s.managerB := rfl
@[simp] theorem modSlot_portA (i : SlotId) (f : Slot → Slot) : (s.modSlot i f).portA = s.portA := rfl
@[simp] theorem modSlot_portB (i : SlotId) (f : Slot → Slot) : (s.modSlot i f).portB = s.portB := rfl
@[simp] theorem modSlot_survey (i : SlotId) (f : Slot → Slot) : (s.modSlot i f).survey = s.survey := rfl
@[simp] theorem modSlot_straps (i : SlotId) (f : Slot → Slot) : (s.modSlot i f).straps = s.straps := rfl
@[simp] theorem modSlot_freeReads (i : SlotId) (f : Slot → Slot) : (s.modSlot i f).freeReads = s.freeReads := rfl
@[simp] theorem modSlot_restartLine (i : SlotId) (f : Slot → Slot) : (s.modSlot i f).restartLine = s.restartLine := rfl
@[simp] theorem modSlot_zone (i : SlotId) (f : Slot → Slot) (w : ZoneId) : (s.modSlot i f).zone w = s.zone w := by
  cases w <;> rfl
@[simp] theorem modSlot_manager (i : SlotId) (f : Slot → Slot) (w : ManagerId) : (s.modSlot i f).manager w = s.manager w := by
  cases w <;> rfl
@[simp] theorem modSlot_port (i : SlotId) (f : Slot → Slot) (w : Port) : (s.modSlot i f).port w = s.port w := by
  cases w <;> rfl
@[simp] theorem modSlot_heldGroups (i : SlotId) (f : Slot → Slot) (j : SlotId) : (s.modSlot i f).heldGroups j = s.heldGroups j := rfl
@[simp] theorem modSlot_holdsWindow (i : SlotId) (f : Slot → Slot) (j : SlotId) : (s.modSlot i f).holdsWindow j = s.holdsWindow j := rfl

/-! ## `State.setSlots` -/

@[simp] theorem setSlots_pending (v : Vector Slot 16) : (s.setSlots v).pending = s.pending := rfl
@[simp] theorem setSlots_timers (v : Vector Slot 16) : (s.setSlots v).timers = s.timers := rfl
@[simp] theorem setSlots_zone1 (v : Vector Slot 16) : (s.setSlots v).zone1 = s.zone1 := rfl
@[simp] theorem setSlots_zone2 (v : Vector Slot 16) : (s.setSlots v).zone2 = s.zone2 := rfl
@[simp] theorem setSlots_ref (v : Vector Slot 16) : (s.setSlots v).ref = s.ref := rfl
@[simp] theorem setSlots_map (v : Vector Slot 16) : (s.setSlots v).map = s.map := rfl
@[simp] theorem setSlots_block (v : Vector Slot 16) : (s.setSlots v).block = s.block := rfl
@[simp] theorem setSlots_laneDue (v : Vector Slot 16) : (s.setSlots v).laneDue = s.laneDue := rfl
@[simp] theorem setSlots_bank (v : Vector Slot 16) : (s.setSlots v).bank = s.bank := rfl
@[simp] theorem setSlots_managerA (v : Vector Slot 16) : (s.setSlots v).managerA = s.managerA := rfl
@[simp] theorem setSlots_managerB (v : Vector Slot 16) : (s.setSlots v).managerB = s.managerB := rfl
@[simp] theorem setSlots_portA (v : Vector Slot 16) : (s.setSlots v).portA = s.portA := rfl
@[simp] theorem setSlots_portB (v : Vector Slot 16) : (s.setSlots v).portB = s.portB := rfl
@[simp] theorem setSlots_survey (v : Vector Slot 16) : (s.setSlots v).survey = s.survey := rfl
@[simp] theorem setSlots_straps (v : Vector Slot 16) : (s.setSlots v).straps = s.straps := rfl
@[simp] theorem setSlots_freeReads (v : Vector Slot 16) : (s.setSlots v).freeReads = s.freeReads := rfl
@[simp] theorem setSlots_restartLine (v : Vector Slot 16) : (s.setSlots v).restartLine = s.restartLine := rfl
@[simp] theorem setSlots_zone (v : Vector Slot 16) (w : ZoneId) : (s.setSlots v).zone w = s.zone w := by
  cases w <;> rfl
@[simp] theorem setSlots_manager (v : Vector Slot 16) (w : ManagerId) : (s.setSlots v).manager w = s.manager w := by
  cases w <;> rfl
@[simp] theorem setSlots_port (v : Vector Slot 16) (w : Port) : (s.setSlots v).port w = s.port w := by
  cases w <;> rfl
@[simp] theorem setSlots_heldGroups (v : Vector Slot 16) (j : SlotId) : (s.setSlots v).heldGroups j = s.heldGroups j := rfl
@[simp] theorem setSlots_holdsWindow (v : Vector Slot 16) (j : SlotId) : (s.setSlots v).holdsWindow j = s.holdsWindow j := rfl

/-! ## `State.setMap` -/

@[simp] theorem setMap_pending (m : Vector (Option SlotId) 32) : (s.setMap m).pending = s.pending := rfl
@[simp] theorem setMap_slots (m : Vector (Option SlotId) 32) : (s.setMap m).slots = s.slots := rfl
@[simp] theorem setMap_timers (m : Vector (Option SlotId) 32) : (s.setMap m).timers = s.timers := rfl
@[simp] theorem setMap_zone1 (m : Vector (Option SlotId) 32) : (s.setMap m).zone1 = s.zone1 := rfl
@[simp] theorem setMap_zone2 (m : Vector (Option SlotId) 32) : (s.setMap m).zone2 = s.zone2 := rfl
@[simp] theorem setMap_ref (m : Vector (Option SlotId) 32) : (s.setMap m).ref = s.ref := rfl
@[simp] theorem setMap_block (m : Vector (Option SlotId) 32) : (s.setMap m).block = s.block := rfl
@[simp] theorem setMap_laneDue (m : Vector (Option SlotId) 32) : (s.setMap m).laneDue = s.laneDue := rfl
@[simp] theorem setMap_bank (m : Vector (Option SlotId) 32) : (s.setMap m).bank = s.bank := rfl
@[simp] theorem setMap_managerA (m : Vector (Option SlotId) 32) : (s.setMap m).managerA = s.managerA := rfl
@[simp] theorem setMap_managerB (m : Vector (Option SlotId) 32) : (s.setMap m).managerB = s.managerB := rfl
@[simp] theorem setMap_portA (m : Vector (Option SlotId) 32) : (s.setMap m).portA = s.portA := rfl
@[simp] theorem setMap_portB (m : Vector (Option SlotId) 32) : (s.setMap m).portB = s.portB := rfl
@[simp] theorem setMap_survey (m : Vector (Option SlotId) 32) : (s.setMap m).survey = s.survey := rfl
@[simp] theorem setMap_straps (m : Vector (Option SlotId) 32) : (s.setMap m).straps = s.straps := rfl
@[simp] theorem setMap_freeReads (m : Vector (Option SlotId) 32) : (s.setMap m).freeReads = s.freeReads := rfl
@[simp] theorem setMap_restartLine (m : Vector (Option SlotId) 32) : (s.setMap m).restartLine = s.restartLine := rfl
@[simp] theorem setMap_slot (m : Vector (Option SlotId) 32) (j : SlotId) : (s.setMap m).slot j = s.slot j := rfl
@[simp] theorem setMap_zone (m : Vector (Option SlotId) 32) (w : ZoneId) : (s.setMap m).zone w = s.zone w := by
  cases w <;> rfl
@[simp] theorem setMap_manager (m : Vector (Option SlotId) 32) (w : ManagerId) : (s.setMap m).manager w = s.manager w := by
  cases w <;> rfl
@[simp] theorem setMap_port (m : Vector (Option SlotId) 32) (w : Port) : (s.setMap m).port w = s.port w := by
  cases w <;> rfl
@[simp] theorem setMap_holdsWindow (m : Vector (Option SlotId) 32) (j : SlotId) : (s.setMap m).holdsWindow j = s.holdsWindow j := rfl

/-! ## `State.freeSet` -/

@[simp] theorem freeSet_pending (i : SlotId) (gs : GroupSet) : (s.freeSet i gs).pending = s.pending := setMap_pending ..
@[simp] theorem freeSet_slots (i : SlotId) (gs : GroupSet) : (s.freeSet i gs).slots = s.slots := setMap_slots ..
@[simp] theorem freeSet_timers (i : SlotId) (gs : GroupSet) : (s.freeSet i gs).timers = s.timers := setMap_timers ..
@[simp] theorem freeSet_zone1 (i : SlotId) (gs : GroupSet) : (s.freeSet i gs).zone1 = s.zone1 := setMap_zone1 ..
@[simp] theorem freeSet_zone2 (i : SlotId) (gs : GroupSet) : (s.freeSet i gs).zone2 = s.zone2 := setMap_zone2 ..
@[simp] theorem freeSet_ref (i : SlotId) (gs : GroupSet) : (s.freeSet i gs).ref = s.ref := setMap_ref ..
@[simp] theorem freeSet_block (i : SlotId) (gs : GroupSet) : (s.freeSet i gs).block = s.block := setMap_block ..
@[simp] theorem freeSet_laneDue (i : SlotId) (gs : GroupSet) : (s.freeSet i gs).laneDue = s.laneDue := setMap_laneDue ..
@[simp] theorem freeSet_bank (i : SlotId) (gs : GroupSet) : (s.freeSet i gs).bank = s.bank := setMap_bank ..
@[simp] theorem freeSet_managerA (i : SlotId) (gs : GroupSet) : (s.freeSet i gs).managerA = s.managerA := setMap_managerA ..
@[simp] theorem freeSet_managerB (i : SlotId) (gs : GroupSet) : (s.freeSet i gs).managerB = s.managerB := setMap_managerB ..
@[simp] theorem freeSet_portA (i : SlotId) (gs : GroupSet) : (s.freeSet i gs).portA = s.portA := setMap_portA ..
@[simp] theorem freeSet_portB (i : SlotId) (gs : GroupSet) : (s.freeSet i gs).portB = s.portB := setMap_portB ..
@[simp] theorem freeSet_survey (i : SlotId) (gs : GroupSet) : (s.freeSet i gs).survey = s.survey := setMap_survey ..
@[simp] theorem freeSet_straps (i : SlotId) (gs : GroupSet) : (s.freeSet i gs).straps = s.straps := setMap_straps ..
@[simp] theorem freeSet_freeReads (i : SlotId) (gs : GroupSet) : (s.freeSet i gs).freeReads = s.freeReads := setMap_freeReads ..
@[simp] theorem freeSet_restartLine (i : SlotId) (gs : GroupSet) : (s.freeSet i gs).restartLine = s.restartLine := setMap_restartLine ..
@[simp] theorem freeSet_slot (i : SlotId) (gs : GroupSet) (j : SlotId) : (s.freeSet i gs).slot j = s.slot j := setMap_slot ..
@[simp] theorem freeSet_zone (i : SlotId) (gs : GroupSet) (w : ZoneId) : (s.freeSet i gs).zone w = s.zone w := setMap_zone ..
@[simp] theorem freeSet_manager (i : SlotId) (gs : GroupSet) (w : ManagerId) : (s.freeSet i gs).manager w = s.manager w := setMap_manager ..
@[simp] theorem freeSet_port (i : SlotId) (gs : GroupSet) (w : Port) : (s.freeSet i gs).port w = s.port w := setMap_port ..
@[simp] theorem freeSet_holdsWindow (i : SlotId) (gs : GroupSet) (j : SlotId) : (s.freeSet i gs).holdsWindow j = s.holdsWindow j := setMap_holdsWindow ..

/-! ## `State.claimSet` -/

@[simp] theorem claimSet_pending (i : SlotId) (gs : GroupSet) : (s.claimSet i gs).pending = s.pending := setMap_pending ..
@[simp] theorem claimSet_slots (i : SlotId) (gs : GroupSet) : (s.claimSet i gs).slots = s.slots := setMap_slots ..
@[simp] theorem claimSet_timers (i : SlotId) (gs : GroupSet) : (s.claimSet i gs).timers = s.timers := setMap_timers ..
@[simp] theorem claimSet_zone1 (i : SlotId) (gs : GroupSet) : (s.claimSet i gs).zone1 = s.zone1 := setMap_zone1 ..
@[simp] theorem claimSet_zone2 (i : SlotId) (gs : GroupSet) : (s.claimSet i gs).zone2 = s.zone2 := setMap_zone2 ..
@[simp] theorem claimSet_ref (i : SlotId) (gs : GroupSet) : (s.claimSet i gs).ref = s.ref := setMap_ref ..
@[simp] theorem claimSet_block (i : SlotId) (gs : GroupSet) : (s.claimSet i gs).block = s.block := setMap_block ..
@[simp] theorem claimSet_laneDue (i : SlotId) (gs : GroupSet) : (s.claimSet i gs).laneDue = s.laneDue := setMap_laneDue ..
@[simp] theorem claimSet_bank (i : SlotId) (gs : GroupSet) : (s.claimSet i gs).bank = s.bank := setMap_bank ..
@[simp] theorem claimSet_managerA (i : SlotId) (gs : GroupSet) : (s.claimSet i gs).managerA = s.managerA := setMap_managerA ..
@[simp] theorem claimSet_managerB (i : SlotId) (gs : GroupSet) : (s.claimSet i gs).managerB = s.managerB := setMap_managerB ..
@[simp] theorem claimSet_portA (i : SlotId) (gs : GroupSet) : (s.claimSet i gs).portA = s.portA := setMap_portA ..
@[simp] theorem claimSet_portB (i : SlotId) (gs : GroupSet) : (s.claimSet i gs).portB = s.portB := setMap_portB ..
@[simp] theorem claimSet_survey (i : SlotId) (gs : GroupSet) : (s.claimSet i gs).survey = s.survey := setMap_survey ..
@[simp] theorem claimSet_straps (i : SlotId) (gs : GroupSet) : (s.claimSet i gs).straps = s.straps := setMap_straps ..
@[simp] theorem claimSet_freeReads (i : SlotId) (gs : GroupSet) : (s.claimSet i gs).freeReads = s.freeReads := setMap_freeReads ..
@[simp] theorem claimSet_restartLine (i : SlotId) (gs : GroupSet) : (s.claimSet i gs).restartLine = s.restartLine := setMap_restartLine ..
@[simp] theorem claimSet_slot (i : SlotId) (gs : GroupSet) (j : SlotId) : (s.claimSet i gs).slot j = s.slot j := setMap_slot ..
@[simp] theorem claimSet_zone (i : SlotId) (gs : GroupSet) (w : ZoneId) : (s.claimSet i gs).zone w = s.zone w := setMap_zone ..
@[simp] theorem claimSet_manager (i : SlotId) (gs : GroupSet) (w : ManagerId) : (s.claimSet i gs).manager w = s.manager w := setMap_manager ..
@[simp] theorem claimSet_port (i : SlotId) (gs : GroupSet) (w : Port) : (s.claimSet i gs).port w = s.port w := setMap_port ..
@[simp] theorem claimSet_holdsWindow (i : SlotId) (gs : GroupSet) (j : SlotId) : (s.claimSet i gs).holdsWindow j = s.holdsWindow j := setMap_holdsWindow ..

/-! ## `State.modLane` -/

@[simp] theorem modLane_pending (i : SlotId) (f : LaneRecord → LaneRecord) : (s.modLane i f).pending = s.pending := rfl
@[simp] theorem modLane_timers (i : SlotId) (f : LaneRecord → LaneRecord) : (s.modLane i f).timers = s.timers := rfl
@[simp] theorem modLane_zone1 (i : SlotId) (f : LaneRecord → LaneRecord) : (s.modLane i f).zone1 = s.zone1 := rfl
@[simp] theorem modLane_zone2 (i : SlotId) (f : LaneRecord → LaneRecord) : (s.modLane i f).zone2 = s.zone2 := rfl
@[simp] theorem modLane_ref (i : SlotId) (f : LaneRecord → LaneRecord) : (s.modLane i f).ref = s.ref := rfl
@[simp] theorem modLane_map (i : SlotId) (f : LaneRecord → LaneRecord) : (s.modLane i f).map = s.map := rfl
@[simp] theorem modLane_block (i : SlotId) (f : LaneRecord → LaneRecord) : (s.modLane i f).block = s.block := rfl
@[simp] theorem modLane_laneDue (i : SlotId) (f : LaneRecord → LaneRecord) : (s.modLane i f).laneDue = s.laneDue := rfl
@[simp] theorem modLane_bank (i : SlotId) (f : LaneRecord → LaneRecord) : (s.modLane i f).bank = s.bank := rfl
@[simp] theorem modLane_managerA (i : SlotId) (f : LaneRecord → LaneRecord) : (s.modLane i f).managerA = s.managerA := rfl
@[simp] theorem modLane_managerB (i : SlotId) (f : LaneRecord → LaneRecord) : (s.modLane i f).managerB = s.managerB := rfl
@[simp] theorem modLane_portA (i : SlotId) (f : LaneRecord → LaneRecord) : (s.modLane i f).portA = s.portA := rfl
@[simp] theorem modLane_portB (i : SlotId) (f : LaneRecord → LaneRecord) : (s.modLane i f).portB = s.portB := rfl
@[simp] theorem modLane_survey (i : SlotId) (f : LaneRecord → LaneRecord) : (s.modLane i f).survey = s.survey := rfl
@[simp] theorem modLane_straps (i : SlotId) (f : LaneRecord → LaneRecord) : (s.modLane i f).straps = s.straps := rfl
@[simp] theorem modLane_freeReads (i : SlotId) (f : LaneRecord → LaneRecord) : (s.modLane i f).freeReads = s.freeReads := rfl
@[simp] theorem modLane_restartLine (i : SlotId) (f : LaneRecord → LaneRecord) : (s.modLane i f).restartLine = s.restartLine := rfl
@[simp] theorem modLane_zone (i : SlotId) (f : LaneRecord → LaneRecord) (w : ZoneId) : (s.modLane i f).zone w = s.zone w := by
  cases w <;> rfl
@[simp] theorem modLane_manager (i : SlotId) (f : LaneRecord → LaneRecord) (w : ManagerId) : (s.modLane i f).manager w = s.manager w := by
  cases w <;> rfl
@[simp] theorem modLane_port (i : SlotId) (f : LaneRecord → LaneRecord) (w : Port) : (s.modLane i f).port w = s.port w := by
  cases w <;> rfl
@[simp] theorem modLane_heldGroups (i : SlotId) (f : LaneRecord → LaneRecord) (j : SlotId) : (s.modLane i f).heldGroups j = s.heldGroups j := rfl
@[simp] theorem modLane_holdsWindow (i : SlotId) (f : LaneRecord → LaneRecord) (j : SlotId) : (s.modLane i f).holdsWindow j = s.holdsWindow j := rfl

/-! ## `State.modZone` -/

@[simp] theorem modZone_pending (z : ZoneId) (f : Zone → Zone) : (s.modZone z f).pending = s.pending := by cases z <;> rfl
@[simp] theorem modZone_slots (z : ZoneId) (f : Zone → Zone) : (s.modZone z f).slots = s.slots := by cases z <;> rfl
@[simp] theorem modZone_timers (z : ZoneId) (f : Zone → Zone) : (s.modZone z f).timers = s.timers := by cases z <;> rfl
@[simp] theorem modZone_ref (z : ZoneId) (f : Zone → Zone) : (s.modZone z f).ref = s.ref := by cases z <;> rfl
@[simp] theorem modZone_map (z : ZoneId) (f : Zone → Zone) : (s.modZone z f).map = s.map := by cases z <;> rfl
@[simp] theorem modZone_block (z : ZoneId) (f : Zone → Zone) : (s.modZone z f).block = s.block := by cases z <;> rfl
@[simp] theorem modZone_laneDue (z : ZoneId) (f : Zone → Zone) : (s.modZone z f).laneDue = s.laneDue := by cases z <;> rfl
@[simp] theorem modZone_bank (z : ZoneId) (f : Zone → Zone) : (s.modZone z f).bank = s.bank := by cases z <;> rfl
@[simp] theorem modZone_managerA (z : ZoneId) (f : Zone → Zone) : (s.modZone z f).managerA = s.managerA := by cases z <;> rfl
@[simp] theorem modZone_managerB (z : ZoneId) (f : Zone → Zone) : (s.modZone z f).managerB = s.managerB := by cases z <;> rfl
@[simp] theorem modZone_portA (z : ZoneId) (f : Zone → Zone) : (s.modZone z f).portA = s.portA := by cases z <;> rfl
@[simp] theorem modZone_portB (z : ZoneId) (f : Zone → Zone) : (s.modZone z f).portB = s.portB := by cases z <;> rfl
@[simp] theorem modZone_survey (z : ZoneId) (f : Zone → Zone) : (s.modZone z f).survey = s.survey := by cases z <;> rfl
@[simp] theorem modZone_straps (z : ZoneId) (f : Zone → Zone) : (s.modZone z f).straps = s.straps := by cases z <;> rfl
@[simp] theorem modZone_freeReads (z : ZoneId) (f : Zone → Zone) : (s.modZone z f).freeReads = s.freeReads := by cases z <;> rfl
@[simp] theorem modZone_restartLine (z : ZoneId) (f : Zone → Zone) : (s.modZone z f).restartLine = s.restartLine := by cases z <;> rfl
@[simp] theorem modZone_slot (z : ZoneId) (f : Zone → Zone) (j : SlotId) : (s.modZone z f).slot j = s.slot j := by cases z <;> rfl
@[simp] theorem modZone_manager (z : ZoneId) (f : Zone → Zone) (w : ManagerId) : (s.modZone z f).manager w = s.manager w := by
  cases w <;> cases z <;> rfl
@[simp] theorem modZone_port (z : ZoneId) (f : Zone → Zone) (w : Port) : (s.modZone z f).port w = s.port w := by
  cases z <;> cases w <;> rfl
@[simp] theorem modZone_heldGroups (z : ZoneId) (f : Zone → Zone) (j : SlotId) : (s.modZone z f).heldGroups j = s.heldGroups j := by cases z <;> rfl
@[simp] theorem modZone_holdsWindow (z : ZoneId) (f : Zone → Zone) (j : SlotId) : (s.modZone z f).holdsWindow j = s.holdsWindow j := by cases z <;> rfl

/-! ## `State.modManager` -/

@[simp] theorem modManager_pending (m : ManagerId) (f : Manager → Manager) : (s.modManager m f).pending = s.pending := by cases m <;> rfl
@[simp] theorem modManager_slots (m : ManagerId) (f : Manager → Manager) : (s.modManager m f).slots = s.slots := by cases m <;> rfl
@[simp] theorem modManager_timers (m : ManagerId) (f : Manager → Manager) : (s.modManager m f).timers = s.timers := by cases m <;> rfl
@[simp] theorem modManager_zone1 (m : ManagerId) (f : Manager → Manager) : (s.modManager m f).zone1 = s.zone1 := by cases m <;> rfl
@[simp] theorem modManager_zone2 (m : ManagerId) (f : Manager → Manager) : (s.modManager m f).zone2 = s.zone2 := by cases m <;> rfl
@[simp] theorem modManager_ref (m : ManagerId) (f : Manager → Manager) : (s.modManager m f).ref = s.ref := by cases m <;> rfl
@[simp] theorem modManager_map (m : ManagerId) (f : Manager → Manager) : (s.modManager m f).map = s.map := by cases m <;> rfl
@[simp] theorem modManager_block (m : ManagerId) (f : Manager → Manager) : (s.modManager m f).block = s.block := by cases m <;> rfl
@[simp] theorem modManager_laneDue (m : ManagerId) (f : Manager → Manager) : (s.modManager m f).laneDue = s.laneDue := by cases m <;> rfl
@[simp] theorem modManager_bank (m : ManagerId) (f : Manager → Manager) : (s.modManager m f).bank = s.bank := by cases m <;> rfl
@[simp] theorem modManager_portA (m : ManagerId) (f : Manager → Manager) : (s.modManager m f).portA = s.portA := by cases m <;> rfl
@[simp] theorem modManager_portB (m : ManagerId) (f : Manager → Manager) : (s.modManager m f).portB = s.portB := by cases m <;> rfl
@[simp] theorem modManager_survey (m : ManagerId) (f : Manager → Manager) : (s.modManager m f).survey = s.survey := by cases m <;> rfl
@[simp] theorem modManager_straps (m : ManagerId) (f : Manager → Manager) : (s.modManager m f).straps = s.straps := by cases m <;> rfl
@[simp] theorem modManager_freeReads (m : ManagerId) (f : Manager → Manager) : (s.modManager m f).freeReads = s.freeReads := by cases m <;> rfl
@[simp] theorem modManager_restartLine (m : ManagerId) (f : Manager → Manager) : (s.modManager m f).restartLine = s.restartLine := by cases m <;> rfl
@[simp] theorem modManager_slot (m : ManagerId) (f : Manager → Manager) (j : SlotId) : (s.modManager m f).slot j = s.slot j := by cases m <;> rfl
@[simp] theorem modManager_zone (m : ManagerId) (f : Manager → Manager) (w : ZoneId) : (s.modManager m f).zone w = s.zone w := by
  cases m <;> cases w <;> rfl
@[simp] theorem modManager_port (m : ManagerId) (f : Manager → Manager) (w : Port) : (s.modManager m f).port w = s.port w := by
  cases m <;> cases w <;> rfl
@[simp] theorem modManager_heldGroups (m : ManagerId) (f : Manager → Manager) (j : SlotId) : (s.modManager m f).heldGroups j = s.heldGroups j := by cases m <;> rfl
@[simp] theorem modManager_holdsWindow (m : ManagerId) (f : Manager → Manager) (j : SlotId) : (s.modManager m f).holdsWindow j = s.holdsWindow j := by cases m <;> rfl

/-! ## `State.modPort` -/

@[simp] theorem modPort_pending (p : Port) (f : BusPort → BusPort) : (s.modPort p f).pending = s.pending := by cases p <;> rfl
@[simp] theorem modPort_slots (p : Port) (f : BusPort → BusPort) : (s.modPort p f).slots = s.slots := by cases p <;> rfl
@[simp] theorem modPort_timers (p : Port) (f : BusPort → BusPort) : (s.modPort p f).timers = s.timers := by cases p <;> rfl
@[simp] theorem modPort_zone1 (p : Port) (f : BusPort → BusPort) : (s.modPort p f).zone1 = s.zone1 := by cases p <;> rfl
@[simp] theorem modPort_zone2 (p : Port) (f : BusPort → BusPort) : (s.modPort p f).zone2 = s.zone2 := by cases p <;> rfl
@[simp] theorem modPort_ref (p : Port) (f : BusPort → BusPort) : (s.modPort p f).ref = s.ref := by cases p <;> rfl
@[simp] theorem modPort_map (p : Port) (f : BusPort → BusPort) : (s.modPort p f).map = s.map := by cases p <;> rfl
@[simp] theorem modPort_block (p : Port) (f : BusPort → BusPort) : (s.modPort p f).block = s.block := by cases p <;> rfl
@[simp] theorem modPort_laneDue (p : Port) (f : BusPort → BusPort) : (s.modPort p f).laneDue = s.laneDue := by cases p <;> rfl
@[simp] theorem modPort_bank (p : Port) (f : BusPort → BusPort) : (s.modPort p f).bank = s.bank := by cases p <;> rfl
@[simp] theorem modPort_managerA (p : Port) (f : BusPort → BusPort) : (s.modPort p f).managerA = s.managerA := by cases p <;> rfl
@[simp] theorem modPort_managerB (p : Port) (f : BusPort → BusPort) : (s.modPort p f).managerB = s.managerB := by cases p <;> rfl
@[simp] theorem modPort_survey (p : Port) (f : BusPort → BusPort) : (s.modPort p f).survey = s.survey := by cases p <;> rfl
@[simp] theorem modPort_straps (p : Port) (f : BusPort → BusPort) : (s.modPort p f).straps = s.straps := by cases p <;> rfl
@[simp] theorem modPort_freeReads (p : Port) (f : BusPort → BusPort) : (s.modPort p f).freeReads = s.freeReads := by cases p <;> rfl
@[simp] theorem modPort_restartLine (p : Port) (f : BusPort → BusPort) : (s.modPort p f).restartLine = s.restartLine := by cases p <;> rfl
@[simp] theorem modPort_slot (p : Port) (f : BusPort → BusPort) (j : SlotId) : (s.modPort p f).slot j = s.slot j := by cases p <;> rfl
@[simp] theorem modPort_zone (p : Port) (f : BusPort → BusPort) (w : ZoneId) : (s.modPort p f).zone w = s.zone w := by
  cases p <;> cases w <;> rfl
@[simp] theorem modPort_manager (p : Port) (f : BusPort → BusPort) (w : ManagerId) : (s.modPort p f).manager w = s.manager w := by
  cases w <;> cases p <;> rfl
@[simp] theorem modPort_heldGroups (p : Port) (f : BusPort → BusPort) (j : SlotId) : (s.modPort p f).heldGroups j = s.heldGroups j := by cases p <;> rfl
@[simp] theorem modPort_holdsWindow (p : Port) (f : BusPort → BusPort) (j : SlotId) : (s.modPort p f).holdsWindow j = s.holdsWindow j := by cases p <;> rfl

/-! ## `State.modBlock` -/

@[simp] theorem modBlock_pending (f : WindowBlock → WindowBlock) : (s.modBlock f).pending = s.pending := rfl
@[simp] theorem modBlock_slots (f : WindowBlock → WindowBlock) : (s.modBlock f).slots = s.slots := rfl
@[simp] theorem modBlock_timers (f : WindowBlock → WindowBlock) : (s.modBlock f).timers = s.timers := rfl
@[simp] theorem modBlock_zone1 (f : WindowBlock → WindowBlock) : (s.modBlock f).zone1 = s.zone1 := rfl
@[simp] theorem modBlock_zone2 (f : WindowBlock → WindowBlock) : (s.modBlock f).zone2 = s.zone2 := rfl
@[simp] theorem modBlock_ref (f : WindowBlock → WindowBlock) : (s.modBlock f).ref = s.ref := rfl
@[simp] theorem modBlock_map (f : WindowBlock → WindowBlock) : (s.modBlock f).map = s.map := rfl
@[simp] theorem modBlock_laneDue (f : WindowBlock → WindowBlock) : (s.modBlock f).laneDue = s.laneDue := rfl
@[simp] theorem modBlock_bank (f : WindowBlock → WindowBlock) : (s.modBlock f).bank = s.bank := rfl
@[simp] theorem modBlock_managerA (f : WindowBlock → WindowBlock) : (s.modBlock f).managerA = s.managerA := rfl
@[simp] theorem modBlock_managerB (f : WindowBlock → WindowBlock) : (s.modBlock f).managerB = s.managerB := rfl
@[simp] theorem modBlock_portA (f : WindowBlock → WindowBlock) : (s.modBlock f).portA = s.portA := rfl
@[simp] theorem modBlock_portB (f : WindowBlock → WindowBlock) : (s.modBlock f).portB = s.portB := rfl
@[simp] theorem modBlock_survey (f : WindowBlock → WindowBlock) : (s.modBlock f).survey = s.survey := rfl
@[simp] theorem modBlock_straps (f : WindowBlock → WindowBlock) : (s.modBlock f).straps = s.straps := rfl
@[simp] theorem modBlock_freeReads (f : WindowBlock → WindowBlock) : (s.modBlock f).freeReads = s.freeReads := rfl
@[simp] theorem modBlock_restartLine (f : WindowBlock → WindowBlock) : (s.modBlock f).restartLine = s.restartLine := rfl
@[simp] theorem modBlock_slot (f : WindowBlock → WindowBlock) (j : SlotId) : (s.modBlock f).slot j = s.slot j := rfl
@[simp] theorem modBlock_zone (f : WindowBlock → WindowBlock) (w : ZoneId) : (s.modBlock f).zone w = s.zone w := by
  cases w <;> rfl
@[simp] theorem modBlock_manager (f : WindowBlock → WindowBlock) (w : ManagerId) : (s.modBlock f).manager w = s.manager w := by
  cases w <;> rfl
@[simp] theorem modBlock_port (f : WindowBlock → WindowBlock) (w : Port) : (s.modBlock f).port w = s.port w := by
  cases w <;> rfl
@[simp] theorem modBlock_heldGroups (f : WindowBlock → WindowBlock) (j : SlotId) : (s.modBlock f).heldGroups j = s.heldGroups j := rfl

/-! ## `State.modRef` -/

@[simp] theorem modRef_pending (f : Reference → Reference) : (s.modRef f).pending = s.pending := rfl
@[simp] theorem modRef_slots (f : Reference → Reference) : (s.modRef f).slots = s.slots := rfl
@[simp] theorem modRef_timers (f : Reference → Reference) : (s.modRef f).timers = s.timers := rfl
@[simp] theorem modRef_zone1 (f : Reference → Reference) : (s.modRef f).zone1 = s.zone1 := rfl
@[simp] theorem modRef_zone2 (f : Reference → Reference) : (s.modRef f).zone2 = s.zone2 := rfl
@[simp] theorem modRef_map (f : Reference → Reference) : (s.modRef f).map = s.map := rfl
@[simp] theorem modRef_block (f : Reference → Reference) : (s.modRef f).block = s.block := rfl
@[simp] theorem modRef_laneDue (f : Reference → Reference) : (s.modRef f).laneDue = s.laneDue := rfl
@[simp] theorem modRef_bank (f : Reference → Reference) : (s.modRef f).bank = s.bank := rfl
@[simp] theorem modRef_managerA (f : Reference → Reference) : (s.modRef f).managerA = s.managerA := rfl
@[simp] theorem modRef_managerB (f : Reference → Reference) : (s.modRef f).managerB = s.managerB := rfl
@[simp] theorem modRef_portA (f : Reference → Reference) : (s.modRef f).portA = s.portA := rfl
@[simp] theorem modRef_portB (f : Reference → Reference) : (s.modRef f).portB = s.portB := rfl
@[simp] theorem modRef_survey (f : Reference → Reference) : (s.modRef f).survey = s.survey := rfl
@[simp] theorem modRef_straps (f : Reference → Reference) : (s.modRef f).straps = s.straps := rfl
@[simp] theorem modRef_freeReads (f : Reference → Reference) : (s.modRef f).freeReads = s.freeReads := rfl
@[simp] theorem modRef_restartLine (f : Reference → Reference) : (s.modRef f).restartLine = s.restartLine := rfl
@[simp] theorem modRef_slot (f : Reference → Reference) (j : SlotId) : (s.modRef f).slot j = s.slot j := rfl
@[simp] theorem modRef_zone (f : Reference → Reference) (w : ZoneId) : (s.modRef f).zone w = s.zone w := by
  cases w <;> rfl
@[simp] theorem modRef_manager (f : Reference → Reference) (w : ManagerId) : (s.modRef f).manager w = s.manager w := by
  cases w <;> rfl
@[simp] theorem modRef_port (f : Reference → Reference) (w : Port) : (s.modRef f).port w = s.port w := by
  cases w <;> rfl
@[simp] theorem modRef_heldGroups (f : Reference → Reference) (j : SlotId) : (s.modRef f).heldGroups j = s.heldGroups j := rfl
@[simp] theorem modRef_holdsWindow (f : Reference → Reference) (j : SlotId) : (s.modRef f).holdsWindow j = s.holdsWindow j := rfl

/-! ## `State.modBank` -/

@[simp] theorem modBank_pending (f : Bank → Bank) : (s.modBank f).pending = s.pending := rfl
@[simp] theorem modBank_slots (f : Bank → Bank) : (s.modBank f).slots = s.slots := rfl
@[simp] theorem modBank_timers (f : Bank → Bank) : (s.modBank f).timers = s.timers := rfl
@[simp] theorem modBank_zone1 (f : Bank → Bank) : (s.modBank f).zone1 = s.zone1 := rfl
@[simp] theorem modBank_zone2 (f : Bank → Bank) : (s.modBank f).zone2 = s.zone2 := rfl
@[simp] theorem modBank_ref (f : Bank → Bank) : (s.modBank f).ref = s.ref := rfl
@[simp] theorem modBank_map (f : Bank → Bank) : (s.modBank f).map = s.map := rfl
@[simp] theorem modBank_block (f : Bank → Bank) : (s.modBank f).block = s.block := rfl
@[simp] theorem modBank_laneDue (f : Bank → Bank) : (s.modBank f).laneDue = s.laneDue := rfl
@[simp] theorem modBank_managerA (f : Bank → Bank) : (s.modBank f).managerA = s.managerA := rfl
@[simp] theorem modBank_managerB (f : Bank → Bank) : (s.modBank f).managerB = s.managerB := rfl
@[simp] theorem modBank_portA (f : Bank → Bank) : (s.modBank f).portA = s.portA := rfl
@[simp] theorem modBank_portB (f : Bank → Bank) : (s.modBank f).portB = s.portB := rfl
@[simp] theorem modBank_survey (f : Bank → Bank) : (s.modBank f).survey = s.survey := rfl
@[simp] theorem modBank_straps (f : Bank → Bank) : (s.modBank f).straps = s.straps := rfl
@[simp] theorem modBank_freeReads (f : Bank → Bank) : (s.modBank f).freeReads = s.freeReads := rfl
@[simp] theorem modBank_restartLine (f : Bank → Bank) : (s.modBank f).restartLine = s.restartLine := rfl
@[simp] theorem modBank_slot (f : Bank → Bank) (j : SlotId) : (s.modBank f).slot j = s.slot j := rfl
@[simp] theorem modBank_zone (f : Bank → Bank) (w : ZoneId) : (s.modBank f).zone w = s.zone w := by
  cases w <;> rfl
@[simp] theorem modBank_manager (f : Bank → Bank) (w : ManagerId) : (s.modBank f).manager w = s.manager w := by
  cases w <;> rfl
@[simp] theorem modBank_port (f : Bank → Bank) (w : Port) : (s.modBank f).port w = s.port w := by
  cases w <;> rfl
@[simp] theorem modBank_heldGroups (f : Bank → Bank) (j : SlotId) : (s.modBank f).heldGroups j = s.heldGroups j := rfl
@[simp] theorem modBank_holdsWindow (f : Bank → Bank) (j : SlotId) : (s.modBank f).holdsWindow j = s.holdsWindow j := rfl

/-! ## `State.postSlot` -/

@[simp] theorem postSlot_pending (k : SlotNotice) (i : SlotId) : (s.postSlot k i).pending = s.pending := rfl
@[simp] theorem postSlot_slots (k : SlotNotice) (i : SlotId) : (s.postSlot k i).slots = s.slots := rfl
@[simp] theorem postSlot_timers (k : SlotNotice) (i : SlotId) : (s.postSlot k i).timers = s.timers := rfl
@[simp] theorem postSlot_zone1 (k : SlotNotice) (i : SlotId) : (s.postSlot k i).zone1 = s.zone1 := rfl
@[simp] theorem postSlot_zone2 (k : SlotNotice) (i : SlotId) : (s.postSlot k i).zone2 = s.zone2 := rfl
@[simp] theorem postSlot_ref (k : SlotNotice) (i : SlotId) : (s.postSlot k i).ref = s.ref := rfl
@[simp] theorem postSlot_map (k : SlotNotice) (i : SlotId) : (s.postSlot k i).map = s.map := rfl
@[simp] theorem postSlot_block (k : SlotNotice) (i : SlotId) : (s.postSlot k i).block = s.block := rfl
@[simp] theorem postSlot_laneDue (k : SlotNotice) (i : SlotId) : (s.postSlot k i).laneDue = s.laneDue := rfl
@[simp] theorem postSlot_bank (k : SlotNotice) (i : SlotId) : (s.postSlot k i).bank = s.bank := rfl
@[simp] theorem postSlot_portA (k : SlotNotice) (i : SlotId) : (s.postSlot k i).portA = s.portA := rfl
@[simp] theorem postSlot_portB (k : SlotNotice) (i : SlotId) : (s.postSlot k i).portB = s.portB := rfl
@[simp] theorem postSlot_survey (k : SlotNotice) (i : SlotId) : (s.postSlot k i).survey = s.survey := rfl
@[simp] theorem postSlot_straps (k : SlotNotice) (i : SlotId) : (s.postSlot k i).straps = s.straps := rfl
@[simp] theorem postSlot_freeReads (k : SlotNotice) (i : SlotId) : (s.postSlot k i).freeReads = s.freeReads := rfl
@[simp] theorem postSlot_restartLine (k : SlotNotice) (i : SlotId) : (s.postSlot k i).restartLine = s.restartLine := rfl
@[simp] theorem postSlot_slot (k : SlotNotice) (i : SlotId) (j : SlotId) : (s.postSlot k i).slot j = s.slot j := rfl
@[simp] theorem postSlot_zone (k : SlotNotice) (i : SlotId) (w : ZoneId) : (s.postSlot k i).zone w = s.zone w := by
  cases w <;> rfl
@[simp] theorem postSlot_port (k : SlotNotice) (i : SlotId) (w : Port) : (s.postSlot k i).port w = s.port w := by
  cases w <;> rfl
@[simp] theorem postSlot_heldGroups (k : SlotNotice) (i : SlotId) (j : SlotId) : (s.postSlot k i).heldGroups j = s.heldGroups j := rfl
@[simp] theorem postSlot_holdsWindow (k : SlotNotice) (i : SlotId) (j : SlotId) : (s.postSlot k i).holdsWindow j = s.holdsWindow j := rfl

/-! ## `State.postShelf` -/

@[simp] theorem postShelf_pending (k : ShelfNotice) : (s.postShelf k).pending = s.pending := rfl
@[simp] theorem postShelf_slots (k : ShelfNotice) : (s.postShelf k).slots = s.slots := rfl
@[simp] theorem postShelf_timers (k : ShelfNotice) : (s.postShelf k).timers = s.timers := rfl
@[simp] theorem postShelf_zone1 (k : ShelfNotice) : (s.postShelf k).zone1 = s.zone1 := rfl
@[simp] theorem postShelf_zone2 (k : ShelfNotice) : (s.postShelf k).zone2 = s.zone2 := rfl
@[simp] theorem postShelf_ref (k : ShelfNotice) : (s.postShelf k).ref = s.ref := rfl
@[simp] theorem postShelf_map (k : ShelfNotice) : (s.postShelf k).map = s.map := rfl
@[simp] theorem postShelf_block (k : ShelfNotice) : (s.postShelf k).block = s.block := rfl
@[simp] theorem postShelf_laneDue (k : ShelfNotice) : (s.postShelf k).laneDue = s.laneDue := rfl
@[simp] theorem postShelf_bank (k : ShelfNotice) : (s.postShelf k).bank = s.bank := rfl
@[simp] theorem postShelf_portA (k : ShelfNotice) : (s.postShelf k).portA = s.portA := rfl
@[simp] theorem postShelf_portB (k : ShelfNotice) : (s.postShelf k).portB = s.portB := rfl
@[simp] theorem postShelf_survey (k : ShelfNotice) : (s.postShelf k).survey = s.survey := rfl
@[simp] theorem postShelf_straps (k : ShelfNotice) : (s.postShelf k).straps = s.straps := rfl
@[simp] theorem postShelf_freeReads (k : ShelfNotice) : (s.postShelf k).freeReads = s.freeReads := rfl
@[simp] theorem postShelf_restartLine (k : ShelfNotice) : (s.postShelf k).restartLine = s.restartLine := rfl
@[simp] theorem postShelf_slot (k : ShelfNotice) (j : SlotId) : (s.postShelf k).slot j = s.slot j := rfl
@[simp] theorem postShelf_zone (k : ShelfNotice) (w : ZoneId) : (s.postShelf k).zone w = s.zone w := by
  cases w <;> rfl
@[simp] theorem postShelf_port (k : ShelfNotice) (w : Port) : (s.postShelf k).port w = s.port w := by
  cases w <;> rfl
@[simp] theorem postShelf_heldGroups (k : ShelfNotice) (j : SlotId) : (s.postShelf k).heldGroups j = s.heldGroups j := rfl
@[simp] theorem postShelf_holdsWindow (k : ShelfNotice) (j : SlotId) : (s.postShelf k).holdsWindow j = s.holdsWindow j := rfl

/-! ## `State.count` -/

@[simp] theorem count_pending (k : EventKind) (n : Nat) : (s.count k n).pending = s.pending := rfl
@[simp] theorem count_slots (k : EventKind) (n : Nat) : (s.count k n).slots = s.slots := rfl
@[simp] theorem count_timers (k : EventKind) (n : Nat) : (s.count k n).timers = s.timers := rfl
@[simp] theorem count_zone1 (k : EventKind) (n : Nat) : (s.count k n).zone1 = s.zone1 := rfl
@[simp] theorem count_zone2 (k : EventKind) (n : Nat) : (s.count k n).zone2 = s.zone2 := rfl
@[simp] theorem count_ref (k : EventKind) (n : Nat) : (s.count k n).ref = s.ref := rfl
@[simp] theorem count_map (k : EventKind) (n : Nat) : (s.count k n).map = s.map := rfl
@[simp] theorem count_block (k : EventKind) (n : Nat) : (s.count k n).block = s.block := rfl
@[simp] theorem count_laneDue (k : EventKind) (n : Nat) : (s.count k n).laneDue = s.laneDue := rfl
@[simp] theorem count_managerA (k : EventKind) (n : Nat) : (s.count k n).managerA = s.managerA := rfl
@[simp] theorem count_managerB (k : EventKind) (n : Nat) : (s.count k n).managerB = s.managerB := rfl
@[simp] theorem count_portA (k : EventKind) (n : Nat) : (s.count k n).portA = s.portA := rfl
@[simp] theorem count_portB (k : EventKind) (n : Nat) : (s.count k n).portB = s.portB := rfl
@[simp] theorem count_survey (k : EventKind) (n : Nat) : (s.count k n).survey = s.survey := rfl
@[simp] theorem count_straps (k : EventKind) (n : Nat) : (s.count k n).straps = s.straps := rfl
@[simp] theorem count_freeReads (k : EventKind) (n : Nat) : (s.count k n).freeReads = s.freeReads := rfl
@[simp] theorem count_restartLine (k : EventKind) (n : Nat) : (s.count k n).restartLine = s.restartLine := rfl
@[simp] theorem count_slot (k : EventKind) (n : Nat) (j : SlotId) : (s.count k n).slot j = s.slot j := rfl
@[simp] theorem count_zone (k : EventKind) (n : Nat) (w : ZoneId) : (s.count k n).zone w = s.zone w := by
  cases w <;> rfl
@[simp] theorem count_manager (k : EventKind) (n : Nat) (w : ManagerId) : (s.count k n).manager w = s.manager w := by
  cases w <;> rfl
@[simp] theorem count_port (k : EventKind) (n : Nat) (w : Port) : (s.count k n).port w = s.port w := by
  cases w <;> rfl
@[simp] theorem count_heldGroups (k : EventKind) (n : Nat) (j : SlotId) : (s.count k n).heldGroups j = s.heldGroups j := rfl
@[simp] theorem count_holdsWindow (k : EventKind) (n : Nat) (j : SlotId) : (s.count k n).holdsWindow j = s.holdsWindow j := rfl

/-! ## What the updates change -/

@[simp] theorem setSlot_slot (i : SlotId) (r : Slot) (j : SlotId) :
    (s.setSlot i r).slot j = if j = i then r else s.slot j := by
  unfold State.setSlot State.slot
  by_cases h : j = i
  · subst h; simp
  · have hne : i.val ≠ j.val := fun e => h (Fin.ext e.symm)
    simp [hne, h]

theorem modSlot_slot (i : SlotId) (f : Slot → Slot) (j : SlotId) :
    (s.modSlot i f).slot j = if j = i then f (s.slot i) else s.slot j := by
  unfold State.modSlot; exact setSlot_slot s i _ j

@[simp] theorem modSlot_slot_self (i : SlotId) (f : Slot → Slot) : (s.modSlot i f).slot i = f (s.slot i) := by
  simp [modSlot_slot]

@[simp] theorem modSlot_slot_ne (i : SlotId) (f : Slot → Slot) {j : SlotId} (h : j ≠ i) :
    (s.modSlot i f).slot j = s.slot j := by simp [modSlot_slot, h]

theorem modLane_slot (i : SlotId) (f : LaneRecord → LaneRecord) (j : SlotId) :
    (s.modLane i f).slot j = if j = i then { s.slot i with lane := f (s.slot i).lane } else s.slot j :=
  modSlot_slot s i _ j

@[simp] theorem modLane_slot_self (i : SlotId) (f : LaneRecord → LaneRecord) :
    (s.modLane i f).slot i = { s.slot i with lane := f (s.slot i).lane } := by simp [modLane_slot]

@[simp] theorem modLane_slot_ne (i : SlotId) (f : LaneRecord → LaneRecord) {j : SlotId} (h : j ≠ i) :
    (s.modLane i f).slot j = s.slot j := by simp [modLane_slot, h]

theorem modZone_zone (z : ZoneId) (f : Zone → Zone) (w : ZoneId) :
    (s.modZone z f).zone w = if w = z then f (s.zone z) else s.zone w := by cases z <;> cases w <;> rfl

@[simp] theorem modZone_zone_self (z : ZoneId) (f : Zone → Zone) : (s.modZone z f).zone z = f (s.zone z) := by
  cases z <;> rfl

@[simp] theorem modZone_zone_ne (z : ZoneId) (f : Zone → Zone) {w : ZoneId} (h : w ≠ z) :
    (s.modZone z f).zone w = s.zone w := by simp [modZone_zone, h]

theorem modManager_manager (m : ManagerId) (f : Manager → Manager) (w : ManagerId) :
    (s.modManager m f).manager w = if w = m then f (s.manager m) else s.manager w := by cases m <;> cases w <;> rfl

@[simp] theorem modManager_manager_self (m : ManagerId) (f : Manager → Manager) :
    (s.modManager m f).manager m = f (s.manager m) := by cases m <;> rfl

theorem modPort_port (p : Port) (f : BusPort → BusPort) (w : Port) :
    (s.modPort p f).port w = if w = p then f (s.port p) else s.port w := by cases p <;> cases w <;> rfl

@[simp] theorem modPort_port_self (p : Port) (f : BusPort → BusPort) : (s.modPort p f).port p = f (s.port p) := by
  cases p <;> rfl

/-- A change that leaves a port's record as it is leaves the state as it is. -/
theorem modPort_self (p : Port) (f : BusPort → BusPort) (h : f (s.port p) = s.port p) : s.modPort p f = s := by
  cases p
  · show { s with portA := f s.portA } = s; rw [show f s.portA = s.portA from h]
  · show { s with portB := f s.portB } = s; rw [show f s.portB = s.portB from h]

@[simp] theorem setMap_map (m : Vector (Option SlotId) 32) : (s.setMap m).map = m := rfl
@[simp] theorem setSlots_slot (v : Vector Slot 16) (j : SlotId) : (s.setSlots v).slot j = v[j.val] := rfl
@[simp] theorem modBlock_block (f : WindowBlock → WindowBlock) : (s.modBlock f).block = f s.block := rfl
@[simp] theorem modRef_ref (f : Reference → Reference) : (s.modRef f).ref = f s.ref := rfl
@[simp] theorem modBank_bank (f : Bank → Bank) : (s.modBank f).bank = f s.bank := rfl

/-- A slot notice changes nothing of a manager's record but its slot notices. -/
theorem postSlot_manager (k : SlotNotice) (i : SlotId) (m : ManagerId) :
    (s.postSlot k i).manager m =
      { s.manager m with slotNotices := (s.manager m).slotNotices.add k i } := by cases m <;> rfl

/-- A shelf notice changes nothing of a manager's record but its shelf notices. -/
theorem postShelf_manager (k : ShelfNotice) (m : ManagerId) :
    (s.postShelf k).manager m =
      { s.manager m with shelfNotices := (s.manager m).shelfNotices ||| BitVec.twoPow 6 k.index } := by
  cases m <;> rfl

@[simp] theorem count_counters (k : EventKind) (n : Nat) : (s.count k n).bank.counters = s.bank.counters := rfl
@[simp] theorem count_freezeOn (k : EventKind) (n : Nat) : (s.count k n).bank.freezeOn = s.bank.freezeOn := rfl
@[simp] theorem count_frozen (k : EventKind) (n : Nat) : (s.count k n).bank.frozen = s.bank.frozen := rfl

/-- A report adds to the running total of its own kind, and of no other. -/
theorem count_total (k : EventKind) (n : Nat) (l : EventKind) :
    (s.count k n).bank.total l = if l = k then s.bank.total k + n else s.bank.total l := by
  unfold State.count Bank.total
  by_cases h : l = k
  · subst h; simp
  · have hne : k.index.val ≠ l.index.val := by cases k <;> cases l <;> simp_all [EventKind.index]
    simp [hne, h]

end Sys2Proof.Machine
end

