-- ==== Sys2Proof/Laws/Calm.lean ====
section
/-! SUPPORT. The operations on slots, zones, map, change list and window keep the rest of the part (`Calm`). -/

namespace Sys2Proof.Machine

theorem Calm.refl (s : State) : Calm s s := by
  constructor <;> first | rfl | (intros; assumption)

theorem Calm.trans {s t u : State} (h : Calm s t) (k : Calm t u) : Calm s u where
  pending := k.pending.trans h.pending
  timers := k.timers.trans h.timers
  zone1 := k.zone1.trans h.zone1
  zone2 := k.zone2.trans h.zone2
  ref := k.ref.trans h.ref
  block := k.block.trans h.block
  laneDue := k.laneDue.trans h.laneDue
  bank := k.bank.trans h.bank
  managerA := k.managerA.trans h.managerA
  managerB := k.managerB.trans h.managerB
  portA := k.portA.trans h.portA
  portB := k.portB.trans h.portB
  survey := k.survey.trans h.survey
  straps := k.straps.trans h.straps
  restart := k.restart.trans h.restart
  freeReads := k.freeReads.trans h.freeReads
  notices := fun m n i x => k.notices m n i (h.notices m n i x)
  shelf := fun m n x => k.shelf m n (h.shelf m n x)

/-- A fold of calm steps is calm. -/
theorem Calm.foldl {α : Type} (f : State → α → State) (hf : ∀ s a, Calm s (f s a)) (l : List α) (s : State) :
    Calm s (l.foldl f s) := by
  induction l generalizing s with
  | nil => exact .refl s
  | cons a l ih => exact (hf s a).trans (ih _)

variable (s : State)

/-! ## The updates -/

theorem calm_setSlot (i : SlotId) (r : Slot) : Calm s (s.setSlot i r) := by
  constructor <;> first | rfl | (intros; assumption)

theorem calm_modSlot (i : SlotId) (f : Slot → Slot) : Calm s (s.modSlot i f) := calm_setSlot s i _

theorem calm_modLane (i : SlotId) (f : LaneRecord → LaneRecord) : Calm s (s.modLane i f) := calm_modSlot s i _

theorem calm_map (m : Vector (Option SlotId) 32) : Calm s { s with map := m } := by
  constructor <;> first | rfl | (intros; assumption)

/-- A change of a zone is calm when it keeps its configuration and feeds. -/
theorem calm_modZone (z : ZoneId) (f : Zone → Zone) (h : ∀ v, (f v).quiet = v.quiet) : Calm s (s.modZone z f) := by
  cases z <;> constructor <;> first | rfl | (intros; assumption) | exact h _

/-- A change of the window block is calm when it keeps all but the list and the window. -/
theorem calm_modBlock (f : WindowBlock → WindowBlock) (h : (f s.block).quiet = s.block.quiet) :
    Calm s (s.modBlock f) := by
  constructor <;> first | exact h | rfl | (intros; assumption)

theorem SlotNotices.add_of (k l : SlotNotice) (i : SlotId) (n : SlotNotices) :
    (n.add k i).of l = if l = k then n.of l ||| slotBit i else n.of l := by
  cases k <;> cases l <;> rfl

theorem slotBit_mem (i j : SlotId) : (slotBit i).mem j = decide (i = j) := by
  simp [SlotSet.mem, slotBit, Fin.ext_iff, eq_comm]

/-- After a posting, the pending slot notices are those of before and the posted one. -/
theorem postSlot_hasSlotNotice (k : SlotNotice) (i : SlotId) (m : ManagerId) (l : SlotNotice) (j : SlotId) :
    (s.postSlot k i).hasSlotNotice m l j ↔ s.hasSlotNotice m l j ∨ (l = k ∧ j = i) := by
  unfold State.hasSlotNotice
  rw [postSlot_manager]
  simp only [SlotNotices.add_of]
  by_cases h : l = k
  · have hb : ((slotBit i).getLsbD j.val = true) ↔ j = i := by
      have := slotBit_mem i j
      unfold SlotSet.mem at this
      rw [this]; simp [eq_comm]
    simp only [h, if_true, SlotSet.mem, BitVec.getLsbD_or, Bool.or_eq_true, hb, true_and]
  · simp [h]

@[simp] theorem postSlot_hasShelfNotice (k : SlotNotice) (i : SlotId) (m : ManagerId) (l : ShelfNotice) :
    (s.postSlot k i).hasShelfNotice m l ↔ s.hasShelfNotice m l := by
  unfold State.hasShelfNotice; rw [postSlot_manager]

/-- After a posting, the pending shelf notices are those of before and the posted one. -/
theorem postShelf_hasShelfNotice (k : ShelfNotice) (m : ManagerId) (l : ShelfNotice) :
    (s.postShelf k).hasShelfNotice m l ↔ s.hasShelfNotice m l ∨ l = k := by
  unfold State.hasShelfNotice
  rw [postShelf_manager]
  simp only [BitVec.getLsbD_or, Bool.or_eq_true]
  have : ((BitVec.twoPow 6 k.index).getLsbD l.index = true) ↔ l = k := by cases k <;> cases l <;> decide
  rw [this]

@[simp] theorem postShelf_hasSlotNotice (k : ShelfNotice) (m : ManagerId) (l : SlotNotice) (j : SlotId) :
    (s.postShelf k).hasSlotNotice m l j ↔ s.hasSlotNotice m l j := by
  unfold State.hasSlotNotice; rw [postShelf_manager]

theorem posted_postSlot (k : SlotNotice) (i : SlotId) : (s.postSlot k i).posted k i := by
  intro m; rw [postSlot_hasSlotNotice]; exact Or.inr ⟨rfl, rfl⟩

theorem postedShelf_postShelf (k : ShelfNotice) : (s.postShelf k).postedShelf k := by
  intro m; rw [postShelf_hasShelfNotice]; exact Or.inr rfl

theorem Calm.posted {s t : State} (h : Calm s t) {k : SlotNotice} {i : SlotId} (p : s.posted k i) : t.posted k i :=
  fun m => h.notices m k i (p m)

theorem Calm.postedShelf {s t : State} (h : Calm s t) {k : ShelfNotice} (p : s.postedShelf k) : t.postedShelf k :=
  fun m => h.shelf m k (p m)

theorem calm_postSlot (k : SlotNotice) (i : SlotId) : Calm s (s.postSlot k i) where
  pending := rfl
  timers := rfl
  zone1 := rfl
  zone2 := rfl
  ref := rfl
  block := rfl
  laneDue := rfl
  bank := rfl
  managerA := rfl
  managerB := rfl
  portA := rfl
  portB := rfl
  survey := rfl
  straps := rfl
  restart := rfl
  freeReads := rfl
  notices := fun m l j h => (postSlot_hasSlotNotice s k i m l j).2 (Or.inl h)
  shelf := fun m l h => (postSlot_hasShelfNotice s k i m l).2 h

theorem calm_postShelf (k : ShelfNotice) : Calm s (s.postShelf k) where
  pending := rfl
  timers := rfl
  zone1 := rfl
  zone2 := rfl
  ref := rfl
  block := rfl
  laneDue := rfl
  bank := rfl
  managerA := rfl
  managerB := rfl
  portA := rfl
  portB := rfl
  survey := rfl
  straps := rfl
  restart := rfl
  freeReads := rfl
  notices := fun m l j h => (postShelf_hasSlotNotice s k m l j).2 h
  shelf := fun m l h => (postShelf_hasShelfNotice s k m l).2 (Or.inl h)

theorem calm_count (k : EventKind) (n : Nat) : Calm s (s.count k n) := by
  constructor <;> first | rfl | (intros; assumption)

/-! ## The operations -/

theorem calm_switchLanes (i : SlotId) (m : LaneMode) (t : GroupSet) (k : SwitchKind) (b : Bool) :
    Calm s (s.switchLanes i m t k b) := calm_modSlot s i _

theorem calm_plainLanes (i : SlotId) (m : LaneMode) : Calm s (s.plainLanes i m) := by
  unfold State.plainLanes; split
  · exact .refl s
  · exact calm_switchLanes ..

theorem calm_freeSet (i : SlotId) (gs : GroupSet) : Calm s (s.freeSet i gs) := calm_map s _

theorem calm_claimSet (i : SlotId) (gs : GroupSet) : Calm s (s.claimSet i gs) := calm_map s _

theorem calm_freeGroups (i : SlotId) : Calm s (s.freeGroups i) := (calm_freeSet ..).trans (calm_modLane ..)

theorem calm_discardRegroup (i : SlotId) : Calm s (s.discardRegroup i) := by
  unfold State.discardRegroup; split
  · exact (calm_freeSet ..).trans (calm_modLane ..)
  · exact .refl s

theorem calm_autoAssign (i : SlotId) : Calm s (s.autoAssign i) := by
  unfold State.autoAssign
  extract_lets preferred gain
  split
  · exact .refl s
  · exact (calm_claimSet ..).trans (calm_postSlot ..)

theorem calm_setReservation (i : SlotId) (r : Nat) : Calm s (s.setReservation i r) := by
  unfold State.setReservation
  exact (calm_modZone s _ (Zone.rebook _ _) fun _ => rfl).trans (calm_modSlot ..)

theorem freeFrom_quiet (i : SlotId) (v : Zone) : (v.freeFrom i).quiet = v.quiet := by
  unfold Zone.freeFrom; split
  · split <;> rfl
  · rfl

theorem calm_freeChannel (i : SlotId) : Calm s (s.freeChannel i) := calm_modZone _ _ _ (freeFrom_quiet i)

theorem calm_leaveQueue (i : SlotId) : Calm s (s.leaveQueue i) := calm_modZone _ _ _ fun _ => rfl

theorem calm_joinQueue (i : SlotId) : Calm s (s.joinQueue i) := calm_modZone _ _ _ fun _ => rfl

theorem calm_oversizeTest (i : SlotId) : Calm s (s.oversizeTest i) := by
  unfold State.oversizeTest; extract_lets z; split
  · exact calm_modSlot ..
  · exact .refl s

theorem calm_dropChange (i : SlotId) : Calm s (s.dropChange i) := calm_modBlock _ _ rfl

theorem calm_addChange (i : SlotId) (k : ChangeKind) : Calm s (s.addChange i k) := calm_modBlock _ _ rfl

theorem calm_closeWindow : Calm s s.closeWindow := calm_modBlock _ _ rfl

theorem calm_isolateWindow (i : SlotId) : Calm s (s.isolateWindow i) := by
  unfold State.isolateWindow
  refine calm_modBlock _ _ ?_
  split
  · rfl
  · split
    · rfl
    · split <;> rfl

theorem calm_countMove (old st : SlotState) : Calm s (s.countMove old st) := by
  unfold State.countMove; split
  · exact calm_count ..
  · split
    · exact calm_count ..
    · exact .refl s

theorem calm_vacate (i : SlotId) (st : SlotState) : Calm s (s.vacate i st) := by
  have h := ((calm_leaveQueue s i).trans (calm_freeChannel _ i)).trans (calm_dropChange _ i)
  unfold State.vacate; extract_lets u; split
  · exact h.trans (calm_discardRegroup ..)
  · exact h

theorem calm_lanesFor (i : SlotId) (st : SlotState) : Calm s (s.lanesFor i st) := by
  unfold State.lanesFor; split
  · exact calm_plainLanes ..
  · exact .refl s

theorem calm_powerFor (i : SlotId) (st : SlotState) : Calm s (s.powerFor i st) := by
  unfold State.powerFor; split
  · exact .refl s
  · exact calm_setReservation ..

theorem calm_groupsFor (i : SlotId) (st : SlotState) : Calm s (s.groupsFor i st) := by
  unfold State.groupsFor; split
  · exact calm_freeGroups ..
  · exact .refl s

theorem calm_takePlace (i : SlotId) (st : SlotState) : Calm s (s.takePlace i st) := by
  unfold State.takePlace; split
  · exact calm_joinQueue ..
  · exact calm_addChange ..
  · exact calm_addChange ..
  · exact .refl s

theorem calm_moveTo (i : SlotId) (st : SlotState) : Calm s (s.moveTo i st) :=
  ((((((calm_vacate s i st).trans (calm_lanesFor ..)).trans (calm_powerFor ..)).trans (calm_groupsFor ..)).trans
    (calm_modSlot ..)).trans (calm_postSlot ..)).trans ((calm_countMove ..).trans (calm_takePlace ..))

theorem calm_noteCheckpoint (i : SlotId) : Calm s (s.noteCheckpoint i) := by
  unfold State.noteCheckpoint; split
  · exact calm_postSlot ..
  · exact .refl s

theorem calm_autoAdvance (i : SlotId) : Calm s (s.autoAdvance i) := by
  unfold State.autoAdvance; extract_lets r; split
  · exact calm_moveTo ..
  · exact .refl s

theorem calm_atDeclared (i : SlotId) : Calm s (s.atDeclared i) := by
  unfold State.atDeclared; extract_lets u; split
  · exact (calm_autoAdvance ..).trans (calm_noteCheckpoint ..)
  · exact calm_autoAdvance ..

theorem calm_advanceListen (i : SlotId) : Calm s (s.advanceListen i) := by
  unfold State.advanceListen; split
  · extract_lets u
    have h : Calm s u := by
      unfold u; split
      · exact calm_autoAssign ..
      · exact .refl s
    split
    · exact h
    · exact h.trans (calm_moveTo ..)
  · exact .refl s

theorem calm_advancePowered (i : SlotId) : Calm s (s.advancePowered i) := by
  unfold State.advancePowered; split
  · exact (calm_moveTo ..).trans (calm_advanceListen ..)
  · exact .refl s

theorem calm_atListen (i : SlotId) : Calm s (s.atListen i) := (calm_advanceListen ..).trans (calm_noteCheckpoint ..)

theorem calm_atPowered (i : SlotId) : Calm s (s.atPowered i) := (calm_advancePowered ..).trans (calm_noteCheckpoint ..)

theorem calm_toDeclared (i : SlotId) (h : Bool) (c : Option FaultCause) : Calm s (s.toDeclared i h c) := by
  unfold State.toDeclared; split
  · exact (((calm_moveTo ..).trans (calm_modSlot ..)).trans (calm_oversizeTest ..)).trans (calm_atDeclared ..)
  · exact calm_moveTo ..

theorem calm_bar (i : SlotId) (c : FaultCause) : Calm s (s.bar i c) :=
  ((calm_moveTo ..).trans (calm_modSlot ..)).trans (calm_postSlot ..)

theorem calm_startDrain (i : SlotId) (o : Option DrainOrigin) : Calm s (s.startDrain i o) :=
  ((calm_modSlot ..).trans (calm_moveTo ..)).trans (calm_noteCheckpoint ..)

theorem calm_setRetirePending (i : SlotId) (o : DrainOrigin) : Calm s (s.setRetirePending i o) := by
  unfold State.setRetirePending; split
  · exact .refl s
  · exact calm_modSlot ..

theorem calm_handleOpened (i : SlotId) : Calm s (s.handleOpened i) := by
  unfold State.handleOpened
  repeat' split
  all_goals first
    | exact .refl s | exact calm_moveTo .. | exact calm_setRetirePending .. | exact calm_startDrain ..
    | exact calm_modSlot ..

theorem calm_handleClosed (i : SlotId) : Calm s (s.handleClosed i) := by
  unfold State.handleClosed; extract_lets r
  repeat' split
  all_goals first
    | exact .refl s | exact calm_moveTo .. | exact calm_toDeclared .. | exact calm_modSlot ..

theorem calm_sendIsolated (i : SlotId) (st : SlotState) (c : IsolationCause) : Calm s (s.sendIsolated i st c) := by
  unfold State.sendIsolated; split
  · exact calm_toDeclared ..
  · exact (calm_moveTo ..).trans (calm_modSlot ..)

theorem calm_countIsolation (c : IsolationCause) : Calm s (s.countIsolation c) := by
  unfold State.countIsolation; split <;> first | exact calm_count .. | exact .refl s

theorem calm_isolateLanes (i : SlotId) : Calm s (s.isolateLanes i) := (calm_switchLanes ..).trans (calm_freeGroups ..)

theorem calm_isolate (i : SlotId) (c : IsolationCause) : Calm s (s.isolate i c) :=
  (((calm_isolateLanes s i).trans (calm_isolateWindow ..)).trans (calm_modSlot ..)).trans
    (((calm_sendIsolated ..).trans (calm_postSlot ..)).trans (calm_countIsolation ..))

theorem calm_giveSteering (i : SlotId) (m : ManagerId) : Calm s (s.giveSteering i m) := calm_modSlot ..

theorem hold_quiet (p : Precharge) (v : Zone) : (v.hold p).quiet = v.quiet := rfl

theorem calm_grantTo (z : ZoneId) (i : SlotId) : Calm s (s.grantTo z i) := by
  unfold State.grantTo; split
  · exact .refl s
  · exact ((calm_moveTo ..).trans (calm_setReservation ..)).trans (calm_modZone _ _ _ (hold_quiet _))

theorem calm_sweepQueue (z : ZoneId) : Calm s (s.sweepQueue z) := by
  unfold State.sweepQueue
  refine Calm.foldl _ (fun u e => ?_) _ s
  exact (calm_moveTo u e.slot .declared).trans (calm_noteCheckpoint (u.moveTo e.slot .declared) e.slot)

theorem calm_setWait (z : ZoneId) (w : WaitReason) : Calm s (s.setWait z w) := calm_modZone _ _ _ fun _ => rfl

theorem calm_testHead (z : ZoneId) : Calm s (s.testHead z) := by
  unfold State.testHead; split
  · exact calm_grantTo ..
  · exact calm_setWait ..

theorem calm_examine (z : ZoneId) : Calm s (s.examine z) := (calm_sweepQueue ..).trans (calm_testHead ..)

theorem calm_examineAfter (z : ZoneId) (b : State) : Calm s (s.examineAfter z b) := by
  unfold State.examineAfter; split
  · exact calm_examine ..
  · exact .refl s

/-- The end of an event is calm. -/
theorem calm_settle (before : State) : Calm s (before.settle s) := by
  have h := (calm_examineAfter s .one before).trans (calm_examineAfter _ .two before)
  unfold State.settle; extract_lets u
  split
  · exact h.trans (calm_postShelf ..)
  · exact h

end Sys2Proof.Machine
end

