-- ==== Sys2Proof/Laws/Slots.lean ====
section
/-! SUPPORT. What the operations on slot `i` do to its own record, and that they leave every other slot as it is
(`Local`). -/

namespace Sys2Proof.Machine

theorem Local.refl (i : SlotId) (s : State) : Local i s s := 
  ⟨fun _ _ => rfl, fun _ _ => rfl, fun _ _ => rfl, rfl, fun _ _ => Iff.rfl, fun _ _ _ _ h => h, fun _ _ h => h⟩

theorem Local.trans {i : SlotId} {s t u : State} (h : Local i s t) (k : Local i t u) : Local i s u where
  slots j hj := (k.slots j hj).trans (h.slots j hj)
  held j hj := (k.held j hj).trans (h.held j hj)
  zone z hz := (k.zone z hz).trans (h.zone z hz)
  queue := k.queue.trans h.queue
  listed x hx := (k.listed x hx).trans (h.listed x hx)
  notices m n j hj x := h.notices m n j hj (k.notices m n j hj x)
  shelf m n x := h.shelf m n (k.shelf m n x)

/-- A state with the managers of another has their notices. -/
theorem hasSlotNotice_congr {s t : State} (h : ∀ m, t.manager m = s.manager m) (m : ManagerId) (k : SlotNotice) (j : SlotId) :
    t.hasSlotNotice m k j ↔ s.hasSlotNotice m k j := by unfold State.hasSlotNotice; rw [h]

theorem hasShelfNotice_congr {s t : State} (h : ∀ m, t.manager m = s.manager m) (m : ManagerId) (k : ShelfNotice) :
    t.hasShelfNotice m k ↔ s.hasShelfNotice m k := by unfold State.hasShelfNotice; rw [h]

variable (s : State) (i : SlotId)

/-! ## The updates -/

theorem local_modSlot (f : Slot → Slot) : Local i s (s.modSlot i f) where
  slots _ hj := modSlot_slot_ne s i f hj
  held _ _ := rfl
  zone _ _ := modSlot_zone ..
  queue := by rw [modSlot_zone]
  listed _ _ := Iff.rfl
  notices m l j _ := (hasSlotNotice_congr (fun _ => modSlot_manager ..) m l j).1
  shelf m l := (hasShelfNotice_congr (fun _ => modSlot_manager ..) m l).1

theorem local_modLane (f : LaneRecord → LaneRecord) : Local i s (s.modLane i f) := local_modSlot s i _

theorem local_postSlot (k : SlotNotice) : Local i s (s.postSlot k i) where
  slots _ _ := rfl
  held _ _ := rfl
  zone _ _ := postSlot_zone ..
  queue := by rw [postSlot_zone]
  listed _ _ := Iff.rfl
  notices m l j hj h := ((postSlot_hasSlotNotice s k i m l j).1 h).resolve_right fun e => hj e.2
  shelf _ _ h := (postSlot_hasShelfNotice ..).1 h

theorem local_count (k : EventKind) (n : Nat) : Local i s (s.count k n) where
  slots _ _ := rfl
  held _ _ := rfl
  zone _ _ := count_zone ..
  queue := by rw [count_zone]
  listed _ _ := Iff.rfl
  notices m l j _ := (hasSlotNotice_congr (fun _ => count_manager ..) m l j).1
  shelf m l := (hasShelfNotice_congr (fun _ => count_manager ..) m l).1

/-- A change of the slot's own zone is local when the entries of the others keep their places. -/
theorem local_modZone (f : Zone → Zone)
    (h : ∀ v, (f v).queue.filter (fun e => e.slot ≠ i) = v.queue.filter (fun e => e.slot ≠ i)) :
    Local i s (s.modZone (zoneOf i) f) where
  slots _ _ := modZone_slot ..
  held _ _ := modZone_heldGroups ..
  zone _ hz := modZone_zone_ne s _ _ hz
  queue := by rw [modZone_zone_self]; exact h _
  listed _ _ := by rw [modZone_block]
  notices m l j _ := (hasSlotNotice_congr (fun _ => modZone_manager ..) m l j).1
  shelf m l := (hasShelfNotice_congr (fun _ => modZone_manager ..) m l).1

theorem local_modBlock (f : WindowBlock → WindowBlock)
    (h : ∀ x : ChangeEntry, x.slot ≠ i → (x ∈ (f s.block).list ↔ x ∈ s.block.list)) : Local i s (s.modBlock f) where
  slots _ _ := rfl
  held _ _ := rfl
  zone _ _ := modBlock_zone ..
  queue := by rw [modBlock_zone]
  listed x hx := h x hx
  notices m l j _ := (hasSlotNotice_congr (fun _ => modBlock_manager ..) m l j).1
  shelf m l := (hasShelfNotice_congr (fun _ => modBlock_manager ..) m l).1

/-! ## The map -/

theorem heldGroups_mem (j : SlotId) (g : GroupId) : (s.heldGroups j).mem g = decide (s.map[g.val] = some j) := by
  simp [State.heldGroups, GroupSet.mem]

theorem mem_ext {a b : GroupSet} (h : ∀ g : GroupId, a.mem g = b.mem g) : a = b :=
  BitVec.eq_of_getLsbD_eq fun k hk => h ⟨k, hk⟩

/-- Two maps that agree on a slot's groups give it the same groups. -/
theorem heldGroups_congr {s t : State} {j : SlotId}
    (h : ∀ g : GroupId, t.map[g.val] = some j ↔ s.map[g.val] = some j) : t.heldGroups j = s.heldGroups j :=
  mem_ext fun g => by rw [heldGroups_mem, heldGroups_mem]; exact decide_eq_decide.2 (h g)

theorem freeSet_map (gs : GroupSet) (g : GroupId) :
    (s.freeSet i gs).map[g.val] = if s.map[g.val] = some i ∧ gs.mem g then none else s.map[g.val] := by
  simp [State.freeSet, freeMap]

theorem claimSet_map (gs : GroupSet) (g : GroupId) :
    (s.claimSet i gs).map[g.val] = if gs.mem g then some i else s.map[g.val] := by
  simp [State.claimSet, claimMap]

/-- A slot keeps, of its groups, those that are not freed. -/
theorem freeSet_heldGroups (gs : GroupSet) : (s.freeSet i gs).heldGroups i = s.heldGroups i &&& ~~~gs := by
  refine mem_ext fun g => ?_
  rw [heldGroups_mem, freeSet_map]
  have := heldGroups_mem s i g
  unfold GroupSet.mem at this ⊢
  simp only [BitVec.getLsbD_and, BitVec.getLsbD_not, this, g.isLt, decide_true, Bool.true_and]
  by_cases h : s.map[g.val] = some i <;> cases hg : BitVec.getLsbD gs g.val <;> simp [h]

/-- A slot holds, beside its groups, those it claims. -/
theorem claimSet_heldGroups (gs : GroupSet) : (s.claimSet i gs).heldGroups i = s.heldGroups i ||| gs := by
  refine mem_ext fun g => ?_
  rw [heldGroups_mem, claimSet_map]
  have := heldGroups_mem s i g
  unfold GroupSet.mem at this ⊢
  simp only [BitVec.getLsbD_or, this]
  cases hg : BitVec.getLsbD gs g.val <;> simp

theorem local_freeSet (gs : GroupSet) : Local i s (s.freeSet i gs) where
  slots _ _ := freeSet_slot ..
  held j hj := heldGroups_congr fun g => by
    rw [freeSet_map]; split
    · next h => simp [h.1, Ne.symm hj]
    · rfl
  zone _ _ := freeSet_zone ..
  queue := by rw [freeSet_zone]
  listed _ _ := by rw [freeSet_block]
  notices m l j _ := (hasSlotNotice_congr (fun _ => freeSet_manager ..) m l j).1
  shelf m l := (hasShelfNotice_congr (fun _ => freeSet_manager ..) m l).1

/-- Claiming groups that are free or the slot's own leaves the others theirs. -/
theorem local_claimSet (gs : GroupSet)
    (h : ∀ g : GroupId, gs.mem g = true → s.map[g.val] = none ∨ s.map[g.val] = some i) :
    Local i s (s.claimSet i gs) where
  slots _ _ := claimSet_slot ..
  held j hj := heldGroups_congr fun g => by
    rw [claimSet_map]; split
    · next hg => rcases h g hg with h | h <;> simp [h, Ne.symm hj]
    · rfl
  zone _ _ := claimSet_zone ..
  queue := by rw [claimSet_zone]
  listed _ _ := by rw [claimSet_block]
  notices m l j _ := (hasSlotNotice_congr (fun _ => claimSet_manager ..) m l j).1
  shelf m l := (hasShelfNotice_congr (fun _ => claimSet_manager ..) m l).1

/-! ## The lanes -/

/-- A slot's record after its bank is switched. -/
def Slot.switched (mode : LaneMode) (transmit : GroupSet) (kind : SwitchKind) (boundary : Bool) (r : Slot) : Slot :=
  { r with
    lane := { r.lane with commanded := mode, transmit := transmit, comparison := some kind, atBoundary := boundary }
    latch := { r.latch with laneMode := mode, drive := if mode = .joined then transmit else 0 } }

/-- A slot's record after a change among OPEN, BIASED and LISTEN. -/
def Slot.plain (mode : LaneMode) (r : Slot) : Slot :=
  if r.lane.commanded = mode ∧ r.lane.transmit = 0 then r else r.switched mode 0 .plain false

/-- A slot's record after all its groups are freed. -/
def Slot.ungrouped (r : Slot) : Slot := { r with lane := { r.lane with pending := none, restore := none } }

theorem switchLanes_eq (m : LaneMode) (t : GroupSet) (k : SwitchKind) (b : Bool) :
    s.switchLanes i m t k b = s.modSlot i (Slot.switched m t k b) := rfl

theorem switchLanes_slot_self (m : LaneMode) (t : GroupSet) (k : SwitchKind) (b : Bool) :
    (s.switchLanes i m t k b).slot i = (s.slot i).switched m t k b := modSlot_slot_self ..

theorem plainLanes_slot_self (m : LaneMode) : (s.plainLanes i m).slot i = (s.slot i).plain m := by
  unfold State.plainLanes Slot.plain; split
  · rfl
  · exact switchLanes_slot_self ..

theorem local_switchLanes (m : LaneMode) (t : GroupSet) (k : SwitchKind) (b : Bool) :
    Local i s (s.switchLanes i m t k b) := local_modSlot ..

theorem local_plainLanes (m : LaneMode) : Local i s (s.plainLanes i m) := by
  unfold State.plainLanes; split
  · exact .refl ..
  · exact local_switchLanes ..

theorem freeGroups_slot_self : (s.freeGroups i).slot i = (s.slot i).ungrouped := by
  unfold State.freeGroups Slot.ungrouped; rw [modLane_slot_self, freeSet_slot]

theorem local_freeGroups : Local i s (s.freeGroups i) := (local_freeSet ..).trans (local_modLane ..)

theorem freeGroups_heldGroups : (s.freeGroups i).heldGroups i = 0 := by
  unfold State.freeGroups
  rw [modLane_heldGroups, freeSet_heldGroups]
  simp

theorem local_discardRegroup : Local i s (s.discardRegroup i) := by
  unfold State.discardRegroup; split
  · exact (local_freeSet ..).trans (local_modLane ..)
  · exact .refl ..

theorem discardRegroup_slot_self :
    (s.discardRegroup i).slot i = { s.slot i with lane := { (s.slot i).lane with pending := none } } := by
  unfold State.discardRegroup; split
  · rw [modLane_slot_self, freeSet_slot]
  · next h => rw [Bool.not_eq_true, Option.isSome_eq_false_iff, Option.isNone_iff_eq_none] at h; rw [← h]

theorem local_autoAssign : Local i s (s.autoAssign i) := by
  unfold State.autoAssign
  extract_lets preferred gain
  split
  · exact .refl ..
  · refine (local_claimSet s i gain fun g hg => Or.inl ?_).trans (local_postSlot ..)
    have : decide (g ∈ preferred ∧ s.map[g.val] = none) = true := by
      have h := hg
      unfold gain GroupSet.mem at h
      simpa using h
    exact (of_decide_eq_true this).2

@[simp] theorem autoAssign_slot (j : SlotId) : (s.autoAssign i).slot j = s.slot j := by
  unfold State.autoAssign
  extract_lets preferred gain
  split <;> simp

/-! ## Budget, queue, channel, change list -/

theorem local_setReservation (r : Nat) : Local i s (s.setReservation i r) := by
  unfold State.setReservation
  exact (local_modZone s i (Zone.rebook _ _) fun _ => rfl).trans (local_modSlot ..)

theorem setReservation_slot_self (r : Nat) :
    (s.setReservation i r).slot i = { s.slot i with reservation := r } := by
  unfold State.setReservation; rw [modSlot_slot_self, modZone_slot]

theorem freeFrom_queue (v : Zone) : (v.freeFrom i).queue = v.queue := by
  unfold Zone.freeFrom; split
  · split <;> rfl
  · rfl

theorem local_freeChannel : Local i s (s.freeChannel i) :=
  local_modZone s i _ fun v => by rw [freeFrom_queue]

@[simp] theorem freeChannel_slot (j : SlotId) : (s.freeChannel i).slot j = s.slot j := modZone_slot ..

theorem local_leaveQueue : Local i s (s.leaveQueue i) := by
  unfold State.leaveQueue
  exact local_modZone s i _ fun v => by simp [List.filter_filter]

@[simp] theorem leaveQueue_slot (j : SlotId) : (s.leaveQueue i).slot j = s.slot j := modZone_slot ..

theorem placeEntry_filter (e : QueueEntry) (l : List QueueEntry) (p : QueueEntry → Bool) (h : p e = false) :
    (placeEntry e l).filter p = l.filter p := by
  induction l with
  | nil => simp [placeEntry, h]
  | cons x xs ih =>
    unfold placeEntry; split
    · simp [List.filter_cons, ih]
    · simp [List.filter_cons, h]

theorem local_joinQueue : Local i s (s.joinQueue i) := by
  unfold State.joinQueue
  exact local_modZone s i _ fun v => placeEntry_filter _ _ _ (by simp)

@[simp] theorem joinQueue_slot (j : SlotId) : (s.joinQueue i).slot j = s.slot j := modZone_slot ..

theorem local_oversizeTest : Local i s (s.oversizeTest i) := by
  unfold State.oversizeTest; extract_lets z; split
  · exact local_modSlot ..
  · exact .refl ..

theorem mem_insertChange (e x : ChangeEntry) (l : List ChangeEntry) : x ∈ insertChange e l ↔ x = e ∨ x ∈ l := by
  unfold insertChange
  split
  · simp only [List.mem_append, List.mem_cons, List.mem_filter, decide_eq_true_eq]
    by_cases h : x.kind = .leave <;> simp [h]; tauto
  · simp [or_comm]
  · simp [or_comm]

theorem local_dropChange : Local i s (s.dropChange i) := by
  unfold State.dropChange
  exact local_modBlock s i _ fun x hx => by simp [hx]

@[simp] theorem dropChange_slot (j : SlotId) : (s.dropChange i).slot j = s.slot j := rfl

theorem local_addChange (k : ChangeKind) : Local i s (s.addChange i k) := by
  unfold State.addChange
  refine local_modBlock s i _ fun x hx => ?_
  simp only [mem_insertChange, List.mem_filter, decide_eq_true_eq]
  constructor
  · rintro (rfl | h)
    · exact absurd rfl hx
    · exact h.1
  · exact fun h => Or.inr ⟨h, hx⟩

@[simp] theorem addChange_slot (k : ChangeKind) (j : SlotId) : (s.addChange i k).slot j = s.slot j := rfl

theorem local_closeWindow : Local i s s.closeWindow := local_modBlock s i _ fun _ _ => Iff.rfl

@[simp] theorem closeWindow_slot (j : SlotId) : s.closeWindow.slot j = s.slot j := rfl

theorem isolateWindow_list : (s.isolateWindow i).block.list = s.block.list := by
  unfold State.isolateWindow State.modBlock
  dsimp only
  split
  · rfl
  · split
    · rfl
    · split <;> rfl

theorem local_isolateWindow : Local i s (s.isolateWindow i) where
  slots _ _ := rfl
  held _ _ := rfl
  zone z _ := by cases z <;> rfl
  queue := by cases h : zoneOf i <;> rfl
  listed x _ := by rw [isolateWindow_list]
  notices m l j _ := (hasSlotNotice_congr (fun _ => modBlock_manager ..) m l j).1
  shelf m l := (hasShelfNotice_congr (fun _ => modBlock_manager ..) m l).1

@[simp] theorem isolateWindow_slot (j : SlotId) : (s.isolateWindow i).slot j = s.slot j := rfl

theorem local_countMove (a b : SlotState) : Local i s (s.countMove a b) := by
  unfold State.countMove; split
  · exact local_count ..
  · split
    · exact local_count ..
    · exact .refl ..

@[simp] theorem countMove_slot (a b : SlotState) (j : SlotId) : (s.countMove a b).slot j = s.slot j := by
  unfold State.countMove; split
  · rfl
  · split <;> rfl

/-! ## The transition -/

theorem local_vacate (st : SlotState) : Local i s (s.vacate i st) := by
  have h := ((local_leaveQueue s i).trans (local_freeChannel _ i)).trans (local_dropChange _ i)
  unfold State.vacate; extract_lets u; split
  · exact h.trans (local_discardRegroup ..)
  · exact h

theorem local_lanesFor (st : SlotState) : Local i s (s.lanesFor i st) := by
  unfold State.lanesFor; split
  · exact local_plainLanes ..
  · exact .refl ..

theorem local_powerFor (st : SlotState) : Local i s (s.powerFor i st) := by
  unfold State.powerFor; split
  · exact .refl ..
  · exact local_setReservation ..

theorem local_groupsFor (st : SlotState) : Local i s (s.groupsFor i st) := by
  unfold State.groupsFor; split
  · exact local_freeGroups ..
  · exact .refl ..

theorem local_takePlace (st : SlotState) : Local i s (s.takePlace i st) := by
  unfold State.takePlace; split
  · exact local_joinQueue ..
  · exact local_addChange ..
  · exact local_addChange ..
  · exact .refl ..

theorem local_moveTo (st : SlotState) : Local i s (s.moveTo i st) :=
  ((((((local_vacate s i st).trans (local_lanesFor ..)).trans (local_powerFor ..)).trans (local_groupsFor ..)).trans
    (local_modSlot ..)).trans (local_postSlot ..)).trans ((local_countMove ..).trans (local_takePlace ..))

/-- The stages of a slot's record as it goes to a state. -/
def Slot.vacated (st : SlotState) (r : Slot) : Slot :=
  if st = .draining then { r with lane := { r.lane with pending := none } } else r

def Slot.lanesFor (st : SlotState) (r : Slot) : Slot :=
  match st.laneMode with
  | some m => r.plain m
  | none => r

def Slot.powerFor (st : SlotState) (r : Slot) : Slot := if st.isPowered then r else { r with reservation := 0 }

def Slot.groupsFor (st : SlotState) (r : Slot) : Slot := if st.groupless then r.ungrouped else r

/-- The record of a slot after it goes to a state. -/
def Slot.moved (st : SlotState) (t : TimerSettings) (r : Slot) : Slot :=
  ((((r.vacated st).lanesFor st).powerFor st).groupsFor st).enter st t

theorem vacate_slot_self (st : SlotState) : (s.vacate i st).slot i = (s.slot i).vacated st := by
  unfold State.vacate Slot.vacated; extract_lets u
  have h : u.slot i = s.slot i := by simp [u]
  split
  · rw [discardRegroup_slot_self, h]
  · exact h

theorem lanesFor_slot_self (st : SlotState) : (s.lanesFor i st).slot i = (s.slot i).lanesFor st := by
  unfold State.lanesFor Slot.lanesFor
  cases st.laneMode
  · rfl
  · exact plainLanes_slot_self ..

theorem powerFor_slot_self (st : SlotState) : (s.powerFor i st).slot i = (s.slot i).powerFor st := by
  unfold State.powerFor Slot.powerFor; split
  · rfl
  · exact setReservation_slot_self ..

theorem groupsFor_slot_self (st : SlotState) : (s.groupsFor i st).slot i = (s.slot i).groupsFor st := by
  unfold State.groupsFor Slot.groupsFor; split
  · exact freeGroups_slot_self ..
  · rfl

@[simp] theorem takePlace_slot (st : SlotState) (j : SlotId) : (s.takePlace i st).slot j = s.slot j := by
  unfold State.takePlace; split <;> simp

/-- A slot that goes to a state has the record `Slot.moved` gives. -/
theorem moveTo_slot_self (st : SlotState) : (s.moveTo i st).slot i = (s.slot i).moved st s.timers := by
  unfold State.moveTo Slot.moved
  extract_lets u
  rw [takePlace_slot, countMove_slot, postSlot_slot, modSlot_slot_self]
  unfold u
  rw [groupsFor_slot_self, powerFor_slot_self, lanesFor_slot_self, vacate_slot_self]

/-! ## The record after a transition, field by field -/

/-- What a change of a slot's lanes, reservation and groups leaves of its record. -/
structure SameBut (r v : Slot) : Prop where
  state          : v.state = r.state
  policy         : v.policy = r.policy
  override       : v.override = r.override
  steering       : v.steering = r.steering
  decl           : v.decl = r.decl
  heldMark       : v.heldMark = r.heldMark
  oversize       : v.oversize = r.oversize
  clamped        : v.clamped = r.clamped
  attempts       : v.attempts = r.attempts
  cause          : v.cause = r.cause
  retirePending  : v.retirePending = r.retirePending
  origin         : v.origin = r.origin
  target         : v.target = r.target
  firstCode      : v.firstCode = r.firstCode
  latestCode     : v.latestCode = r.latestCode
  lines          : v.lines = r.lines

theorem SameBut.refl (r : Slot) : SameBut r r := by constructor <;> rfl

theorem SameBut.trans {r v w : Slot} (h : SameBut r v) (k : SameBut v w) : SameBut r w := by
  constructor
  · exact k.state.trans h.state
  · exact k.policy.trans h.policy
  · exact k.override.trans h.override
  · exact k.steering.trans h.steering
  · exact k.decl.trans h.decl
  · exact k.heldMark.trans h.heldMark
  · exact k.oversize.trans h.oversize
  · exact k.clamped.trans h.clamped
  · exact k.attempts.trans h.attempts
  · exact k.cause.trans h.cause
  · exact k.retirePending.trans h.retirePending
  · exact k.origin.trans h.origin
  · exact k.target.trans h.target
  · exact k.firstCode.trans h.firstCode
  · exact k.latestCode.trans h.latestCode
  · exact k.lines.trans h.lines

section Moved

variable (st : SlotState) (t : TimerSettings) (r : Slot)

theorem vacated_same : SameBut r (r.vacated st) := by
  unfold Slot.vacated; split
  · constructor <;> rfl
  · exact .refl r

theorem plain_same (m : LaneMode) : SameBut r (r.plain m) := by
  unfold Slot.plain; split
  · exact .refl r
  · constructor <;> rfl

theorem lanesFor_same : SameBut r (r.lanesFor st) := by
  unfold Slot.lanesFor; split
  · exact plain_same ..
  · exact .refl r

theorem powerFor_same : SameBut r (r.powerFor st) := by
  unfold Slot.powerFor; split
  · exact .refl r
  · constructor <;> rfl

theorem groupsFor_same : SameBut r (r.groupsFor st) := by
  unfold Slot.groupsFor; split
  · constructor <;> rfl
  · exact .refl r

theorem stages_same : SameBut r ((((r.vacated st).lanesFor st).powerFor st).groupsFor st) :=
  (((vacated_same st r).trans (lanesFor_same ..)).trans (powerFor_same ..)).trans (groupsFor_same ..)

@[simp] theorem moved_state : (r.moved st t).state = st := rfl
@[simp] theorem moved_phase : (r.moved st t).phase = st.firstPhase := rfl
@[simp] theorem moved_powerPath : (r.moved st t).powerPath = st.powerPath := rfl
@[simp] theorem moved_mgmtPower : (r.moved st t).mgmtPower = st.mgmtPower := rfl
@[simp] theorem moved_latch_power : (r.moved st t).latch.power = st.powerPath := rfl
@[simp] theorem moved_latch_mgmt : (r.moved st t).latch.mgmt = st.mgmtPower := rfl
@[simp] theorem moved_declareTimer :
    (r.moved st t).declareTimer = if st = .present then .running 0 t.declare else .stopped := rfl
@[simp] theorem moved_drainTimer :
    (r.moved st t).drainTimer = if st = .draining then .running 0 t.drain else .stopped := rfl
@[simp] theorem moved_dischargeTimer :
    (r.moved st t).dischargeTimer = if st = .poweringDown then .running 0 t.discharge else .stopped := rfl
@[simp] theorem moved_policy : (r.moved st t).policy = r.policy := (stages_same st r).policy
@[simp] theorem moved_override : (r.moved st t).override = r.override := (stages_same st r).override
@[simp] theorem moved_firstCode : (r.moved st t).firstCode = r.firstCode := (stages_same st r).firstCode
@[simp] theorem moved_latestCode : (r.moved st t).latestCode = r.latestCode := (stages_same st r).latestCode
@[simp] theorem moved_lines : (r.moved st t).lines = r.lines := (stages_same st r).lines
@[simp] theorem moved_handleClosed : (r.moved st t).handleClosed = r.handleClosed := by
  unfold Slot.handleClosed; rw [moved_lines]

@[simp] theorem moved_backoffTimer : (r.moved st t).backoffTimer =
    if st = .reverted ∧ r.policy = .auto then .running 0 (64 * r.attempts) else .stopped := by
  unfold Slot.moved Slot.enter Slot.enterTimers
  simp only [(stages_same st r).policy, (stages_same st r).attempts]

@[simp] theorem moved_steering : (r.moved st t).steering = if st.unsteered then none else r.steering := by
  unfold Slot.moved Slot.enter Slot.enterTimers
  simp only [(stages_same st r).steering]

@[simp] theorem moved_cause :
    (r.moved st t).cause = if st = .barred ∨ st = .declared then r.cause else none := by
  unfold Slot.moved Slot.enter Slot.enterTimers
  simp only [(stages_same st r).cause]

@[simp] theorem moved_heldMark :
    (r.moved st t).heldMark = if r.state = .declared then false else r.heldMark := by
  unfold Slot.moved Slot.enter Slot.enterTimers
  simp only [(stages_same st r).heldMark, (stages_same st r).state]

@[simp] theorem moved_retirePending : (r.moved st t).retirePending =
    if st = .draining ∨ st = .poweringDown ∨ st = .released ∨ st = .barred ∨ st = .declared ∨ st = .empty ∨
        st = .seating then false else r.retirePending := by
  unfold Slot.moved Slot.enter Slot.enterTimers
  simp only [(stages_same st r).retirePending]

@[simp] theorem moved_origin : (r.moved st t).origin =
    if st = .live ∨ st = .poweringDown ∨ st = .released ∨ st = .barred ∨ st = .declared ∨ st = .empty ∨
        st = .seating then none else r.origin := by
  unfold Slot.moved Slot.enter Slot.enterTimers
  simp only [(stages_same st r).origin]

@[simp] theorem moved_target :
    (r.moved st t).target = if st = .poweringDown then .released else r.target := by
  unfold Slot.moved Slot.enter Slot.enterTimers
  simp only [(stages_same st r).target]

@[simp] theorem moved_attempts : (r.moved st t).attempts =
    if st = .live ∨ st = .empty ∨ st = .seating ∨ (st = .draining ∧ r.state = .joinObserve) then 0
    else r.attempts := by
  unfold Slot.moved Slot.enter Slot.enterTimers
  simp only [(stages_same st r).attempts, (stages_same st r).state]

@[simp] theorem moved_decl :
    (r.moved st t).decl = if st = .empty ∨ st = .seating then none else r.decl := by
  unfold Slot.moved Slot.enter Slot.enterTimers
  simp only [(stages_same st r).decl]

@[simp] theorem moved_oversize :
    (r.moved st t).oversize = if st = .empty ∨ st = .seating then false else r.oversize := by
  unfold Slot.moved Slot.enter Slot.enterTimers
  simp only [(stages_same st r).oversize]

@[simp] theorem moved_clamped :
    (r.moved st t).clamped = if st = .empty ∨ st = .seating then false else r.clamped := by
  unfold Slot.moved Slot.enter Slot.enterTimers
  simp only [(stages_same st r).clamped]

@[simp] theorem moved_reservation :
    (r.moved st t).reservation = if st.isPowered then r.reservation else 0 := by
  unfold Slot.moved Slot.enter Slot.enterTimers Slot.groupsFor Slot.ungrouped Slot.powerFor Slot.lanesFor Slot.plain
    Slot.switched Slot.vacated
  cases st <;> simp [SlotState.groupless, SlotState.isPowered, SlotState.laneMode] <;> split <;> rfl

@[simp] theorem plain_commanded (m : LaneMode) : (r.plain m).lane.commanded = m := by
  unfold Slot.plain; split
  · next h => exact h.1
  · rfl

@[simp] theorem plain_transmit (m : LaneMode) : (r.plain m).lane.transmit = 0 := by
  unfold Slot.plain; split
  · next h => exact h.2
  · rfl

/-- The lanes of a slot that goes to a state: the mode the state brings with it, with nothing transmitted, or as they
were. -/
@[simp] theorem moved_commanded : (r.moved st t).lane.commanded = st.laneMode.getD r.lane.commanded := by
  unfold Slot.moved Slot.enter Slot.enterTimers Slot.groupsFor Slot.ungrouped Slot.powerFor Slot.lanesFor
  cases h : st.laneMode <;> cases st.isPowered <;> cases st.groupless <;> simp [Slot.vacated] <;> split <;> rfl

@[simp] theorem moved_transmit :
    (r.moved st t).lane.transmit = if st.laneMode.isSome then 0 else r.lane.transmit := by
  unfold Slot.moved Slot.enter Slot.enterTimers Slot.groupsFor Slot.ungrouped Slot.powerFor Slot.lanesFor
  cases h : st.laneMode <;> cases st.isPowered <;> cases st.groupless <;> simp [Slot.vacated] <;> split <;> rfl

theorem plain_restore (m : LaneMode) : (r.plain m).lane.restore = r.lane.restore := by
  unfold Slot.plain; split <;> rfl

@[simp] theorem moved_pending : (r.moved st t).lane.pending = none := rfl

@[simp] theorem moved_restore :
    (r.moved st t).lane.restore = if st.groupless then none else r.lane.restore := by
  unfold Slot.moved Slot.enter Slot.enterTimers Slot.groupsFor Slot.ungrouped Slot.powerFor Slot.lanesFor Slot.vacated
  cases st <;> simp [SlotState.groupless, SlotState.isPowered, SlotState.laneMode, plain_restore]

end Moved

/-! ## The rest of the slot operations -/

@[simp] theorem noteCheckpoint_slot (j : SlotId) : (s.noteCheckpoint i).slot j = s.slot j := by
  unfold State.noteCheckpoint; split
  · exact postSlot_slot ..
  · rfl

theorem local_noteCheckpoint : Local i s (s.noteCheckpoint i) := by
  unfold State.noteCheckpoint; split
  · exact local_postSlot ..
  · exact .refl ..

theorem local_autoAdvance : Local i s (s.autoAdvance i) := by
  unfold State.autoAdvance; extract_lets r; split
  · exact local_moveTo ..
  · exact .refl ..

theorem local_atDeclared : Local i s (s.atDeclared i) := by
  unfold State.atDeclared; extract_lets u; split
  · exact (local_autoAdvance ..).trans (local_noteCheckpoint ..)
  · exact local_autoAdvance ..

theorem local_advanceListen : Local i s (s.advanceListen i) := by
  unfold State.advanceListen; split
  · extract_lets u
    have h : Local i s u := by
      unfold u; split
      · exact local_autoAssign ..
      · exact .refl ..
    split
    · exact h
    · exact h.trans (local_moveTo ..)
  · exact .refl ..

theorem local_advancePowered : Local i s (s.advancePowered i) := by
  unfold State.advancePowered; split
  · exact (local_moveTo ..).trans (local_advanceListen ..)
  · exact .refl ..

theorem local_atListen : Local i s (s.atListen i) := (local_advanceListen ..).trans (local_noteCheckpoint ..)

theorem local_atPowered : Local i s (s.atPowered i) := (local_advancePowered ..).trans (local_noteCheckpoint ..)

theorem local_toDeclared (h : Bool) (c : Option FaultCause) : Local i s (s.toDeclared i h c) := by
  unfold State.toDeclared; split
  · exact (((local_moveTo ..).trans (local_modSlot ..)).trans (local_oversizeTest ..)).trans (local_atDeclared ..)
  · exact local_moveTo ..

theorem local_bar (c : FaultCause) : Local i s (s.bar i c) :=
  ((local_moveTo ..).trans (local_modSlot ..)).trans (local_postSlot ..)

theorem bar_slot_self (c : FaultCause) :
    (s.bar i c).slot i = { (s.slot i).moved .barred s.timers with cause := some c } := by
  unfold State.bar; rw [postSlot_slot, modSlot_slot_self, moveTo_slot_self]

theorem local_startDrain (o : Option DrainOrigin) : Local i s (s.startDrain i o) :=
  ((local_modSlot ..).trans (local_moveTo ..)).trans (local_noteCheckpoint ..)

theorem startDrain_slot_self (o : Option DrainOrigin) : (s.startDrain i o).slot i =
    Slot.moved .draining s.timers { s.slot i with origin := if o.isSome then o else (s.slot i).origin } := by
  unfold State.startDrain; extract_lets u
  rw [noteCheckpoint_slot, moveTo_slot_self]
  unfold u; rw [modSlot_slot_self, modSlot_timers]

theorem local_setRetirePending (o : DrainOrigin) : Local i s (s.setRetirePending i o) := by
  unfold State.setRetirePending; split
  · exact .refl ..
  · exact local_modSlot ..

theorem local_handleOpened : Local i s (s.handleOpened i) := by
  unfold State.handleOpened
  repeat' split
  all_goals first
    | exact .refl .. | exact local_moveTo .. | exact local_setRetirePending .. | exact local_startDrain ..
    | exact local_modSlot ..

theorem local_handleClosed : Local i s (s.handleClosed i) := by
  unfold State.handleClosed; extract_lets r
  repeat' split
  all_goals first
    | exact .refl .. | exact local_moveTo .. | exact local_toDeclared .. | exact local_modSlot ..

theorem local_sendIsolated (st : SlotState) (c : IsolationCause) : Local i s (s.sendIsolated i st c) := by
  unfold State.sendIsolated; split
  · exact local_toDeclared ..
  · exact (local_moveTo ..).trans (local_modSlot ..)

theorem local_countIsolation (c : IsolationCause) : Local i s (s.countIsolation c) := by
  unfold State.countIsolation; split <;> first | exact local_count .. | exact .refl ..

@[simp] theorem countIsolation_slot (c : IsolationCause) (j : SlotId) : (s.countIsolation c).slot j = s.slot j := by
  unfold State.countIsolation; split <;> first | exact count_slot .. | rfl

theorem local_isolateLanes : Local i s (s.isolateLanes i) := (local_switchLanes ..).trans (local_freeGroups ..)

theorem local_isolate (c : IsolationCause) : Local i s (s.isolate i c) :=
  (((local_isolateLanes s i).trans (local_isolateWindow ..)).trans (local_modSlot ..)).trans
    (((local_sendIsolated ..).trans (local_postSlot ..)).trans (local_countIsolation ..))

theorem local_giveSteering (m : ManagerId) : Local i s (s.giveSteering i m) := local_modSlot ..

end Sys2Proof.Machine
end

