-- ==== Sys2Proof/Laws/Settle.lean ====
section
/-! SUPPORT. The end of an event: what the examination of the heads can change, and when there is none. -/

namespace Sys2Proof.Machine

theorem inQueue_iff {s : State} {j : SlotId} : s.inQueue j = true ↔ ∃ z, ∃ e ∈ (s.zone z).queue, e.slot = j := by
  unfold State.inQueue
  rw [List.any_append, Bool.or_eq_true, List.any_eq_true, List.any_eq_true]
  constructor
  · rintro (⟨e, h, k⟩ | ⟨e, h, k⟩)
    · exact ⟨.one, e, h, of_decide_eq_true k⟩
    · exact ⟨.two, e, h, of_decide_eq_true k⟩
  · rintro ⟨z, e, h, k⟩
    cases z
    · exact Or.inl ⟨e, h, decide_eq_true k⟩
    · exact Or.inr ⟨e, h, decide_eq_true k⟩

theorem inQueue_mono {s t : State} (h : ∀ z e, e ∈ (t.zone z).queue → e ∈ (s.zone z).queue) {j : SlotId}
    (k : s.inQueue j = false) : t.inQueue j = false := by
  cases ht : t.inQueue j with
  | false => rfl
  | true =>
    obtain ⟨z, e, he, hj⟩ := inQueue_iff.1 ht
    rw [inQueue_iff.2 ⟨z, e, h z e he, hj⟩] at k
    exact absurd k (by decide)

theorem EndOfEvent.refl (s : State) : EndOfEvent s s :=
  ⟨fun _ _ => rfl, fun _ _ => Or.inl rfl, fun _ => Or.inl rfl, fun _ => rfl, rfl, rfl, fun _ _ h => h, fun _ _ => Iff.rfl,
    rfl, fun _ _ _ _ h => h, fun _ _ _ h => h⟩

theorem EndOfEvent.trans {s t u : State} (h : EndOfEvent s t) (k : EndOfEvent t u) : EndOfEvent s u where
  slots j hj := (k.slots j (inQueue_mono h.queue hj)).trans (h.slots j hj)
  granted j hj := by
    have ht : (t.slot j).oversize = false := (h.oversize j).trans hj
    rcases k.granted j ht with e | e
    · rw [e]; exact h.granted j hj
    · exact Or.inr e
  swept j := by
    rcases k.swept j with e | e
    · rw [e]; exact h.swept j
    · exact Or.inr e
  oversize j := (k.oversize j).trans (h.oversize j)
  map := k.map.trans h.map
  opened := k.opened.trans h.opened
  queue z e he := h.queue z e (k.queue z e he)
  listed x hx := (k.listed x (inQueue_mono h.queue hx)).trans (h.listed x hx)
  bank := k.bank.trans h.bank
  notices m l j hj x := h.notices m l j hj (k.notices m l j (inQueue_mono h.queue hj) x)
  shelf m l hl x := h.shelf m l hl (k.shelf m l hl x)

variable (s : State)

/-- A FEED notice is within the end of an event. -/
theorem endOfEvent_postFeed : EndOfEvent s (s.postShelf .feed) where
  slots _ _ := rfl
  granted _ _ := Or.inl rfl
  swept _ := Or.inl rfl
  oversize _ := rfl
  map := rfl
  opened := rfl
  queue z e h := by rwa [postShelf_zone] at h
  listed _ _ := Iff.rfl
  bank := rfl
  notices m l j _ h := (postShelf_hasSlotNotice ..).1 h
  shelf m l hl h := ((postShelf_hasShelfNotice s .feed m l).1 h).resolve_right hl

/-- A CHECKPOINT notice of a slot that stood in a queue is within the end of an event. -/
theorem EndOfEvent.noteCheckpoint {s u : State} (k : EndOfEvent s u) (i : SlotId) (hi : s.inQueue i = true) :
    EndOfEvent s (u.noteCheckpoint i) := by
  unfold State.noteCheckpoint; split
  · exact {
      slots := k.slots, granted := k.granted, swept := k.swept, oversize := k.oversize, map := k.map
      opened := k.opened, queue := fun z e h => k.queue z e (by rwa [postSlot_zone] at h), listed := k.listed
      bank := k.bank
      notices := fun m l j hj h => by
        rcases (postSlot_hasSlotNotice u .checkpoint i m l j).1 h with h | h
        · exact k.notices m l j hj h
        · rw [h.2, hi] at hj; exact absurd hj (by decide)
      shelf := fun m l hl h => k.shelf m l hl ((postSlot_hasShelfNotice ..).1 h) }
  · exact k

/-- A change of a zone that keeps its queue is within the end of an event. -/
theorem endOfEvent_modZone (z : ZoneId) (f : Zone → Zone) (h : ∀ v, (f v).queue = v.queue) :
    EndOfEvent s (s.modZone z f) where
  slots _ _ := modZone_slot ..
  granted _ _ := Or.inl (modZone_slot ..)
  swept _ := Or.inl (modZone_slot ..)
  oversize _ := by rw [modZone_slot]
  map := modZone_map ..
  opened := by rw [modZone_block]
  queue w e he := by
    rw [modZone_zone] at he
    split at he
    · next hw => rw [h] at he; rwa [hw]
    · exact he
  listed _ _ := by rw [modZone_block]
  bank := modZone_bank ..
  notices m l j _ := (hasSlotNotice_congr (fun _ => modZone_manager ..) m l j).1
  shelf m l _ := (hasShelfNotice_congr (fun _ => modZone_manager ..) m l).1

/-! ## A queued slot that leaves its queue -/

theorem vacate_queue (i : SlotId) (st : SlotState) (z : ZoneId) :
    ((s.vacate i st).zone z).queue =
      if z = zoneOf i then (s.zone z).queue.filter (fun e => e.slot ≠ i) else (s.zone z).queue := by
  have h : ∀ u : State, ((u.discardRegroup i).zone z) = u.zone z := fun u => by
    unfold State.discardRegroup; split
    · rw [modLane_zone, freeSet_zone]
    · rfl
  unfold State.vacate; extract_lets u
  have hu : (u.zone z).queue =
      if z = zoneOf i then (s.zone z).queue.filter (fun e => e.slot ≠ i) else (s.zone z).queue := by
    unfold u State.dropChange State.freeChannel State.leaveQueue
    rw [modBlock_zone]
    by_cases hz : z = zoneOf i
    · rw [hz, modZone_zone_self, freeFrom_queue, modZone_zone_self, if_pos rfl]
    · rw [modZone_zone_ne _ _ _ hz, modZone_zone_ne _ _ _ hz, if_neg hz]
  split
  · rw [h, hu]
  · exact hu

@[simp] theorem switchLanes_zone (i : SlotId) (m : LaneMode) (t : GroupSet) (k : SwitchKind) (b : Bool) (z : ZoneId) :
    (s.switchLanes i m t k b).zone z = s.zone z := modSlot_zone ..

@[simp] theorem plainLanes_zone (i : SlotId) (m : LaneMode) (z : ZoneId) : (s.plainLanes i m).zone z = s.zone z := by
  unfold State.plainLanes; split
  · rfl
  · exact switchLanes_zone ..

@[simp] theorem lanesFor_zone (i : SlotId) (st : SlotState) (z : ZoneId) : (s.lanesFor i st).zone z = s.zone z := by
  unfold State.lanesFor; split
  · exact plainLanes_zone ..
  · rfl

theorem setReservation_zone (i : SlotId) (r : Nat) (z : ZoneId) : (s.setReservation i r).zone z =
    if z = zoneOf i then (s.zone z).rebook (s.slot i).reservation r else s.zone z := by
  unfold State.setReservation; rw [modSlot_zone, modZone_zone]
  split
  · next h => rw [h]
  · rfl

@[simp] theorem setReservation_queue (i : SlotId) (r : Nat) (z : ZoneId) :
    ((s.setReservation i r).zone z).queue = (s.zone z).queue := by
  rw [setReservation_zone]; split <;> rfl

@[simp] theorem powerFor_queue (i : SlotId) (st : SlotState) (z : ZoneId) :
    ((s.powerFor i st).zone z).queue = (s.zone z).queue := by
  unfold State.powerFor; split
  · rfl
  · exact setReservation_queue ..

@[simp] theorem freeGroups_zone (i : SlotId) (z : ZoneId) : (s.freeGroups i).zone z = s.zone z := by
  unfold State.freeGroups; rw [modLane_zone, freeSet_zone]

@[simp] theorem groupsFor_zone (i : SlotId) (st : SlotState) (z : ZoneId) : (s.groupsFor i st).zone z = s.zone z := by
  unfold State.groupsFor; split
  · exact freeGroups_zone ..
  · rfl

@[simp] theorem countMove_zone (a b : SlotState) (z : ZoneId) : (s.countMove a b).zone z = s.zone z := by
  unfold State.countMove; split
  · exact count_zone ..
  · split
    · exact count_zone ..
    · rfl

@[simp] theorem addChange_zone (i : SlotId) (k : ChangeKind) (z : ZoneId) : (s.addChange i k).zone z = s.zone z :=
  modBlock_zone ..

/-- A slot that goes to a state other than QUEUED leaves its zone's queue, and the rest close up (R84). -/
theorem moveTo_queue (i : SlotId) (st : SlotState) (h : st ≠ .queued) (z : ZoneId) :
    ((s.moveTo i st).zone z).queue =
      if z = zoneOf i then (s.zone z).queue.filter (fun e => e.slot ≠ i) else (s.zone z).queue := by
  have hp : ∀ u : State, ((u.takePlace i st).zone z) = u.zone z := fun u => by
    unfold State.takePlace; split
    · exact absurd rfl h
    · exact addChange_zone ..
    · exact addChange_zone ..
    · rfl
  unfold State.moveTo; extract_lets u
  rw [hp, countMove_zone, postSlot_zone, modSlot_zone]
  unfold u
  rw [groupsFor_zone, powerFor_queue, lanesFor_zone, vacate_queue]

/-- A slot that goes to a state keeps its reservation in its zone's sum, or gives it back where the state has no power
(Table 4-3). -/
theorem moveTo_reserved (i : SlotId) (st : SlotState) (z : ZoneId) : ((s.moveTo i st).zone z).reserved =
    if z = zoneOf i ∧ st.isPowered = false then (s.zone z).reserved - (s.slot i).reservation
    else (s.zone z).reserved := by
  have hp : ∀ u : State, ((u.takePlace i st).zone z).reserved = (u.zone z).reserved := fun u => by
    unfold State.takePlace State.joinQueue; split
    · rw [modZone_zone]; split
      · next h => rw [h]
      · rfl
    · rw [addChange_zone]
    · rw [addChange_zone]
    · rfl
  have hv : ((s.vacate i st).zone z).reserved = (s.zone z).reserved := by
    have h : ∀ u : State, ((u.discardRegroup i).zone z) = u.zone z := fun u => by
      unfold State.discardRegroup; split
      · rw [modLane_zone, freeSet_zone]
      · rfl
    have hf : ∀ v : Zone, (v.freeFrom i).reserved = v.reserved := fun v => by
      unfold Zone.freeFrom; split
      · split <;> rfl
      · rfl
    unfold State.vacate; extract_lets u
    have hu : (u.zone z).reserved = (s.zone z).reserved := by
      unfold u State.dropChange State.freeChannel State.leaveQueue
      rw [modBlock_zone, modZone_zone]
      split
      · next e => rw [hf, modZone_zone_self, ← e]
      · next e => rw [modZone_zone_ne _ _ _ e]
    split
    · rw [h, hu]
    · exact hu
  unfold State.moveTo; extract_lets u
  rw [hp, countMove_zone, postSlot_zone, modSlot_zone]
  unfold u
  rw [groupsFor_zone]
  unfold State.powerFor
  cases hst : st.isPowered
  · have hr : (((s.vacate i st).lanesFor i st).slot i).reservation = (s.slot i).reservation := by
      rw [lanesFor_slot_self, vacate_slot_self]
      unfold Slot.lanesFor Slot.vacated Slot.plain
      cases st.laneMode <;> dsimp only <;> split <;> first | rfl | (split <;> rfl)
    rw [if_neg (by simp), setReservation_zone, hr, lanesFor_zone]
    split
    · next e => rw [if_pos ⟨e, rfl⟩]; show _ + 0 - _ = _; rw [hv]; rfl
    · next e => rw [if_neg fun h => e h.1, hv]
  · rw [if_pos rfl, if_neg (by simp), lanesFor_zone, hv]

/-- A slot that goes to a state that neither frees groups nor drains leaves the map as it is. -/
theorem moveTo_map (i : SlotId) (st : SlotState) (h : st.groupless = false) (hd : st ≠ .draining) :
    (s.moveTo i st).map = s.map := by
  have hp : ∀ u : State, (u.takePlace i st).map = u.map := fun u => by
    unfold State.takePlace; split <;> first | exact modZone_map .. | exact modBlock_map .. | rfl
  have hc : ∀ (u : State) (a b : SlotState), (u.countMove a b).map = u.map := fun u a b => by
    unfold State.countMove; split
    · exact count_map ..
    · split
      · exact count_map ..
      · rfl
  unfold State.moveTo; extract_lets u
  rw [hp, hc, postSlot_map, modSlot_map]
  unfold u State.groupsFor
  rw [if_neg (by simp [h])]
  have hw : ∀ u : State, (u.powerFor i st).map = u.map := fun u => by
    unfold State.powerFor; split
    · rfl
    · unfold State.setReservation; rw [modSlot_map, modZone_map]
  have hl : ∀ u : State, (u.lanesFor i st).map = u.map := fun u => by
    unfold State.lanesFor; split
    · unfold State.plainLanes; split
      · rfl
      · exact modSlot_map ..
    · rfl
  rw [hw, hl]
  unfold State.vacate; extract_lets v
  rw [if_neg hd]
  unfold v State.dropChange State.freeChannel State.leaveQueue
  rw [modBlock_map, modZone_map, modZone_map]

/-- A transition to neither LIVE nor POWERING_DOWN reports nothing to the counter bank. -/
theorem moveTo_bank (i : SlotId) (st : SlotState) (h : st ≠ .live) (k : st ≠ .poweringDown) :
    (s.moveTo i st).bank = s.bank := by
  have hp : ∀ u : State, (u.takePlace i st).bank = u.bank := fun u => by
    unfold State.takePlace; split <;> first | exact modZone_bank .. | exact modBlock_bank .. | rfl
  have hc : ∀ (u : State) (a : SlotState), (u.countMove a st).bank = u.bank := fun u a => by
    unfold State.countMove; rw [if_neg fun e => h e.1, if_neg fun e => k e.1]
  unfold State.moveTo; extract_lets u
  rw [hp, hc, postSlot_bank, modSlot_bank]
  unfold u
  have hg : ∀ u : State, (u.groupsFor i st).bank = u.bank := fun u => by
    unfold State.groupsFor; split
    · unfold State.freeGroups; rw [modLane_bank, freeSet_bank]
    · rfl
  have hw : ∀ u : State, (u.powerFor i st).bank = u.bank := fun u => by
    unfold State.powerFor; split
    · rfl
    · unfold State.setReservation; rw [modSlot_bank, modZone_bank]
  have hl : ∀ u : State, (u.lanesFor i st).bank = u.bank := fun u => by
    unfold State.lanesFor; split
    · unfold State.plainLanes; split
      · rfl
      · exact modSlot_bank ..
    · rfl
  have hd : ∀ u : State, (u.discardRegroup i).bank = u.bank := fun u => by
    unfold State.discardRegroup; split
    · rw [modLane_bank, freeSet_bank]
    · rfl
  have hv : ∀ u : State, (((u.leaveQueue i).freeChannel i).dropChange i).bank = u.bank := fun u => by
    unfold State.dropChange State.freeChannel State.leaveQueue
    rw [modBlock_bank, modZone_bank, modZone_bank]
  rw [hg, hw, hl]
  unfold State.vacate; extract_lets v
  split
  · rw [hd]; exact hv s
  · exact hv s

/-- No transition touches the open window. -/
theorem moveTo_opened (i : SlotId) (st : SlotState) : (s.moveTo i st).block.opened = s.block.opened := by
  have hp : ∀ u : State, (u.takePlace i st).block.opened = u.block.opened := fun u => by
    unfold State.takePlace; split
    · unfold State.joinQueue; rw [modZone_block]
    · rfl
    · rfl
    · rfl
  have hc : ∀ (u : State) (a b : SlotState), (u.countMove a b).block = u.block := fun u a b => by
    unfold State.countMove; split
    · exact count_block ..
    · split
      · exact count_block ..
      · rfl
  unfold State.moveTo; extract_lets u
  rw [hp, hc, postSlot_block, modSlot_block]
  unfold u
  have hg : ∀ u : State, (u.groupsFor i st).block = u.block := fun u => by
    unfold State.groupsFor; split
    · unfold State.freeGroups; rw [modLane_block, freeSet_block]
    · rfl
  have hw : ∀ u : State, (u.powerFor i st).block = u.block := fun u => by
    unfold State.powerFor; split
    · rfl
    · unfold State.setReservation; rw [modSlot_block, modZone_block]
  have hl : ∀ u : State, (u.lanesFor i st).block = u.block := fun u => by
    unfold State.lanesFor; split
    · unfold State.plainLanes; split
      · rfl
      · exact modSlot_block ..
    · rfl
  have hd : ∀ u : State, (u.discardRegroup i).block = u.block := fun u => by
    unfold State.discardRegroup; split
    · rw [modLane_block, freeSet_block]
    · rfl
  rw [hg, hw, hl]
  unfold State.vacate; extract_lets v
  have hv : v.block.opened = s.block.opened := by
    unfold v State.dropChange State.freeChannel State.leaveQueue
    rw [modBlock_block, modZone_block, modZone_block]
  split
  · rw [hd, hv]
  · exact hv

/-- A slot that stood in a queue and goes back to DECLARED or on to PRECHARGE is within the end of an event; to DECLARED
only when it is OVERSIZE. -/
theorem EndOfEvent.moveTo {s u : State} (k : EndOfEvent s u) (i : SlotId) (st : SlotState) (hi : s.inQueue i = true)
    (h : st = .precharge ∨ (st = .declared ∧ (s.slot i).oversize = true)) : EndOfEvent s (u.moveTo i st) := by
  have hne : ∀ j, s.inQueue j = false → j ≠ i := fun j hj e => by rw [e, hi] at hj; exact absurd hj (by decide)
  have hst : st = .precharge ∨ st = .declared := h.imp id And.left
  have hl := local_moveTo u i st
  have hs := moveTo_slot_self u i st
  refine ⟨fun j hj => (hl.slots j (hne j hj)).trans (k.slots j hj), fun j hj => ?_, fun j => ?_, fun j => ?_, ?_,
    (moveTo_opened ..).trans k.opened, fun z e he => k.queue z e ?_,
    fun x hx => (hl.listed x (hne _ hx)).trans (k.listed x hx), ?_,
    fun m l j hj x => k.notices m l j hj (hl.notices m l j (hne j hj) x), fun m l h x => k.shelf m l h (hl.shelf m l x)⟩
  · by_cases e : j = i
    · subst e
      rcases h with h | h
      · right; rw [hs, moved_state, h]
      · rw [h.2] at hj; exact absurd hj (by decide)
    · rw [hl.slots j e]; exact k.granted j hj
  · by_cases e : j = i
    · subst e; right; rw [hs, moved_state]; exact hst
    · rw [hl.slots j e]; exact k.swept j
  · by_cases e : j = i
    · subst e; rw [hs, moved_oversize]
      rcases hst with h | h <;> simp [h, k.oversize]
    · rw [hl.slots j e]; exact k.oversize j
  · rw [← k.map]
    rcases hst with h | h <;> subst h <;> exact moveTo_map u i _ rfl (by decide)
  · rw [moveTo_queue u i st (by rcases hst with h | h <;> simp [h]) z] at he
    split at he
    · exact (List.mem_filter.1 he).1
    · exact he
  · rw [← k.bank]
    rcases hst with h | h <;> subst h <;> exact moveTo_bank u i _ (by decide) (by decide)

/-- A reservation given to a slot that has just been granted is within the end of an event. -/
theorem EndOfEvent.setReservation {s u : State} (k : EndOfEvent s u) (i : SlotId) (r : Nat) (hi : s.inQueue i = true)
    (hp : (u.slot i).state = .precharge) : EndOfEvent s (u.setReservation i r) := by
  have hne : ∀ j, s.inQueue j = false → j ≠ i := fun j hj e => by rw [e, hi] at hj; exact absurd hj (by decide)
  have hl := local_setReservation u i r
  have hs := setReservation_slot_self u i r
  refine ⟨fun j hj => (hl.slots j (hne j hj)).trans (k.slots j hj), fun j hj => ?_, fun j => ?_, fun j => ?_, ?_, ?_,
    fun z e he => k.queue z e ?_, fun x hx => (hl.listed x (hne _ hx)).trans (k.listed x hx), ?_,
    fun m l j hj x => k.notices m l j hj (hl.notices m l j (hne j hj) x), fun m l h x => k.shelf m l h (hl.shelf m l x)⟩
  · by_cases e : j = i
    · subst e; right; rw [hs]; exact hp
    · rw [hl.slots j e]; exact k.granted j hj
  · by_cases e : j = i
    · subst e; right; left; rw [hs]; exact hp
    · rw [hl.slots j e]; exact k.swept j
  · by_cases e : j = i
    · subst e; rw [hs]; exact k.oversize j
    · rw [hl.slots j e]; exact k.oversize j
  · rw [← k.map]; unfold State.setReservation; rw [modSlot_map, modZone_map]
  · rw [← k.opened]; unfold State.setReservation; rw [modSlot_block, modZone_block]
  · rwa [setReservation_queue] at he
  · rw [← k.bank]; unfold State.setReservation; rw [modSlot_bank, modZone_bank]

theorem EndOfEvent.grantTo {s u : State} (k : EndOfEvent s u) (z : ZoneId) (i : SlotId) (hi : s.inQueue i = true) :
    EndOfEvent s (u.grantTo z i) := by
  unfold State.grantTo; split
  · exact k
  · refine EndOfEvent.trans ((k.moveTo i .precharge hi (Or.inl rfl)).setReservation i _ hi ?_)
      (endOfEvent_modZone _ _ _ fun _ => rfl)
    rw [moveTo_slot_self]; rfl

theorem endOfEvent_sweepQueue (z : ZoneId) : EndOfEvent s (s.sweepQueue z) := by
  have key : ∀ (l : List QueueEntry) (u : State), EndOfEvent s u →
      (∀ e ∈ l, s.inQueue e.slot = true ∧ (s.slot e.slot).oversize = true) →
      EndOfEvent s (l.foldl (fun s e => (s.moveTo e.slot .declared).noteCheckpoint e.slot) u) := by
    intro l
    induction l with
    | nil => exact fun u k _ => k
    | cons e l ih =>
      intro u k h
      have he := h e (List.mem_cons_self ..)
      exact ih _ ((k.moveTo e.slot .declared he.1 (Or.inr ⟨rfl, he.2⟩)).noteCheckpoint e.slot he.1)
        fun x hx => h x (List.mem_cons_of_mem _ hx)
  unfold State.sweepQueue
  refine key _ s (.refl s) fun e he => ?_
  have := List.mem_filter.1 he
  exact ⟨inQueue_iff.2 ⟨z, e, this.1, rfl⟩, this.2⟩

theorem endOfEvent_testHead (z : ZoneId) : EndOfEvent s (s.testHead z) := by
  unfold State.testHead; split
  · next e l h _ =>
    exact (EndOfEvent.refl s).grantTo z e.slot (inQueue_iff.2 ⟨z, e, by rw [h]; exact List.mem_cons_self .., rfl⟩)
  · exact endOfEvent_modZone _ _ _ fun _ => rfl

theorem endOfEvent_examine (z : ZoneId) : EndOfEvent s (s.examine z) :=
  (endOfEvent_sweepQueue ..).trans (endOfEvent_testHead ..)

/-- Everything that the end of an event can do. -/
theorem endOfEvent_settle (before : State) : EndOfEvent s (before.settle s) := by
  have h : ∀ z (u : State), EndOfEvent u (u.examineAfter z before) := fun z u => by
    unfold State.examineAfter; split
    · exact endOfEvent_examine ..
    · exact .refl u
  unfold State.settle; extract_lets u
  have hu : EndOfEvent s u := (h .one s).trans (h .two _)
  split
  · exact hu.trans (endOfEvent_postFeed ..)
  · exact hu

/-! ## No examination -/

theorem needsExamination_self (v : Zone) : needsExamination v v = false := by
  unfold needsExamination
  cases v.precharge <;> simp

/-- An event that leaves both zones as they are calls for no examination, and posts no FEED notice. -/
theorem settle_of_zones {before s : State} (h1 : s.zone1 = before.zone1) (h2 : s.zone2 = before.zone2) :
    before.settle s = s := by
  have hz : ∀ z, s.zone z = before.zone z := fun z => by cases z <;> assumption
  have e : ∀ z, s.examineAfter z before = s := fun z => by
    unfold State.examineAfter; rw [hz, needsExamination_self]; rfl
  have o : ∀ z, overcommitFlips z before s = false := fun z => by unfold overcommitFlips; rw [hz]; simp
  unfold State.settle; extract_lets u
  have hu : u = s := by unfold u; rw [e, e]
  rw [hu, o, o, if_neg (by simp)]

end Sys2Proof.Machine
end

