-- ==== Sys2Proof/Laws/Effect.lean ====
section
/-! SUPPORT. What the events of the part can do, said once: every command but the resets, the survey's two events and the
tick's own sampling is a chain of the effects listed here (`Effect`). -/

namespace Sys2Proof.Machine

/-- A change of a slot's record that is no transition. -/
structure Change (r v : Slot) : Prop where
  state       : v.state = r.state
  mgmtPower   : v.mgmtPower = r.mgmtPower
  powerPath   : v.powerPath = r.powerPath
  reservation : v.reservation = r.reservation
  steering    : v.steering = r.steering
  latchPower  : v.latch.power = r.latch.power
  latchMgmt   : v.latch.mgmt = r.latch.mgmt
  decl        : v.decl = r.decl ∨ v.decl = none ∨ ∃ d, v.decl = some d ∧ d.Ranged
  phase       : v.phase = r.phase ∨
    (r.state = .joinObserve ∧ ∃ p, v.phase = some p ∧ p ≠ .observeLeave)
  declare     : v.declareTimer = r.declareTimer ∨ v.declareTimer = .stopped ∨ r.declareTimer ≠ .stopped
  drain       : v.drainTimer = r.drainTimer ∨ v.drainTimer = .stopped ∨ r.drainTimer ≠ .stopped
  discharge   : v.dischargeTimer = r.dischargeTimer ∨ v.dischargeTimer = .stopped ∨ r.dischargeTimer ≠ .stopped
  backoff     : v.backoffTimer = r.backoffTimer ∨ v.backoffTimer = .stopped ∨ r.state = .reverted

/-- What may have been done to slot `i` before a transition of it within the same event: its lanes switched, groups of
its own freed, the window changed, its own entry taken from the change list. -/
structure Before (i : SlotId) (s u : State) : Prop where
  slots   : ∀ j, j ≠ i → u.slot j = s.slot j
  decl    : (u.slot i).decl = (s.slot i).decl
  reserve : (u.slot i).reservation = (s.slot i).reservation
  steer   : (u.slot i).steering = (s.slot i).steering
  zones   : ∀ z, u.zone z = s.zone z
  map     : ∀ g : GroupId, u.map[g.val] = s.map[g.val] ∨ (s.map[g.val] = some i ∧ u.map[g.val] = none)
  list    : u.block.list.filter (fun e => e.slot ≠ i) = s.block.list.filter (fun e => e.slot ≠ i)
  manager : ∀ m, (u.manager m).state = (s.manager m).state
  running : u.survey.running = s.survey.running
  ended   : u.survey.classified = s.survey.classified

theorem Before.refl (i : SlotId) (s : State) : Before i s s :=
  ⟨fun _ _ => rfl, rfl, rfl, rfl, fun _ => rfl, fun _ => Or.inl rfl, rfl, fun _ => rfl, rfl, rfl⟩

theorem Before.trans {i : SlotId} {s t u : State} (h : Before i s t) (k : Before i t u) : Before i s u where
  slots j hj := (k.slots j hj).trans (h.slots j hj)
  decl := k.decl.trans h.decl
  reserve := k.reserve.trans h.reserve
  steer := k.steer.trans h.steer
  zones z := (k.zones z).trans (h.zones z)
  map g := by
    rcases k.map g with e | e
    · rw [e]; exact h.map g
    · rcases h.map g with f | f
      · rw [← f]; exact Or.inr e
      · rw [f.2] at e; exact absurd e.1 (by simp)
  list := k.list.trans h.list
  manager m := (k.manager m).trans (h.manager m)
  running := k.running.trans h.running
  ended := k.ended.trans h.ended

/-- A change of the rest of the part: nothing of the slots, zones, map, change list, nor the managers' states. -/
structure Aside (s t : State) : Prop where
  slots   : t.slots = s.slots
  zones   : ∀ z, t.zone z = s.zone z
  map     : t.map = s.map
  list    : t.block.list = s.block.list
  manager : ∀ m, (t.manager m).state = (s.manager m).state
  running : t.survey.running = s.survey.running
  ended   : t.survey.classified = s.survey.classified

/-- What the events of the part can do to its slots, zones, groups, change list and managers. -/
inductive Effect : State → State → Prop
  | refl (s) : Effect s s
  | trans {s t u} : Effect s t → Effect t u → Effect s u
  /-- A slot goes to a state. -/
  | move {s u} (i st) : Before i s u → Effect s (u.moveTo i st)
  /-- A slot's record changes; a regroup stays pending. -/
  | slot {s} (i) (f : Slot → Slot) : Change (s.slot i) (f (s.slot i)) →
      (f (s.slot i)).lane.pending.isSome = (s.slot i).lane.pending.isSome → Effect s (s.modSlot i f)
  /-- An ACTIVE manager is given the steering of a slot that has none. -/
  | steer {s} (i m) : (s.manager m).state = .active → Effect s (s.giveSteering i m)
  /-- A powered slot's reservation is worked out from a declaration. -/
  | reserve {s} (i) (z : ZoneId) (d : Declaration) : (s.slot i).state.isPowered = true →
      ((s.slot i).decl = some d ∨ d.Ranged) →
      Effect s (s.setReservation i (reservationFor d.power (s.zone z).margin))
  /-- A slot loses groups. -/
  | free {s} (i gs) : Effect s (s.freeSet i gs)
  /-- A slot that may hold groups gains groups that are free or its own. -/
  | claim {s} (i) (gs : GroupSet) : (s.slot i).state.groupless = false →
      (∀ g : GroupId, gs.mem g = true → s.map[g.val] = none ∨ s.map[g.val] = some i) → Effect s (s.claimSet i gs)
  /-- A zone's configuration or feeds change. -/
  | zone {s} (z) (f : Zone → Zone) : (f (s.zone z)).queue = (s.zone z).queue →
      (f (s.zone z)).reserved = (s.zone z).reserved → (f (s.zone z)).precharge = (s.zone z).precharge →
      ((s.zone z).Ranged → (f (s.zone z)).Ranged) → Effect s (s.modZone z f)
  /-- A zone's free channel is held for a slot in PRECHARGE. -/
  | hold {s} (i) (z : ZoneId) (d : Declaration) : (s.slot i).state = .precharge → (s.slot i).decl = some d →
      Effect s (s.modZone z (Zone.hold (prechargeFor i d.bulk (s.zone z).current)))
  /-- A queued slot is placed again. -/
  | replace {s} (i) : (s.slot i).state = .queued → Effect s (s.replace i)
  /-- A LIVE slot is given a pending regroup and listed. -/
  | regroup {s} (i) (f : Slot → Slot) : Change (s.slot i) (f (s.slot i)) → (s.slot i).state = .live →
      (f (s.slot i)).lane.pending.isSome → Effect s ((s.modSlot i f).addChange i .regroup)
  /-- A slot that is LIVE, or listed for a regroup alone, leaves the change list with no regroup pending. -/
  | unlist {s} (i) (f : Slot → Slot) : Change (s.slot i) (f (s.slot i)) → ((s.slot i).state = .live ∨
      ((s.block.list.map (·.slot)).Nodup → ∀ x ∈ s.block.list, x.slot = i → x.kind = .regroup)) →
      (f (s.slot i)).lane.pending = none → Effect s ((s.modSlot i f).dropChange i)
  /-- A manager's state changes, with its steerings dropped as it leaves ACTIVE. -/
  | lapse {s} (m st) : st ≠ .active → Effect s ((s.dropSteerings m).setManagerState m st)
  | activate {s} (m st) : (s.manager m).state ≠ .active ∨ st = .active → s.survey.running = false →
      Effect s (s.setManagerState m st)
  /-- Anything else. -/
  | aside {s t} : Aside s t → Effect s t

/-! ## The small updates -/

theorem Aside.refl (s : State) : Aside s s := ⟨rfl, fun _ => rfl, rfl, rfl, fun _ => rfl, rfl, rfl⟩

variable (s : State) (i : SlotId)

theorem aside_postSlot (k : SlotNotice) : Aside s (s.postSlot k i) :=
  ⟨rfl, fun _ => postSlot_zone .., rfl, rfl, fun _ => by rw [postSlot_manager], rfl, rfl⟩

theorem aside_postShelf (k : ShelfNotice) : Aside s (s.postShelf k) :=
  ⟨rfl, fun _ => postShelf_zone .., rfl, rfl, fun _ => by rw [postShelf_manager], rfl, rfl⟩

theorem aside_count (k : EventKind) (n : Nat) : Aside s (s.count k n) :=
  ⟨rfl, fun _ => count_zone .., rfl, rfl, fun _ => by rw [count_manager], rfl, rfl⟩

theorem aside_modBlock (f : WindowBlock → WindowBlock) (h : (f s.block).list = s.block.list) : Aside s (s.modBlock f) :=
  ⟨rfl, fun _ => modBlock_zone .., rfl, h, fun _ => by rw [modBlock_manager], rfl, rfl⟩

theorem aside_modRef (f : Reference → Reference) : Aside s (s.modRef f) :=
  ⟨rfl, fun _ => modRef_zone .., rfl, rfl, fun _ => by rw [modRef_manager], rfl, rfl⟩

theorem aside_modPort (p : Port) (f : BusPort → BusPort) : Aside s (s.modPort p f) :=
  ⟨modPort_slots .., fun _ => modPort_zone .., modPort_map .., by rw [modPort_block], fun _ => by rw [modPort_manager],
    by rw [modPort_survey], by rw [modPort_survey]⟩

theorem aside_modManager (m : ManagerId) (f : Manager → Manager) (h : (f (s.manager m)).state = (s.manager m).state) :
    Aside s (s.modManager m f) :=
  ⟨modManager_slots .., fun _ => modManager_zone .., modManager_map .., by rw [modManager_block],
    fun n => by rw [modManager_manager]; split
                · next e => rw [h, e]
                · rfl,
    by rw [modManager_survey], by rw [modManager_survey]⟩

theorem aside_modBank (f : Bank → Bank) : Aside s (s.modBank f) :=
  ⟨rfl, fun _ => modBank_zone .., rfl, rfl, fun _ => by rw [modBank_manager], rfl, rfl⟩

theorem effect_postSlot (k : SlotNotice) : Effect s (s.postSlot k i) := .aside (aside_postSlot ..)
theorem effect_postShelf (k : ShelfNotice) : Effect s (s.postShelf k) := .aside (aside_postShelf ..)
theorem effect_count (k : EventKind) (n : Nat) : Effect s (s.count k n) := .aside (aside_count ..)

theorem effect_moveTo (st : SlotState) : Effect s (s.moveTo i st) := .move i st (.refl i s)

theorem Change.refl (r : Slot) : Change r r := by
  constructor <;> first | rfl | exact Or.inl rfl

/-- A change of a slot that keeps its pending regroup. -/
theorem effect_modSlot (f : Slot → Slot) (h : Change (s.slot i) (f (s.slot i)))
    (k : (f (s.slot i)).lane.pending.isSome = (s.slot i).lane.pending.isSome) : Effect s (s.modSlot i f) :=
  .slot i f h k

/-- A change of the fields of a slot that no rule on the whole part speaks of. -/
structure Minor (r v : Slot) : Prop where
  state          : v.state = r.state
  mgmtPower      : v.mgmtPower = r.mgmtPower
  powerPath      : v.powerPath = r.powerPath
  reservation    : v.reservation = r.reservation
  steering       : v.steering = r.steering
  latchPower     : v.latch.power = r.latch.power
  latchMgmt      : v.latch.mgmt = r.latch.mgmt
  decl           : v.decl = r.decl
  phase          : v.phase = r.phase
  declareTimer   : v.declareTimer = r.declareTimer
  drainTimer     : v.drainTimer = r.drainTimer
  dischargeTimer : v.dischargeTimer = r.dischargeTimer
  backoffTimer   : v.backoffTimer = r.backoffTimer
  pending        : v.lane.pending = r.lane.pending

theorem Minor.change {r v : Slot} (h : Minor r v) : Change r v :=
  ⟨h.state, h.mgmtPower, h.powerPath, h.reservation, h.steering, h.latchPower, h.latchMgmt, Or.inl h.decl, Or.inl h.phase, Or.inl h.declareTimer,
    Or.inl h.drainTimer, Or.inl h.dischargeTimer, Or.inl h.backoffTimer⟩

theorem effect_minor (f : Slot → Slot) (h : ∀ r, Minor r (f r)) : Effect s (s.modSlot i f) :=
  effect_modSlot s i f (h _).change (by rw [(h _).pending])

/-! ## The operations -/

theorem effect_noteCheckpoint : Effect s (s.noteCheckpoint i) := by
  unfold State.noteCheckpoint; split
  · exact effect_postSlot ..
  · exact .refl s

theorem effect_oversizeTest : Effect s (s.oversizeTest i) := by
  unfold State.oversizeTest; extract_lets z; split
  · exact effect_minor _ _ _ fun r => by constructor <;> rfl
  · exact .refl s

theorem effect_autoAssign (h : (s.slot i).state.groupless = false) : Effect s (s.autoAssign i) := by
  unfold State.autoAssign
  extract_lets preferred gain
  split
  · exact .refl s
  · refine .trans (.claim i gain h fun g hg => Or.inl ?_) (effect_postSlot ..)
    have : decide (g ∈ preferred ∧ s.map[g.val] = none) = true := by
      have h := hg
      unfold gain GroupSet.mem at h
      simpa using h
    exact (of_decide_eq_true this).2

theorem effect_autoAdvance : Effect s (s.autoAdvance i) := by
  unfold State.autoAdvance; extract_lets r; split
  · exact effect_moveTo ..
  · exact .refl s

theorem effect_atDeclared : Effect s (s.atDeclared i) := by
  unfold State.atDeclared; extract_lets u; split
  · exact (effect_autoAdvance ..).trans (effect_noteCheckpoint ..)
  · exact effect_autoAdvance ..

theorem effect_advanceListen (h : (s.slot i).state.groupless = false) : Effect s (s.advanceListen i) := by
  unfold State.advanceListen; split
  · extract_lets u
    have hu : Effect s u := by
      unfold u; split
      · exact effect_autoAssign s i h
      · exact .refl s
    split
    · exact hu
    · exact hu.trans (effect_moveTo ..)
  · exact .refl s

theorem effect_onListen : Effect s ((s.moveTo i .listen).advanceListen i) :=
  (effect_moveTo ..).trans (effect_advanceListen _ _ (by rw [moveTo_slot_self]; rfl))

theorem effect_advancePowered : Effect s (s.advancePowered i) := by
  unfold State.advancePowered; split
  · exact effect_onListen ..
  · exact .refl s

theorem effect_atListen (h : (s.slot i).state.groupless = false) : Effect s (s.atListen i) :=
  (effect_advanceListen s i h).trans (effect_noteCheckpoint ..)

theorem effect_toListen : Effect s ((s.moveTo i .listen).atListen i) := (effect_onListen s i).trans (effect_noteCheckpoint ..)

theorem effect_atPowered : Effect s (s.atPowered i) := (effect_advancePowered s i).trans (effect_noteCheckpoint ..)

theorem effect_toDeclared (h : Bool) (c : Option FaultCause) : Effect s (s.toDeclared i h c) := by
  unfold State.toDeclared; split
  · exact (((effect_moveTo ..).trans (effect_minor _ _ _ fun r => by constructor <;> rfl)).trans
      (effect_oversizeTest ..)).trans (effect_atDeclared ..)
  · exact effect_moveTo ..

theorem effect_bar (c : FaultCause) : Effect s (s.bar i c) :=
  ((effect_moveTo ..).trans (effect_minor _ _ _ fun r => by constructor <;> rfl)).trans (effect_postSlot ..)

theorem effect_startDrain (o : Option DrainOrigin) : Effect s (s.startDrain i o) :=
  ((effect_minor _ _ _ fun r => by constructor <;> rfl).trans (effect_moveTo ..)).trans (effect_noteCheckpoint ..)

theorem effect_setRetirePending (o : DrainOrigin) : Effect s (s.setRetirePending i o) := by
  unfold State.setRetirePending; split
  · exact .refl s
  · exact effect_minor _ _ _ fun r => by constructor <;> rfl

theorem effect_handleOpened : Effect s (s.handleOpened i) := by
  unfold State.handleOpened
  repeat' split
  all_goals first
    | exact .refl .. | exact effect_moveTo .. | exact effect_setRetirePending .. | exact effect_startDrain ..
    | exact effect_minor _ _ _ fun r => by constructor <;> rfl

theorem effect_handleClosed : Effect s (s.handleClosed i) := by
  unfold State.handleClosed; extract_lets r
  repeat' split
  all_goals first
    | exact .refl .. | exact effect_moveTo .. | exact effect_toDeclared ..
    | exact effect_minor _ _ _ fun r => by constructor <;> rfl

/-! ## Before a transition -/

theorem before_modSlot (f : Slot → Slot) (hd : (f (s.slot i)).decl = (s.slot i).decl)
    (hr : (f (s.slot i)).reservation = (s.slot i).reservation) (hs : (f (s.slot i)).steering = (s.slot i).steering) :
    Before i s (s.modSlot i f) :=
  ⟨fun j hj => modSlot_slot_ne s i f hj, by rw [modSlot_slot_self, hd], by rw [modSlot_slot_self, hr],
    by rw [modSlot_slot_self, hs], fun _ => modSlot_zone .., fun _ => Or.inl rfl, rfl, fun _ => by rw [modSlot_manager],
    rfl, rfl⟩

theorem before_switchLanes (m : LaneMode) (t : GroupSet) (k : SwitchKind) (b : Bool) :
    Before i s (s.switchLanes i m t k b) := before_modSlot s i _ rfl rfl rfl

theorem before_freeSet (gs : GroupSet) : Before i s (s.freeSet i gs) where
  slots _ _ := freeSet_slot ..
  decl := by rw [freeSet_slot]
  reserve := by rw [freeSet_slot]
  steer := by rw [freeSet_slot]
  zones _ := freeSet_zone ..
  map g := by
    rw [freeSet_map]; split
    · next h => exact Or.inr ⟨h.1, rfl⟩
    · exact Or.inl rfl
  list := by rw [freeSet_block]
  manager _ := by rw [freeSet_manager]
  running := by rw [freeSet_survey]
  ended := by rw [freeSet_survey]

theorem before_modLane (f : LaneRecord → LaneRecord) : Before i s (s.modLane i f) := before_modSlot s i _ rfl rfl rfl

theorem before_freeGroups : Before i s (s.freeGroups i) := (before_freeSet ..).trans (before_modLane ..)

theorem before_modBlock (f : WindowBlock → WindowBlock) (h : (f s.block).list = s.block.list) :
    Before i s (s.modBlock f) :=
  ⟨fun _ _ => rfl, rfl, rfl, rfl, fun _ => modBlock_zone .., fun _ => Or.inl rfl, congrArg _ h,
    fun _ => by rw [modBlock_manager], rfl, rfl⟩

theorem before_isolateWindow : Before i s (s.isolateWindow i) :=
  before_modBlock s i _ (isolateWindow_list s i)

theorem effect_isolate (c : IsolationCause) : Effect s (s.isolate i c) := by
  unfold State.isolate State.isolateLanes; extract_lets u
  have hb : Before i s u :=
    (((before_switchLanes ..).trans (before_freeGroups ..)).trans (before_isolateWindow ..)).trans
      (before_modSlot _ _ _ rfl rfl rfl)
  have hs : Effect s (u.sendIsolated i (c.destination (s.slot i)) c) := by
    unfold State.sendIsolated; split
    · unfold State.toDeclared; split
      · exact (((Effect.move i .declared hb).trans (effect_minor _ _ _ fun r => by constructor <;> rfl)).trans
          (effect_oversizeTest ..)).trans (effect_atDeclared ..)
      · exact .move i .present hb
    · exact (Effect.move i _ hb).trans (effect_minor _ _ _ fun r => by constructor <;> rfl)
  have hc : ∀ u : State, Effect u (u.countIsolation c) := fun u => by
    unfold State.countIsolation; split <;> first | exact effect_count .. | exact .refl u
  exact (hs.trans (effect_postSlot ..)).trans (hc _)

/-! ## The end of an event -/

theorem effect_setWait (z : ZoneId) (w : WaitReason) : Effect s (s.setWait z w) :=
  .zone z _ rfl rfl rfl fun h => ⟨h.capA, h.capB, h.margin, h.current⟩

theorem effect_grantTo (z : ZoneId) : Effect s (s.grantTo z i) := by
  unfold State.grantTo; split
  · exact .refl s
  · next d hd =>
    have hs : ((s.moveTo i .precharge).slot i).state = .precharge := by rw [moveTo_slot_self]; rfl
    have hdecl : ((s.moveTo i .precharge).slot i).decl = some d := by rw [moveTo_slot_self, moved_decl]; simpa using hd
    have hz : ((s.moveTo i .precharge).zone z).quiet = (s.zone z).quiet := by
      cases z
      · exact (calm_moveTo s i .precharge).zone1
      · exact (calm_moveTo s i .precharge).zone2
    have hm : ((s.moveTo i .precharge).zone z).margin = (s.zone z).margin := by
      have := congrArg Zone.margin hz; exact this
    have hq : ((s.moveTo i .precharge).zone z).current = (s.zone z).current := by
      have := congrArg Zone.current hz; exact this
    rw [← hm, ← hq]
    refine (effect_moveTo s i .precharge).trans ?_
    refine (Effect.reserve i z d (by rw [hs]; rfl) (Or.inl hdecl)).trans ?_
    have hq2 : (((s.moveTo i .precharge).setReservation i
        (reservationFor d.power ((s.moveTo i .precharge).zone z).margin)).zone z).current =
        ((s.moveTo i .precharge).zone z).current := by
      rw [setReservation_zone]; split <;> rfl
    rw [← hq2]
    refine Effect.hold i z d ?_ ?_
    · rw [setReservation_slot_self]; exact hs
    · rw [setReservation_slot_self]; exact hdecl

theorem effect_foldl {α : Type} (f : State → α → State) (hf : ∀ s a, Effect s (f s a)) (l : List α) (s : State) :
    Effect s (l.foldl f s) := by
  induction l generalizing s with
  | nil => exact .refl s
  | cons a l ih => exact (hf s a).trans (ih _)

theorem effect_examine (z : ZoneId) : Effect s (s.examine z) := by
  have hs : Effect s (s.sweepQueue z) := by
    unfold State.sweepQueue
    refine effect_foldl _ (fun u e => ?_) _ s
    exact (effect_moveTo u e.slot .declared).trans (effect_noteCheckpoint (u.moveTo e.slot .declared) e.slot)
  have ht : ∀ u : State, Effect u (u.testHead z) := fun u => by
    unfold State.testHead; split
    · exact effect_grantTo ..
    · exact effect_setWait ..
  exact hs.trans (ht _)

theorem effect_settle (before : State) : Effect s (before.settle s) := by
  have h : ∀ z (u : State), Effect u (u.examineAfter z before) := fun z u => by
    unfold State.examineAfter; split
    · exact effect_examine ..
    · exact .refl u
  unfold State.settle; extract_lets u
  have hu : Effect s u := (h .one s).trans (h .two _)
  split
  · exact hu.trans (effect_postShelf ..)
  · exact hu

end Sys2Proof.Machine
end

