-- ==== Sys2Proof/Laws/Requests.lean ====
section
/-! SUPPORT. What each request can do: every one of them is a chain of the effects of Laws/Effect.lean. -/

namespace Sys2Proof.Machine

/-- The state a request's body leads to is reached by effects. -/
def Effects (b : Body) (s : State) : Prop := Effect s (b s).1

theorem effects_refuse (c : Completion) (s : State) : Effects (refuse c) s := .refl s
theorem effects_answerWith (d : List Byte) (s : State) : Effects (answerWith d) s := .refl s

theorem effect_serve (r : Request) (b : Body) (s : State) (h : Effects b s) : Effect s (s.serve r b) := by
  unfold State.serve; split
  · extract_lets out s1
    exact ((h.trans (effect_settle ..)).trans (.aside (aside_modPort ..)))
  · exact .refl s

theorem effect_modPort (s : State) (p : Port) (f : BusPort → BusPort) : Effect s (s.modPort p f) := .aside (aside_modPort ..)

theorem effect_brokenOff (s : State) (p : Port) (n : Nat) (e : BusEvent) : Effect s (s.busError p n e) :=
  (effect_modPort ..).trans (effect_count ..)

theorem effect_busEvent (s : State) (p : Port) (e : BusEvent) : Effect s (s.busEvent p e) := by
  unfold State.busEvent; split
  · split
    · exact effect_modPort ..
    · exact effect_brokenOff ..
  · exact effect_modPort ..
  · exact effect_modPort ..
  · exact effect_modPort ..
  · exact .refl s

theorem effect_elsewhere (s : State) (p : Port) (e : BusEvent) : Effect s (s.elsewhere p e) :=
  (effect_busEvent s p _).trans (effect_busEvent ..)

theorem effect_atAddress (p : Port) (a : BitVec 7) (e : BusEvent) {f : State → State} {s : State} (h : Effect s (f s)) :
    Effect s (atAddress p a e f s) := by
  unfold atAddress; split
  · exact h
  · exact effect_elsewhere ..

theorem effect_request {r : Request} {b : Body} {s t : State} (h : Effects b s) (k : request r b s = .next t) :
    Effect s t := by
  cases k; exact effect_atAddress _ _ _ (effect_serve r b s h)

theorem effects_fromManager (read : Bool) (r : Request) (k : ManagerId → Body) (s : State)
    (h : ∀ m, (s.survey.refuses = true → read = true) → Effects (k m) s) : Effects (fromManager read r k) s := by
  unfold Effects fromManager; split
  · exact .refl s
  · next hs =>
    split
    · exact h _ fun hr => by
        by_contra hn
        exact hs ⟨hr, by simpa using hn⟩
    · exact .refl s
    · exact .refl s

theorem effects_fromBlade (r : Request) (k : SlotId → Body) (s : State) (h : ∀ i, Effects (k i) s) :
    Effects (fromBlade r k) s := by
  unfold Effects fromBlade; split
  · exact .refl s
  · split
    · split
      · exact h _
      · exact .refl s
    · exact .refl s
    · exact .refl s

theorem effects_fromActive (r : Request) (k : ManagerId → Body) (s : State)
    (h : ∀ m, (s.manager m).state = .active → Effects (k m) s) : Effects (fromActive r k) s := by
  refine effects_fromManager _ _ _ s fun m _ => ?_
  unfold Effects; beta_reduce; split
  · next hm => exact h m hm
  · exact .refl s

theorem effects_onSlot (r : Request) (k : ManagerId → SlotId → Body) (s : State)
    (h : ∀ m i, (s.manager m).state = .active → Effects (k m i) s) : Effects (onSlot r k) s := by
  refine effects_fromActive _ _ s fun m hm => ?_
  unfold Effects; beta_reduce; split
  · exact .refl s
  · split
    · exact h _ _ hm
    · exact .refl s

theorem effects_onShelf (r : Request) (k : Body) (s : State) (h : Effects k s) : Effects (onShelf r k) s := by
  refine effects_fromActive _ _ s fun m _ => ?_
  unfold Effects; beta_reduce; split
  · exact h
  · exact .refl s

theorem effects_readShelfOf (r : Request) (k : ManagerId → Body) (s : State) (h : ∀ m, Effects (k m) s) :
    Effects (readShelfOf r k) s := by
  refine effects_fromManager _ _ _ s fun m _ => ?_
  unfold Effects; beta_reduce; split
  · exact h m
  · exact .refl s

variable (r : Request) (s : State)

/-! ## Responses -/

theorem effects_respond (c : Byte) (permits : List SlotState) (k : ManagerId → SlotId → Body)
    (h : ∀ m i, (s.manager m).state = .active → (s.slot i).state ∈ permits → Effects (k m i) s) :
    Effects (respond c permits r k) s := by
  refine effects_onSlot _ _ s fun m i hm => ?_
  unfold Effects; beta_reduce; split
  · exact .refl s
  · split
    · exact .refl s
    · split
      · exact .refl s
      · next hp => exact h m i hm (by simpa using hp)

theorem effects_respondMove (c : Completion) (f : SlotId → State → State) (m : ManagerId) (i : SlotId)
    (hm : (s.manager m).state = .active) (h : ∀ u, Effect u (f i u)) : Effects (respondMove c f m i) s :=
  (Effect.steer i m hm).trans (h _)

theorem effect_goOn (i : SlotId) : Effect s (s.goOn i) := by
  unfold State.goOn; split
  · exact effect_moveTo ..
  · exact effect_toListen ..

theorem effects_continue : Effects (continueBody r) s := by
  refine effects_respond r s _ _ _ fun m i hm _ => ?_
  unfold Effects; beta_reduce; split
  · exact .refl s
  · exact effects_respondMove s _ _ m i hm fun u => effect_goOn u i

theorem effect_hold (i : SlotId) : Effect s (s.hold i) := by
  unfold State.hold; split
  · exact effect_minor _ _ _ fun r => by constructor <;> rfl
  · exact effect_toDeclared ..

theorem effects_hold : Effects (holdBody r) s :=
  effects_respond r s _ _ _ fun m i hm _ => effects_respondMove s _ _ m i hm fun u => effect_hold u i

theorem effects_reject : Effects (rejectBody r) s :=
  effects_respond r s _ _ _ fun m i hm _ => effects_respondMove s _ _ m i hm fun u => effect_bar u i _

theorem effects_rollback : Effects (rollbackBody r) s :=
  effects_respond r s _ _ _ fun m i hm _ => effects_respondMove s _ _ m i hm fun u =>
    (effect_moveTo u i _).trans (effect_minor _ _ _ fun r => by constructor <;> rfl)

theorem effects_joinOrRetry (m : ManagerId) (i : SlotId) (hm : (s.manager m).state = .active) :
    Effects (joinOrRetry m i) s := by
  unfold Effects joinOrRetry; split
  · exact .refl s
  · exact effects_respondMove s _ _ m i hm fun u => effect_moveTo u i _

theorem effects_join : Effects (joinBody r) s :=
  effects_respond r s _ _ _ fun m i hm _ => effects_joinOrRetry s m i hm

theorem effects_retry : Effects (retryBody r) s :=
  effects_respond r s _ _ _ fun m i hm _ => effects_joinOrRetry s m i hm

theorem effects_retireResponse : Effects (retireResponseBody r) s :=
  effects_respond r s _ _ _ fun m i hm _ => effects_respondMove s _ _ m i hm fun u => effect_moveTo u i _

theorem effects_quiesced : Effects (quiescedBody r) s :=
  effects_respond r s _ _ _ fun m i hm _ => effects_respondMove s _ _ m i hm fun u => effect_moveTo u i _

theorem effects_cancel : Effects (cancelBody r) s :=
  effects_respond r s _ _ _ fun m i hm _ => effects_respondMove s _ _ m i hm fun u => effect_moveTo u i _

theorem effect_responseCommand {c : Byte} {b : Body} {t : State} (h : Effects b s)
    (k : responseCommand c r b s = .next t) : Effect s t := by
  unfold responseCommand at k
  split at k
  · exact effect_request h k
  · cases k; exact .refl s

/-! ## Groups -/

theorem effects_changeGroups (k : SlotId → GroupSet → Body)
    (h : ∀ i gs, (s.slot i).state.takesGroups = true → Effects (k i gs) s) : Effects (changeGroups r k) s := by
  refine effects_onSlot _ _ s fun m i _ => ?_
  unfold Effects; beta_reduce; split
  · exact .refl s
  · next hg =>
    split
    · exact .refl s
    · split
      · exact .refl s
      · exact h _ _ (by
          by_contra hn
          exact hg (Or.inl (by simpa using hn)))

theorem takesGroups_groupless {st : SlotState} (h : st.takesGroups = true) : st.groupless = false := by
  cases st <;> first | rfl | exact absurd h (by decide)

theorem effect_setRegroup (i : SlotId) (new : GroupSet) (h : (s.slot i).state = .live) :
    Effect s (s.setRegroup i new) := by
  unfold State.setRegroup
  extract_lets l u v
  refine Effect.trans ?_ (effect_postSlot ..)
  unfold v
  split
  · split
    · next hp =>
      refine effect_modSlot s i _ ?_ (Eq.symm hp)
      constructor <;> first | rfl | exact Or.inl rfl
    · refine .regroup i _ ?_ h rfl
      constructor <;> first | rfl | exact Or.inl rfl
  · refine .unlist i _ ?_ (Or.inl h) rfl
    constructor <;> first | rfl | exact Or.inl rfl

theorem ownedByOther_false {i : SlotId} {gs : GroupSet} (h : s.ownedByOther i gs = false) (g : GroupId)
    (hg : gs.mem g = true) : s.map[g.val] = none ∨ s.map[g.val] = some i := by
  unfold State.ownedByOther at h
  rw [List.any_eq_false] at h
  have := h g (List.mem_finRange g)
  rw [hg] at this
  by_cases h1 : s.map[g.val] = none
  · exact Or.inl h1
  · by_cases h2 : s.map[g.val] = some i
    · exact Or.inr h2
    · exact absurd (by simp [h1, h2]) this

theorem effects_assign : Effects (assignBody r) s := by
  refine effects_changeGroups r s _ fun i gs hg => ?_
  unfold Effects; beta_reduce; split
  · exact .refl s
  · next ho =>
    split
    · exact .refl s
    · have hc : Effect s (s.claimSet i gs) :=
        .claim i gs (takesGroups_groupless hg) (ownedByOther_false s (by simpa using ho))
      change Effect s (s.assign i gs)
      unfold State.assign; split
      · next hl =>
        exact hc.trans (effect_setRegroup _ _ _ (by rw [claimSet_slot]; exact hl))
      · unfold State.assignNow; extract_lets had u
        have hu : Effect s u := hc.trans (effect_postSlot ..)
        split
        · exact hu.trans (effect_moveTo ..)
        · exact hu

theorem effects_release : Effects (releaseBody r) s := by
  refine effects_changeGroups r s _ fun i gs hg => ?_
  unfold Effects; beta_reduce; split
  · exact .refl s
  · split
    · exact .refl s
    · change Effect s (s.release i gs)
      unfold State.release; split
      · next hl =>
        exact (Effect.free i _).trans (effect_setRegroup _ _ _ (by rw [freeSet_slot]; exact hl))
      · unfold State.releaseNow; extract_lets u
        have hu : Effect s u := (Effect.free i gs).trans (effect_postSlot ..)
        split
        · exact hu.trans (effect_toListen ..)
        · exact hu

/-! ## Retirement and UNBAR -/

theorem effects_retireSlot (m : ManagerId) (i : SlotId) (hm : (s.manager m).state = .active) :
    Effects (retireSlot m i) s := by
  have hst : Effect s (s.giveSteering i m) := .steer i m hm
  have mv : ∀ st, Effect s ((s.giveSteering i m).moveTo i st) := fun st => hst.trans (effect_moveTo _ i st)
  have mn : Effect s ((s.giveSteering i m).modSlot i fun r => { r with target := .released }) :=
    hst.trans (effect_minor _ i _ fun r => by constructor <;> rfl)
  unfold Effects retireSlot
  split
  · exact mv .released
  · exact mv .released
  · exact mv .released
  · exact mv .poweringDown
  · exact mv .poweringDown
  · exact mv .poweringDown
  · exact mv .poweringDown
  · exact mv .poweringDown
  · unfold retireJoining; split
    · exact .refl s
    · exact hst.trans (effect_setRetirePending ..)
  · unfold retireLive; split
    · exact .refl s
    · split
      · exact effect_setRetirePending ..
      · exact hst.trans (effect_startDrain ..)
  · exact hst
  · exact hst
  · exact hst
  · exact mn
  · unfold retireOrphan; extract_lets t; split
    · exact hst.trans (effect_startDrain ..)
    · exact mv .poweringDown
  all_goals exact .refl s

theorem effects_retire : Effects (retireBody r) s :=
  effects_onSlot r _ s fun m i hm => effects_retireSlot s m i hm

theorem effects_forceRetire : Effects (forceRetireBody r) s := by
  refine effects_fromActive _ _ s fun m hm => ?_
  unfold Effects; beta_reduce; split
  · exact .refl s
  · split
    · next i _ _ =>
      have mv : Effect s ((s.giveSteering i m).moveTo i .leaveWait) := (Effect.steer i m hm).trans (effect_moveTo _ i _)
      exact mv
    · exact .refl s

theorem effects_retireSelf : Effects (retireSelfBody r) s := by
  refine effects_fromBlade _ _ s fun i => ?_
  have hl : Effect s (retireSelfLater i s).1 := by
    unfold retireSelfLater; split
    · exact .refl s
    · exact effect_setRetirePending ..
  unfold Effects retireSelfSlot
  split
  · split
    · exact hl
    · exact effect_startDrain ..
  · exact hl
  all_goals exact .refl s

theorem effects_unbar : Effects (unbarBody r) s := by
  refine effects_onSlot r _ s fun m i _ => ?_
  unfold Effects; beta_reduce; split
  · change Effect s (s.unbar i)
    unfold State.unbar; extract_lets u
    have hu : Effect s u := effect_modSlot _ _ _
      (by constructor <;> first | rfl | exact Or.inr (Or.inl rfl) | exact Or.inl rfl) rfl
    split
    · exact hu.trans (effect_moveTo ..)
    · exact hu.trans (effect_moveTo ..)
  · exact .refl s

/-! ## DECLARE -/

theorem keepFirst_nodup (l : List GroupId) : (keepFirst l).Nodup := by
  induction l with
  | nil => exact List.nodup_nil
  | cons g l ih =>
    unfold keepFirst
    refine List.nodup_cons.2 ⟨?_, ih.filter _⟩
    simp

theorem repairPreferred_nodup (raw : List Byte) (n : Nat) : (repairPreferred raw n).Nodup :=
  (keepFirst_nodup _).sublist (List.take_sublist ..)

theorem repairPreferred_length (raw : List Byte) (n : Nat) : (repairPreferred raw n).length ≤ n := by
  unfold repairPreferred; rw [List.length_take]; exact Nat.min_le_left ..

/-- A declaration that is taken is in its ranges (R48 to R50). -/
theorem declareContent_ranged {params : List Byte} {d : Declaration} {c : Bool}
    (h : declareContent params = .usable d c) : d.Ranged := by
  unfold declareContent at h
  split at h
  · split at h
    · exact absurd h (by simp)
    · split at h
      · exact absurd h (by simp)
      · simp only [] at h
        split at h
        · exact absurd h (by simp)
        · next hp =>
          rw [not_or, not_or] at hp
          cases h
          refine ⟨?_, ?_, ?_, repairPreferred_length .., repairPreferred_nodup ..⟩
          · dsimp only; omega
          · show 1 ≤ repairBulk _ ∧ repairBulk _ ≤ 400
            unfold repairBulk; split <;> omega
          · dsimp only; omega
  · exact absurd h (by simp)

theorem effect_record (i : SlotId) (d : Declaration) (f : Slot → Slot) (hd : d.Ranged)
    (hf : (f (s.slot i)) = { s.slot i with
      decl := some d, clamped := (f (s.slot i)).clamped, oversize := (f (s.slot i)).oversize,
      attempts := (f (s.slot i)).attempts }) :
    Effect s (s.modSlot i f) := by
  refine effect_modSlot s i f ?_ ?_
  · rw [hf]
    constructor <;> first | rfl | exact Or.inr (Or.inr ⟨d, rfl, hd⟩) | exact Or.inl rfl
  · rw [hf]

theorem effect_leaveOrphaned (i : SlotId) : Effect s (s.leaveOrphaned i) := by
  unfold State.leaveOrphaned
  split
  · exact (effect_moveTo ..).trans (effect_advancePowered ..)
  · exact (effect_moveTo ..).trans (effect_advancePowered ..)
  · exact effect_onListen ..
  · exact effect_moveTo ..

theorem effects_declare : Effects (declareBody r) s := by
  refine effects_fromBlade _ _ s fun i => ?_
  unfold Effects declareSlot; split
  · exact .refl s
  · next ht =>
    split
    · exact .refl s
    · exact .refl s
    · next d c hc =>
      have hd := declareContent_ranged hc
      unfold declareUsable
      extract_lets res
      split
      · exact (((effect_record s i d _ hd rfl).trans (effect_oversizeTest ..)).trans (effect_moveTo ..)).trans
          (effect_atDeclared ..)
      · exact (((effect_record s i d _ hd rfl).trans (effect_oversizeTest ..)).trans (effect_postSlot ..)).trans
          (effect_atDeclared ..)
      · next ho =>
        change Effect s (s.declareOrphaned i d c res)
        unfold State.declareOrphaned
        extract_lets u v
        have hu : Effect s u := effect_record s i d _ hd rfl
        have hv : Effect s v := by
          have hz : (u.zone (zoneOf i)).margin = (s.zone (zoneOf i)).margin := by unfold u; rw [modSlot_zone]
          have hr : Effect u (u.setReservation i res) := by
            unfold res; rw [← hz]
            refine .reserve i _ d ?_ (Or.inr hd)
            have : (u.slot i).state = .orphaned := by unfold u; rw [modSlot_slot_self]; exact ho
            rw [this]; rfl
          exact (hu.trans hr).trans (effect_leaveOrphaned ..)
        split
        · exact hv.trans (effect_noteCheckpoint ..)
        · exact hv.trans (effect_handleOpened ..)
      · next h1 h2 h3 =>
        split
        · change Effect s (s.declareLive i d c res)
          have hl : (s.slot i).state.isPowered = true := by
            unfold Slot.takesDeclare at ht
            cases hs : (s.slot i).state <;> simp_all [SlotState.isPowered]
          unfold State.declareLive
          exact ((Effect.reserve i _ d hl (Or.inr hd)).trans (effect_record _ i d _ hd rfl)).trans (effect_postSlot ..)
        · exact .refl s

/-! ## Managers, policy, settings, reads -/

theorem aside_of (t : State) (h1 : t.slots = s.slots) (h2 : t.zone1 = s.zone1) (h3 : t.zone2 = s.zone2)
    (h4 : t.map = s.map) (h5 : t.block.list = s.block.list) (h6 : t.managerA = s.managerA)
    (h7 : t.managerB = s.managerB) (h8 : t.survey.running = s.survey.running)
    (h9 : t.survey.classified = s.survey.classified) : Aside s t :=
  ⟨h1, fun z => by cases z <;> assumption, h4, h5,
    fun m => by
      cases m
      · exact congrArg Manager.state h6
      · exact congrArg Manager.state h7,
    h8, h9⟩

theorem effects_refresh : Effects (refreshBody r) s := by
  refine effects_fromManager _ _ _ s fun m hr => ?_
  unfold Effects; beta_reduce; split
  · exact .refl s
  · split
    · exact .refl s
    · split
      · exact .refl s
      · dsimp only; exact .aside (aside_modManager _ _ _ rfl)
      · split
        · exact .refl s
        · change Effect s (s.completePair m _)
          unfold State.completePair; extract_lets u
          have hu : Effect s u := .aside (aside_modManager _ _ _ rfl)
          split
          · exact hu
          · have hn : u.survey.running = false := by
              unfold u; rw [modManager_survey]
              cases h : s.survey.running with
              | false => rfl
              | true => exact absurd (hr (by simp [Survey.refuses, h])) (by decide)
            exact hu.trans (.activate m _ (Or.inr rfl) hn)

theorem effects_adopt : Effects (adoptBody r) s := by
  refine effects_onSlot _ _ s fun m i hm => ?_
  unfold Effects; beta_reduce; split
  · exact .refl s
  · split
    · exact .refl s
    · exact (Effect.steer i m hm).trans (effect_noteCheckpoint ..)

theorem effect_setPolicy (i : SlotId) (p : Policy) (o : Option (Fin 4)) : Effect s (s.setPolicy i p o) := by
  unfold State.setPolicy
  extract_lets was u v
  have hu : Effect s u := effect_minor _ _ _ fun r => by constructor <;> rfl
  have hus : ∀ st, was.state = st → (u.slot i).state = st := fun st h => by unfold u; rw [modSlot_slot_self]; exact h
  have hv : Effect s v := by
    unfold v; split
    · next h => exact hu.trans (.replace i (hus _ h.1))
    · exact hu
  split
  · exact hv
  · refine hv.trans ?_
    cases p
    · show Effect v (v.becomeAuto i)
      unfold State.becomeAuto
      split
      · exact effect_autoAdvance ..
      · exact effect_atPowered ..
      · next h => exact effect_atListen _ _ (by rw [h]; rfl)
      · next h =>
        refine effect_modSlot _ _ _ ?_ rfl
        constructor <;> first | rfl | exact Or.inl rfl | exact Or.inr (Or.inr h)
      · exact .refl v
    · show Effect v (v.becomeSupervised i)
      unfold State.becomeSupervised
      split
      · exact effect_postSlot ..
      · exact effect_postSlot ..
      · exact effect_postSlot ..
      · next h =>
        refine Effect.trans (effect_modSlot _ _ _ ?_ rfl) (effect_postSlot ..)
        constructor <;> first | rfl | exact Or.inl rfl | exact Or.inr (Or.inl rfl)
      · exact .refl v

theorem effects_setSlotPolicy : Effects (setSlotPolicyBody r) s := by
  refine effects_onSlot _ _ s fun m i _ => ?_
  unfold Effects; beta_reduce; split
  · exact .refl s
  · exact effect_setPolicy ..

theorem effects_readSlot : Effects (readSlotBody r) s := by
  have h : ∀ b i p, Effect s (readSlotOf b i p s).1 := fun b i p => by
    unfold readSlotOf; split
    · show Effect s (if b then _ else s)
      split
      · exact effect_minor _ _ _ fun r => by constructor <;> rfl
      · exact .refl s
    · split
      · exact .refl s
      · exact .refl s
  unfold Effects readSlotBody
  split
  · split
    · exact h ..
    · exact .refl s
  · split
    · exact h ..
    · exact .refl s
  · exact .refl s

theorem effects_readZone : Effects (readZoneBody r) s :=
  effects_readShelfOf r _ s fun m => by unfold Effects; split <;> exact .refl s

theorem effects_readShelf : Effects (readShelfBody r) s := by
  refine effects_readShelfOf r _ s fun m => ?_
  unfold Effects; beta_reduce; split
  · exact .refl s
  · split
    · exact .refl s
    · split
      · show Effect s s.drawFree
        unfold State.drawFree; split
        · exact .aside (aside_of s _ rfl rfl rfl rfl rfl rfl rfl rfl rfl)
        · exact .refl s
      · exact .refl s

theorem effects_readNotices : Effects (readNoticesBody r) s :=
  effects_readShelfOf r _ s fun _ => .aside (aside_modManager _ _ _ rfl)

theorem effects_setNoticeMask : Effects (setNoticeMaskBody r) s := by
  refine effects_fromManager _ _ _ s fun m _ => ?_
  unfold Effects; beta_reduce; split
  · exact .refl s
  · split
    · exact .refl s
    · dsimp only; exact .aside (aside_modManager _ _ _ rfl)

theorem effects_setTimers : Effects (setTimersBody r) s := by
  refine effects_onShelf _ _ s ?_
  unfold Effects; beta_reduce; split
  · exact .refl s
  · exact .aside (aside_of s _ rfl rfl rfl rfl rfl rfl rfl rfl rfl)

theorem effects_setObservation : Effects (setObservationBody r) s := by
  refine effects_onShelf _ _ s ?_
  unfold Effects; beta_reduce; split
  · exact .refl s
  · dsimp only; exact .aside (aside_modBlock _ _ rfl)

theorem effects_setMonitor : Effects (setMonitorBody r) s := by
  refine effects_onShelf _ _ s ?_
  unfold Effects; beta_reduce; split
  · exact .refl s
  · dsimp only; exact .aside (aside_modBank ..)

theorem effects_readMonitor : Effects (readMonitorBody r) s := effects_readShelfOf r _ s fun _ => .refl s

theorem effects_clearMonitor : Effects (clearMonitorBody r) s := by
  refine effects_onShelf _ _ s ?_
  unfold Effects; beta_reduce; split
  · exact .refl s
  · dsimp only; exact .aside (aside_modBank ..)

theorem effects_unfreeze : Effects (unfreezeBody r) s := by
  refine effects_onShelf _ _ s ?_
  unfold Effects; dsimp only; exact .aside (aside_modBank ..)

/-! ## SET_ZONE -/

theorem zoneSetting_ranged {params : List Byte} {v : ZoneSetting} (h : zoneSetting? params = some v) (z : Zone) :
    (z.configure v).Ranged := by
  unfold zoneSetting? at h
  split at h
  · split at h
    · cases h
      constructor <;> simp only [Zone.configure] <;> omega
    · exact absurd h (by simp)
  · exact absurd h (by simp)

theorem effect_retest (i : SlotId) : Effect s (s.retest i) := by
  unfold State.retest; extract_lets v u; split
  · have hu : Effect s u := effect_oversizeTest ..
    split
    · exact hu.trans (effect_autoAdvance ..)
    · exact hu
  · exact .refl s

theorem effects_setZone : Effects (setZoneBody r) s := by
  refine effects_onShelf _ _ s ?_
  unfold Effects; beta_reduce; split
  · exact .refl s
  · next v hv =>
    show Effect s (s.setZone v)
    unfold State.setZone; extract_lets u w
    have hu : Effect s u := .zone _ _ rfl rfl rfl fun _ => zoneSetting_ranged hv _
    have hw : Effect u w := effect_foldl _ (fun s i => effect_retest s i) _ u
    exact (hu.trans hw).trans (effect_examine ..)

end Sys2Proof.Machine
end

