-- ==== Sys2Proof/Laws/Commands.lean ====
section
/-! SUPPORT. What each command that is no request can do, and the whole part: but for the resets, the survey's two events
and the tick's own sampling, every command is a chain of the effects of Laws/Effect.lean (`exec_effect`). -/

namespace Sys2Proof.Machine

/-- An event whose own effect is a chain of effects is one. -/
theorem effect_event {f : State → State} {s t : State} (h : Effect s (f s)) (k : event f s = .next t) : Effect s t := by
  cases k; exact h.trans (effect_settle ..)

variable (s : State) (i : SlotId)

theorem effect_modBlock (f : WindowBlock → WindowBlock) (h : (f s.block).list = s.block.list) : Effect s (s.modBlock f) :=
  .aside (aside_modBlock _ _ h)

theorem effect_modRef (f : Reference → Reference) : Effect s (s.modRef f) := .aside (aside_modRef ..)

/-! ## The sample report and the timers -/

theorem effect_enterHandles (moves : List Bool) : Effect s (s.enterHandles i moves) := by
  induction moves generalizing s with
  | nil => exact .refl s
  | cons c l ih =>
    exact ((effect_minor _ _ _ fun r => by constructor <;> rfl).trans (effect_postSlot ..)).trans (ih _)

theorem effect_presenceGained : Effect s (s.presenceGained i) := by
  unfold State.presenceGained; extract_lets now u
  split
  · have hu : Effect s u := effect_moveTo ..
    split
    · exact hu.trans (effect_moveTo ..)
    · exact hu
  · split
    · exact effect_moveTo ..
    · exact .refl s
  · exact .refl s

theorem effect_presenceLost : Effect s (s.presenceLost i) := by
  unfold State.presenceLost; dsimp only
  split
  · exact effect_isolate ..
  · split
    · split
      · exact .refl s
      · exact effect_moveTo ..
    · split
      · exact .refl s
      · exact effect_moveTo ..

theorem effect_actOnHandle (moves : List Bool) : Effect s (s.actOnHandle i moves) := by
  induction moves generalizing s with
  | nil => exact .refl s
  | cons c l ih =>
    refine (effect_enterHandles s i [c]).trans (.trans ?_ (ih _))
    cases c with
    | true => exact effect_handleClosed ..
    | false => exact effect_handleOpened ..

theorem effect_reportLines (p : LineReport) : Effect s (s.reportLines i p) := by
  unfold State.reportLines; extract_lets r was moves u
  have hu : Effect s u := effect_minor _ _ _ fun r => by constructor <;> rfl
  have hv : Effect s (u.enterHandles i moves) := hu.trans (effect_enterHandles ..)
  split
  · exact hv.trans (effect_presenceGained ..)
  · split
    · exact hv.trans (effect_presenceLost ..)
    · split
      · exact hv.trans (effect_isolate ..)
      · exact hu.trans (effect_actOnHandle ..)

theorem effect_reportPg (lost : Bool) : Effect s (s.reportPg i lost) := by
  unfold State.reportPg; extract_lets st
  split
  · exact (effect_moveTo ..).trans (effect_atPowered ..)
  · split
    · exact effect_postSlot ..
    · exact .refl s

theorem effect_takeReport : Effect s (s.takeReport i) := (effect_reportLines ..).trans (effect_reportPg ..)

variable {t : State}

theorem effect_sampleReport (h : execSampleReport i s = .next t) : Effect s t := by
  unfold execSampleReport at h; split at h
  · exact effect_event (effect_takeReport s i) h
  · cases h; exact .refl s

theorem effect_prechargeComplete (h : execPrechargeComplete i s = .next t) : Effect s t := by
  unfold execPrechargeComplete at h; split at h
  · exact effect_event (effect_takeReport s i) h
  · cases h; exact .refl s

theorem effect_grant (z : ZoneId) (h : execGrant z s = .next t) : Effect s t := by
  unfold execGrant at h; split at h
  · exact effect_event (effect_grantTo ..) h
  · cases h; exact .refl s

theorem effect_limitExpiry (z : ZoneId) (h : execPrechargeLimitExpiry z s = .next t) : Effect s t := by
  unfold execPrechargeLimitExpiry at h; split at h
  · split at h
    · exact effect_event (f := fun s => (s.bar _ .prechargeTimeout).count .prechargeFault 1)
        ((effect_bar s _ _).trans (effect_count ..)) h
    · cases h; exact .refl s
  · cases h; exact .refl s

theorem due_ne {t : SlotTimer} (h : t.due = true) : t ≠ .stopped := by rintro rfl; exact absurd h (by decide)

theorem effect_declareExpiry (h : execDeclareTimerExpiry i s = .next t) : Effect s t := by
  unfold execDeclareTimerExpiry at h; split at h
  · next hd =>
    refine effect_event (f := fun s => (s.modSlot i fun r => { r with declareTimer := .expired }).postSlot .declareOverdue i)
      (Effect.trans (effect_modSlot s i _ ?_ rfl) (effect_postSlot ..)) h
    constructor <;> first | exact Or.inr (Or.inr (due_ne hd)) | rfl | exact Or.inl rfl
  · cases h; exact .refl s

theorem effect_drainExpiry (h : execDrainTimerExpiry i s = .next t) : Effect s t := by
  unfold execDrainTimerExpiry at h; split at h
  · next hd =>
    refine effect_event (f := fun s => (s.modSlot i fun r => { r with drainTimer := .expired }).postSlot .drainOverdue i)
      (Effect.trans (effect_modSlot s i _ ?_ rfl) (effect_postSlot ..)) h
    constructor <;> first | exact Or.inr (Or.inr (due_ne hd)) | rfl | exact Or.inl rfl
  · cases h; exact .refl s

theorem effect_dischargeExpiry (h : execDischargeTimerExpiry i s = .next t) : Effect s t := by
  unfold execDischargeTimerExpiry at h; split at h
  · refine effect_event (f := fun s => s.endDischarge i) ?_ h
    unfold State.endDischarge; split
    · exact effect_moveTo ..
    · exact effect_toDeclared ..
  · cases h; exact .refl s

theorem effect_backoffExpiry (h : execRetryBackoffExpiry i s = .next t) : Effect s t := by
  unfold execRetryBackoffExpiry at h; split at h
  · refine effect_event (f := fun s => s.endBackoff i) ?_ h
    unfold State.endBackoff; split
    · refine effect_modSlot s i _ ?_ rfl
      constructor <;> first | exact Or.inr (Or.inl rfl) | rfl | exact Or.inl rfl
    · exact effect_moveTo ..
  · cases h; exact .refl s

/-! ## Feeds -/

theorem effect_leaveDark (z : ZoneId) : Effect s (s.leaveDark z) :=
  effect_foldl _ (fun u j => by
    split
    · exact effect_autoAdvance ..
    · exact .refl u) _ s

theorem effect_enterDark (z : ZoneId) : Effect s (s.enterDark z) := by
  unfold State.enterDark; extract_lets u
  have hu : Effect s u := effect_foldl _ (fun u j => by
    split
    · exact effect_isolate ..
    · exact .refl u) _ s
  exact (hu.trans (effect_postShelf ..)).trans (effect_examine ..)

theorem effect_feedEffects (z : ZoneId) (p : Protection) : Effect s (s.feedEffects z p) := by
  unfold State.feedEffects; extract_lets now
  split
  · exact effect_enterDark ..
  · split
    · exact ((effect_postShelf ..).trans (effect_leaveDark ..)).trans (effect_examine ..)
    · exact (effect_postShelf ..).trans (effect_examine ..)

theorem effect_feedChange (z : ZoneId) : Effect s (s.feedChange z) := by
  unfold State.feedChange; extract_lets was u
  have hu : Effect s u := .zone z _ rfl rfl rfl fun h => ⟨h.capA, h.capB, h.margin, h.current⟩
  split
  · exact hu.trans (.aside (aside_of u _ rfl rfl rfl rfl rfl rfl rfl rfl rfl))
  · exact hu.trans (effect_feedEffects ..)

theorem effect_takeFeed (z : ZoneId) : Effect s (s.takeFeed z) := by
  unfold State.takeFeed; split
  · exact effect_feedChange ..
  · exact .refl s

theorem effect_feedHealthChange (z : ZoneId) (h : execFeedHealthChange z s = .next t) : Effect s t := by
  unfold execFeedHealthChange at h; split at h
  · exact effect_event (effect_takeFeed s z) h
  · cases h; exact .refl s

/-! ## Managers -/

theorem effect_strapChange (m : ManagerId) (hr : s.survey.running = false) : Effect s (s.strapChange m) := by
  unfold State.strapChange; extract_lets level u
  have hu : Effect s u := .aside (aside_modManager _ _ _ rfl)
  split
  · unfold State.strapPresent; split
    · next h => exact hu.trans (.activate m _ (Or.inl (by rw [h]; decide)) (by unfold u; rw [modManager_survey]; exact hr))
    · exact hu
  · exact (hu.trans (.aside (aside_modManager _ _ _ rfl))).trans (.lapse m _ (by decide))

theorem effect_bayStrapChange (m : ManagerId) (h : execBayStrapChange m s = .next t) : Effect s t := by
  unfold execBayStrapChange at h; split at h
  · next hc => exact effect_event (effect_strapChange s m hc.1) h
  · cases h; exact .refl s

theorem effect_supervision (m : ManagerId) (h : execSupervisionTimerExpiry m s = .next t) : Effect s t := by
  unfold execSupervisionTimerExpiry at h; split at h
  · exact effect_event (f := fun s => s.lapse m) (Effect.trans (.aside (aside_modManager _ _ _ rfl)) (.lapse m _ (by decide))) h
  · cases h; exact .refl s

/-! ## Timing -/

theorem effect_setReference (f : Reference → Reference) : Effect s (s.setReference f) :=
  (effect_modRef ..).trans (effect_postShelf ..)

theorem effect_goFree : Effect s s.goFree := (effect_setReference ..).trans (effect_modBlock _ _ rfl)

theorem effect_holdoverLimit (h : execHoldoverLimit s = .next t) : Effect s t := by
  unfold execHoldoverLimit at h; split at h
  · exact effect_event (effect_goFree s) h
  · cases h; exact .refl s

theorem effect_marker (src : Source) (d : Nat) : Effect s (s.marker src d) := by
  unfold State.marker; extract_lets before age u
  have hu : Effect s u := effect_modRef ..
  unfold State.acquisitionMarker
  repeat' split
  all_goals first
    | exact hu | exact hu.trans (effect_setReference ..) | exact hu.trans (effect_modRef ..)

theorem effect_markerArrival (src : Source) (d : Nat) (h : execMarkerArrival src d s = .next t) : Effect s t :=
  effect_event (effect_marker s src d) h

theorem effect_syncClose : Effect s s.syncClose := by
  unfold State.syncClose; extract_lets u now v
  have hu : Effect s u := by
    unfold u; split
    · exact effect_goFree ..
    · exact .refl s
  have hv : Effect s v := hu.trans (effect_modRef ..)
  split
  · exact hv
  · refine hv.trans ?_
    unfold State.closeAcquiring; split
    · split
      · exact .refl v
      · exact effect_goFree v
    · exact .refl v
  · refine hv.trans ?_
    unfold State.closeLocked; split
    · exact effect_modRef v _
    · exact effect_setReference v _
  · split
    · refine hv.trans ?_
      unfold State.closeHoldover; split
      · split
        · exact effect_setReference v _
        · exact effect_modRef v _
      · exact effect_modRef v _
    · exact hv

theorem effect_syncWindowClose (h : execSyncWindowClose s = .next t) : Effect s t := by
  unfold execSyncWindowClose at h; split at h
  · exact effect_event (effect_syncClose s) h
  · cases h; exact .refl s

/-! ## The tick of the window and the bank -/

theorem effect_tickBank : Effect s s.tickBank := by
  unfold State.tickBank; extract_lets wrapped u
  have hu : Effect s u := effect_of_bank
  split
  · exact hu.trans (effect_postShelf ..)
  · exact hu
where
  effect_of_bank : Effect s { s with bank := s.bank.tick } :=
    .aside (aside_of s _ rfl rfl rfl rfl rfl rfl rfl rfl rfl)

theorem effect_takeTick : Effect s s.takeTick := by
  unfold State.takeTick; split
  · exact .refl s
  · extract_lets errors disturbed u
    have hu : Effect s u := effect_modBlock _ _ rfl
    exact ((hu.trans (effect_count ..)).trans (effect_count ..)).trans (effect_tickBank ..)

theorem effect_darkAfterSurvey (z : ZoneId) : Effect s (s.darkAfterSurvey z) := by
  unfold State.darkAfterSurvey; split
  · extract_lets u
    have hu : Effect s u := .zone z _ rfl rfl rfl fun h => ⟨h.capA, h.capB, h.margin, h.current⟩
    split
    · exact hu.trans (effect_enterDark ..)
    · exact hu
  · exact .refl s

/-! ## The highway -/

theorem effect_highwayError (h : execHighwayError s = .next t) : Effect s t :=
  effect_event (f := fun s => s.modBlock fun b => { b with errors := min (b.errors + 1) 255 })
    (effect_modBlock _ _ rfl) h

/-- A phase is set in JOIN_OBSERVE. -/
theorem effect_setPhase (p : SlotPhase) (hs : (s.slot i).state = .joinObserve) (hp : p ≠ .observeLeave) :
    Effect s (s.setPhase i p) := by
  refine Effect.trans (effect_modSlot s i _ ?_ rfl) (effect_postSlot ..)
  constructor <;> first | rfl | exact Or.inr ⟨hs, p, rfl, hp⟩ | exact Or.inl rfl

theorem effect_laneMismatch : Effect s (s.laneMismatch i) := by
  unfold State.laneMismatch; split
  · extract_lets u v
    have hv : Effect s v := (effect_minor s i _ fun r => by constructor <;> rfl).trans (effect_modBlock _ _ rfl)
    split
    · next h => exact hv.trans (effect_setPhase _ _ _ h (by decide))
    · exact hv
  · exact .refl s

theorem effect_actOnSense (k : SwitchKind) : Effect s (s.actOnSense i k) := by
  unfold State.actOnSense; extract_lets r result u
  have hu : Effect s u := by
    unfold u; split
    · exact .refl s
    · exact effect_postSlot ..
  refine hu.trans ?_
  split
  · split
    · exact .refl u
    · exact effect_laneMismatch u i
  · split
    · split
      · exact effect_bar u i _
      · exact effect_isolate u i _
    · split
      · exact effect_isolate u i _
      · exact .refl u
  · exact .refl u

theorem effect_senseSlot (v : LaneSense) : Effect s (s.senseSlot i v) := by
  unfold State.senseSlot; extract_lets u l
  have hu : Effect s u := effect_minor _ _ _ fun r => by constructor <;> rfl
  split
  · split
    · exact hu
    · exact (hu.trans (effect_minor _ _ _ fun r => by constructor <;> rfl)).trans (effect_actOnSense ..)
  · exact hu

theorem effect_laneSenseSample (senses : Vector LaneSense 16) (h : execLaneSenseSample senses s = .next t) :
    Effect s t := by
  unfold execLaneSenseSample at h; split at h
  · refine effect_event (f := fun s => s.senseAll senses) ?_ h
    refine Effect.trans (t := { s with laneDue := false }) ?_ (effect_foldl _ (fun u j => effect_senseSlot u j _) _ _)
    exact .aside (aside_of s _ rfl rfl rfl rfl rfl rfl rfl rfl rfl)
  · cases h; exact .refl s

theorem effect_closeWindow : Effect s s.closeWindow := effect_modBlock _ _ rfl

theorem effect_setWindowPhase (p : WindowPhase) : Effect s (s.setWindowPhase p) := effect_modBlock _ _ rfl

theorem effect_dropGroups (gs : GroupSet) : Effect s (s.dropGroups i gs) :=
  ((Effect.free i gs).trans (effect_minor _ _ _ fun r => by constructor <;> rfl)).trans (effect_postSlot ..)

theorem effect_endRegroup : Effect s (s.endRegroup i) := by
  unfold State.endRegroup; extract_lets u
  split
  · exact (effect_closeWindow s).trans (effect_startDrain ..)
  · exact effect_closeWindow ..

theorem effect_actOnVerdict (w : OpenWindow) (v : Verdict)
    (hs : (s.slot w.holder).state = w.kind.observedState) : Effect s (s.actOnVerdict w v) := by
  unfold State.actOnVerdict
  split
  · unfold State.joinClean; extract_lets u; split
    · exact (effect_closeWindow s).trans (effect_startDrain ..)
    · exact (effect_closeWindow s).trans (effect_moveTo ..)
  · next hk _ =>
    exact (effect_setWindowPhase s _).trans (effect_setPhase _ _ _
      (by unfold State.setWindowPhase; rw [modBlock_slot, hs, hk]; rfl) (by decide))
  · unfold State.revertClean; extract_lets u
    have hu : Effect s u := (effect_closeWindow s).trans (effect_minor _ _ _ fun r => by constructor <;> rfl)
    repeat' split
    · exact hu.trans (effect_bar ..)
    · exact hu.trans (effect_moveTo ..)
    · exact (hu.trans (effect_moveTo ..)).trans (effect_noteCheckpoint ..)
  · exact effect_isolate ..
  · exact (effect_dropGroups ..).trans (effect_endRegroup ..)
  · exact (effect_setWindowPhase ..).trans (effect_postSlot ..)
  · unfold State.leaveEnd; extract_lets u
    have hu : Effect s u := (effect_closeWindow s).trans (effect_moveTo ..)
    split
    · exact hu.trans (effect_postSlot ..)
    · exact hu
  · exact .refl s

theorem effect_windowVerdict (h : execWindowVerdict s = .next t) : Effect s t := by
  unfold execWindowVerdict at h; split at h
  · next w _ =>
    split at h
    · next hc =>
      refine effect_event (f := fun s => s.giveVerdict w) ?_ h
      unfold State.giveVerdict; extract_lets v u
      have hu : Effect s u := effect_modBlock _ _ rfl
      split
      · exact hu.trans (effect_setWindowPhase ..)
      · exact hu.trans (effect_actOnVerdict u w v hc.2)
    · cases h; exact .refl s
  · cases h; exact .refl s

theorem effect_switchLanes (m : LaneMode) (g : GroupSet) (k : SwitchKind) (b : Bool) :
    Effect s (s.switchLanes i m g k b) := effect_minor _ _ _ fun r => by constructor <;> rfl

/-- The entry that takes the window has left the list. -/
theorem before_grant (e : ChangeEntry) : Before e.slot s (s.modBlock (WindowBlock.grant e)) where
  slots _ _ := rfl
  decl := rfl
  reserve := rfl
  steer := rfl
  zones _ := modBlock_zone ..
  map _ := Or.inl rfl
  list := by
    show (s.block.list.filter _).filter _ = _
    rw [List.filter_filter]; simp
  manager _ := by rw [modBlock_manager]
  running := rfl
  ended := rfl

theorem nodup_slot_eq {l : List ChangeEntry} (h : (l.map (·.slot)).Nodup) {x e : ChangeEntry} (hx : x ∈ l) (he : e ∈ l)
    (hs : x.slot = e.slot) : x = e :=
  List.inj_on_of_nodup_map h hx he hs

/-- The switching of a regroup goes with its entry: the slot leaves the list with no regroup pending. -/
theorem effect_grantRegroup (e : ChangeEntry) (he : e ∈ s.block.list) (hk : e.kind = .regroup) :
    Effect s ((s.modBlock (WindowBlock.grant e)).applyRegroup e.slot) := by
  let l := (s.slot e.slot).lane
  have hb : (s.modBlock (WindowBlock.grant e)).applyRegroup e.slot =
      ((((s.switchLanes e.slot .joined (l.pending.getD l.transmit) .transmitOn true).modLane e.slot
        fun v => { v with restore := some l.transmit, pending := none }).dropChange e.slot).modBlock
        fun b => { b with opened := some (b.openFor e), lastVerdict := none, grantDue := false }).postSlot
        .state e.slot := rfl
  rw [hb]
  refine (((effect_switchLanes ..).trans (.unlist e.slot _ ?_ ?_ rfl)).trans (effect_modBlock _ _ rfl)).trans
    (effect_postSlot ..)
  · constructor <;> first | rfl | exact Or.inl rfl
  · exact Or.inr fun hn x hx hs => by rw [nodup_slot_eq hn hx he hs]; exact hk

theorem effect_grantWindow (e : ChangeEntry) (he : e ∈ s.block.list) :
    Effect s ((s.modBlock (WindowBlock.grant e)).applyChange e) := by
  unfold State.applyChange; split
  · exact .move _ _ ((before_grant s e).trans (before_switchLanes ..))
  · next hk => exact effect_grantRegroup s e he hk
  · exact .move _ _ ((before_grant s e).trans ((before_switchLanes ..).trans (before_freeGroups ..)))

theorem effect_windowGrant (h : execWindowGrant s = .next t) : Effect s t := by
  unfold execWindowGrant at h; split at h
  · next e _ hl =>
    split at h
    · exact effect_event (f := fun s => (s.modBlock (WindowBlock.grant e)).applyChange e)
        (effect_grantWindow s e (by rw [hl]; exact List.mem_cons_self)) h
    · cases h; exact .refl s
  · cases h; exact .refl s

theorem effect_useBoundary : Effect s s.useBoundary := effect_modBlock _ _ rfl

theorem effect_offHighway : Effect s (s.offHighway i) :=
  ((effect_switchLanes ..).trans (effect_count ..)).trans (effect_useBoundary _)

theorem offHighway_state : ((s.offHighway i).slot i).state = (s.slot i).state := by
  unfold State.offHighway State.useBoundary; rw [modBlock_slot, count_slot, switchLanes_slot_self]; rfl

theorem effect_revert (h : execRevert s = .next t) : Effect s t := by
  unfold execRevert at h; split at h
  · next w _ =>
    split at h
    · next hc =>
      refine effect_event (f := fun s => s.applyRevert w.holder) ?_ h
      unfold State.applyRevert; extract_lets u
      have hu : Effect s u := (effect_offHighway s w.holder).trans
        (effect_setPhase _ _ _ (by rw [offHighway_state]; exact hc.2.2.2.2) (by decide))
      exact hu.trans (effect_modBlock _ _ rfl)
    · cases h; exact .refl s
  · cases h; exact .refl s

theorem effect_restore (h : execRestore s = .next t) : Effect s t := by
  unfold execRestore at h; split at h
  · next w _ =>
    split at h
    · refine effect_event (f := fun s => s.applyRestore w.holder) ?_ h
      unfold State.applyRestore; extract_lets l set u
      have hu : Effect s u := ((effect_switchLanes ..).trans (effect_count ..)).trans (effect_useBoundary _)
      exact (hu.trans (effect_dropGroups ..)).trans (effect_endRegroup ..)
    · cases h; exact .refl s
  · cases h; exact .refl s

theorem effect_undo (h : execUndo s = .next t) : Effect s t := by
  unfold execUndo at h; split at h
  · next w _ =>
    split at h
    · refine effect_event (f := fun s => s.applyUndo w.holder) ?_ h
      unfold State.applyUndo; extract_lets u
      have hu : Effect s u := ((effect_offHighway s w.holder).trans
        (effect_minor _ _ _ fun r => by constructor <;> rfl)).trans (effect_closeWindow _)
      split
      · next hs => exact hu.trans (effect_setPhase _ _ _ hs (by decide))
      · exact hu
    · cases h; exact .refl s
  · cases h; exact .refl s

/-! ## The bus ports -/

theorem effect_badCheckFrame (p : Port) (a : BitVec 7) (l : List Byte) (e : FrameEnd)
    (h : execBadCheckFrame p a l e s = .next t) : Effect s t := by
  unfold execBadCheckFrame at h; split at h
  · exact effect_event (effect_atAddress p a _ ((effect_modPort s p _).trans (effect_count ..))) h
  · cases h; exact .refl s

theorem effect_unknownRequest (c : Byte) (r : Request) (h : execUnknownRequest c r s = .next t) : Effect s t := by
  unfold execUnknownRequest at h; split at h
  · refine effect_request ?_ h
    split <;> exact effects_refuse ..
  · cases h; exact .refl s

theorem effect_busError (p : Port) (a : BitVec 7) (l : List Byte) (e : BusEvent) (h : execBusError p a l e s = .next t) :
    Effect s t := by
  unfold execBusError at h; split at h
  · exact effect_event (effect_atAddress p a _ (effect_brokenOff s p l.length e)) h
  · cases h; exact .refl s

theorem effect_emptyWrite (p : Port) (a : BitVec 7) (h : execEmptyWrite p a s = .next t) : Effect s t := by
  exact effect_event (effect_atAddress p a _ (effect_modPort s p _)) h

theorem effect_readReply (p : Port) (n : Nat) : Effect s (s.readReply p n) := by
  unfold State.readReply; split
  · exact effect_modPort ..
  · exact effect_modPort ..
  · exact effect_brokenOff ..
  · exact effect_modPort ..
  · exact .refl s

theorem effect_replyRead (p : Port) (a : BitVec 7) (n : Nat) (h : execReplyRead p a n s = .next t) : Effect s t := by
  exact effect_event (effect_atAddress p a _ (effect_readReply s p n)) h

theorem effect_replyDiscard (p : Port) (a : BitVec 7) (e : BusEvent) (h : execReplyDiscard p a e s = .next t) :
    Effect s t := by
  unfold execReplyDiscard at h; split at h
  · exact effect_event (effect_busEvent s p _) h
  · exact effect_event (effect_busEvent s p _) h
  · exact effect_event (effect_atAddress p a _ (effect_busEvent s p _)) h
  · exact effect_event (effect_atAddress p a _ (effect_busEvent s p _)) h

theorem effect_postBus : Effect s s.postBus := by
  unfold State.postBus; split
  · exact .aside (aside_of s _ rfl rfl rfl rfl rfl rfl rfl rfl rfl)
  · exact effect_postShelf ..

theorem effect_takeStuck (p : Port) : Effect s (s.takeStuck p) := by
  unfold State.takeStuck; split
  · exact ((effect_modPort s p _).trans (effect_count ..)).trans (effect_postBus _)
  · exact .refl s

theorem effect_stuckLineReset (p : Port) (h : execStuckLineReset p s = .next t) : Effect s t := by
  unfold execStuckLineReset at h; split at h
  · exact effect_event (effect_takeStuck s p) h
  · cases h; exact .refl s

/-- The steps of a survey tick that SURVEY_DONE takes first. -/
theorem effect_takeSurveyTick : Effect s s.takeSurveyTick :=
  (((effect_takeFeed s .one).trans (effect_takeFeed _ .two)).trans (effect_takeStuck _ .a)).trans (effect_takeStuck _ .b)

/-! ## The whole part -/

/-- The commands that act otherwise than by the effects of Laws/Effect.lean: the resets, the survey's two events, and the
tick. -/
def actsWhole : Instr → Bool
  | .powerUp | .controllerRestart | .surveyClassification | .surveyDone | .multiframeTick _ => true
  | _ => false

/-- Every other command is a chain of effects. -/
theorem exec_effect {c : Instr} (hc : actsWhole c = false) (h : exec c s = .next t) : Effect s t := by
  cases c with
  | powerUp => exact absurd hc (by decide)
  | controllerRestart => exact absurd hc (by simp [actsWhole])
  | surveyClassification => exact absurd hc (by decide)
  | surveyDone => exact absurd hc (by decide)
  | multiframeTick p => exact absurd hc (by simp [actsWhole])
  | sampleReport i => exact effect_sampleReport s i h
  | grant z => exact effect_grant s z h
  | prechargeComplete i => exact effect_prechargeComplete s i h
  | prechargeLimitExpiry z => exact effect_limitExpiry s z h
  | feedHealthChange z => exact effect_feedHealthChange s z h
  | bayStrapChange m => exact effect_bayStrapChange s m h
  | supervisionTimerExpiry m => exact effect_supervision s m h
  | declareTimerExpiry i => exact effect_declareExpiry s i h
  | drainTimerExpiry i => exact effect_drainExpiry s i h
  | dischargeTimerExpiry i => exact effect_dischargeExpiry s i h
  | retryBackoffExpiry i => exact effect_backoffExpiry s i h
  | holdoverLimit => exact effect_holdoverLimit s h
  | markerArrival src d => exact effect_markerArrival s src d h
  | syncWindowClose => exact effect_syncWindowClose s h
  | highwayError => exact effect_highwayError s h
  | laneSenseSample v => exact effect_laneSenseSample s v h
  | windowGrant => exact effect_windowGrant s h
  | windowVerdict => exact effect_windowVerdict s h
  | revert => exact effect_revert s h
  | restore => exact effect_restore s h
  | undo => exact effect_undo s h
  | readSlot r => exact effect_request (effects_readSlot r s) h
  | readZone r => exact effect_request (effects_readZone r s) h
  | readShelf r => exact effect_request (effects_readShelf r s) h
  | readNotices r => exact effect_request (effects_readNotices r s) h
  | setNoticeMask r => exact effect_request (effects_setNoticeMask r s) h
  | refresh r => exact effect_request (effects_refresh r s) h
  | setZone r => exact effect_request (effects_setZone r s) h
  | setSlotPolicy r => exact effect_request (effects_setSlotPolicy r s) h
  | respContinue r => exact effect_responseCommand r s (effects_continue r s) h
  | respHold r => exact effect_responseCommand r s (effects_hold r s) h
  | respReject r => exact effect_responseCommand r s (effects_reject r s) h
  | respRollback r => exact effect_responseCommand r s (effects_rollback r s) h
  | respJoin r => exact effect_responseCommand r s (effects_join r s) h
  | respRetry r => exact effect_responseCommand r s (effects_retry r s) h
  | respRetire r => exact effect_responseCommand r s (effects_retireResponse r s) h
  | respQuiesced r => exact effect_responseCommand r s (effects_quiesced r s) h
  | respCancel r => exact effect_responseCommand r s (effects_cancel r s) h
  | assignGroups r => exact effect_request (effects_assign r s) h
  | releaseGroups r => exact effect_request (effects_release r s) h
  | retire r => exact effect_request (effects_retire r s) h
  | forceRetire r => exact effect_request (effects_forceRetire r s) h
  | adopt r => exact effect_request (effects_adopt r s) h
  | unbar r => exact effect_request (effects_unbar r s) h
  | setObservation r => exact effect_request (effects_setObservation r s) h
  | setTimers r => exact effect_request (effects_setTimers r s) h
  | setMonitor r => exact effect_request (effects_setMonitor r s) h
  | readMonitor r => exact effect_request (effects_readMonitor r s) h
  | clearMonitor r => exact effect_request (effects_clearMonitor r s) h
  | unfreeze r => exact effect_request (effects_unfreeze r s) h
  | declare r => exact effect_request (effects_declare r s) h
  | retireSelf r => exact effect_request (effects_retireSelf r s) h
  | badCheckFrame p a l e => exact effect_badCheckFrame s p a l e h
  | unknownRequest c r => exact effect_unknownRequest s c r h
  | busError p a l e => exact effect_busError s p a l e h
  | emptyWrite p a => exact effect_emptyWrite s p a h
  | replyRead p a n => exact effect_replyRead s p a n h
  | replyDiscard p a e => exact effect_replyDiscard s p a e h
  | stuckLineReset p => exact effect_stuckLineReset s p h

theorem effect_restartLine (l : RestartLine) : Effect s { s with restartLine := l } :=
  .aside (aside_of s _ rfl rfl rfl rfl rfl rfl rfl rfl rfl)

/-- A tick that finds no waiting restart released is its own event. -/
theorem onTick_of {x : TickInputs} (f : State → State) (h : s.restartLine.asked = true → x.restartHeld = true) :
    onTick x f s = event f s := by
  unfold onTick State.restartReleased; rw [if_neg]
  cases ha : s.restartLine.asked with
  | false => simp
  | true => simp [h ha]

/-- The tick is a chain of effects around its own sampling, or the restart that waited for the release of its line. -/
theorem tick_effect {p : TickPart} (h : exec (.multiframeTick p) s = .next t) :
    Effect s t ∨ (∃ u, Effect s u ∧ t = u.restart) ∨ ∃ x u, Effect s u ∧ Effect (u.sampleAndCount x) t := by
  have hi : ∀ x, ∃ u, Effect s u ∧ Effect (u.sampleAndCount x) (s.issueTick x) := fun x => by
    unfold State.issueTick; extract_lets a hand b c
    refine ⟨c, ?_, (effect_darkAfterSurvey ..).trans (effect_darkAfterSurvey ..)⟩
    exact ((effect_takeTick s).trans (effect_count ..)).trans (effect_modBlock _ _ rfl)
  have ho : ∀ x (f : State → State), Effect (s.issueTick x) (f s) → onTick x f s = .next t →
      (∃ u, Effect s u ∧ t = u.restart) ∨ ∃ x u, Effect s u ∧ Effect (u.sampleAndCount x) t := fun x f hf he => by
    unfold onTick at he; split at he
    · exact Or.inl ⟨_, effect_restartLine s _, (Host.Outcome.next.inj he).symm⟩
    · obtain ⟨u, h1, h2⟩ := hi x
      exact Or.inr ⟨x, u, h1, by cases he; exact (h2.trans hf).trans (effect_settle ..)⟩
  cases p with
  | whole x => exact Or.inr (ho x _ (effect_takeTick _) h)
  | issue x => exact Or.inr (ho x _ (.refl _) h)
  | windowAndBank => exact Or.inl (effect_event (f := fun s => s.takeTick) (effect_takeTick s) h)

end Sys2Proof.Machine
end

