-- ==== Sys2Proof/Laws/Events.lean ====
section
/-! SUPPORT. The frame of an event on one slot: what is done to the slot, and then the end of the event; and what a slot's
record holds after a transition. -/

namespace Sys2Proof.Machine

/-- Every transition leaves the record as `Entered` says. -/
theorem entered_moved (st : SlotState) (t : TimerSettings) (r : Slot) : Entered st t r (r.moved st t) where
  state := by simp
  phase := by simp
  powerPath := by simp
  mgmtPower := by simp
  declareTimer := by simp
  drainTimer := by simp
  dischargeTimer := by simp
  backoffTimer := by simp
  lanes m h := by simp [h]
  lanesKept h := by simp [h]
  regroup := by simp
  reservation := by simp
  cause := by simp
  origin := by simp
  target := by simp
  attempts := by simp
  heldMark := by simp
  decl := by simp
  oversize := by simp
  clamped := by simp
  steering := by simp
  policy := by simp
  codes := by simp
  lines := by simp

variable {s u : State} {i : SlotId}

theorem entered_moveTo (s : State) (i : SlotId) (st : SlotState) :
    Entered st s.timers (s.slot i) ((s.moveTo i st).slot i) := by
  rw [moveTo_slot_self]; exact entered_moved ..

/-! ## The other zone -/

/-- An examination leaves the other zone as it is, when the queue holds slots of its own zone only. -/
theorem examine_zone_ne (s : State) {z w : ZoneId} (hw : w ≠ z) (h : ∀ e ∈ (s.zone z).queue, zoneOf e.slot = z) :
    (s.examine z).zone w = s.zone w := by
  have key : ∀ (l : List QueueEntry) (u : State), (∀ e ∈ l, zoneOf e.slot = z) → u.zone w = s.zone w →
      (l.foldl (fun s e => (s.moveTo e.slot .declared).noteCheckpoint e.slot) u).zone w = s.zone w := by
    intro l
    induction l with
    | nil => exact fun u _ k => k
    | cons e l ih =>
      intro u k hu
      refine ih _ (fun x hx => k x (List.mem_cons_of_mem _ hx)) ?_
      have he := k e (List.mem_cons_self ..)
      rw [(local_noteCheckpoint _ e.slot).zone w (by rw [he]; exact hw),
        (local_moveTo u e.slot .declared).zone w (by rw [he]; exact hw), hu]
  have hs : (s.sweepQueue z).zone w = s.zone w :=
    key _ s (fun e he => h e (List.mem_filter.1 he).1) rfl
  have hq : ∀ e ∈ ((s.sweepQueue z).zone z).queue, zoneOf e.slot = z :=
    fun e he => h e ((endOfEvent_sweepQueue s z).queue z e he)
  unfold State.examine State.testHead; split
  · next e l hl _ =>
    have he : zoneOf e.slot = z := hq e (by rw [hl]; exact List.mem_cons_self ..)
    unfold State.grantTo; split
    · exact hs
    · rw [modZone_zone, if_neg hw, (local_setReservation _ e.slot _).zone w (by rw [he]; exact hw),
        (local_moveTo _ e.slot .precharge).zone w (by rw [he]; exact hw), hs]
  · unfold State.setWait; rw [modZone_zone, if_neg hw, hs]

/-- The end of an event leaves a zone that the event left as it was. -/
theorem settle_zone_ne {before : State} {z w : ZoneId} (hw : w ≠ z)
    (h : ∀ e ∈ (s.zone z).queue, zoneOf e.slot = z) (hz : s.zone w = before.zone w) :
    (before.settle s).zone w = before.zone w := by
  have hn : ∀ u : State, u.zone w = before.zone w → u.examineAfter w before = u := fun u hu => by
    unfold State.examineAfter; rw [hu, needsExamination_self]; rfl
  have hx : ∀ u : State, u.zone w = before.zone w → (∀ e ∈ (u.zone z).queue, zoneOf e.slot = z) →
      (u.examineAfter z before).zone w = before.zone w := fun u hu hq => by
    unfold State.examineAfter; split
    · rw [examine_zone_ne u hw hq, hu]
    · exact hu
  have ht : ((s.examineAfter .one before).examineAfter .two before).zone w = before.zone w := by
    cases z <;> cases w <;> simp only [ne_eq, not_true_eq_false, reduceCtorEq, not_false_eq_true] at hw
    · rw [hn _ (hx s hz h)]; exact hx s hz h
    · rw [hn s hz]; exact hx s hz h
  unfold State.settle; extract_lets v
  split
  · rw [postShelf_zone]; exact ht
  · exact ht

/-! ## The frame -/

theorem Local.inQueue (h : Local i s u) {j : SlotId} (hj : j ≠ i) : u.inQueue j = s.inQueue j := by
  have hz : ∀ z, (∃ e ∈ (u.zone z).queue, e.slot = j) ↔ ∃ e ∈ (s.zone z).queue, e.slot = j := fun z => by
    by_cases hz : z = zoneOf i
    · subst hz
      have k : ∀ l : List QueueEntry, (∃ e ∈ l, e.slot = j) ↔ ∃ e ∈ l.filter (fun e => e.slot ≠ i), e.slot = j := fun l => by
        constructor
        · rintro ⟨e, he, hs⟩; exact ⟨e, List.mem_filter.2 ⟨he, by simp [hs, hj]⟩, hs⟩
        · rintro ⟨e, he, hs⟩; exact ⟨e, (List.mem_filter.1 he).1, hs⟩
      rw [k, h.queue, ← k]
    · rw [h.zone z hz]
  have : u.inQueue j = true ↔ s.inQueue j = true := by
    rw [inQueue_iff, inQueue_iff]; exact exists_congr hz
  cases hu : u.inQueue j <;> cases hs : s.inQueue j <;> simp_all

theorem Local.queue_mem (h : Local i s u) (z : ZoneId) (e : QueueEntry) (he : e ∈ (u.zone z).queue) :
    e ∈ (s.zone z).queue ∨ e.slot = i := by
  by_cases hi : e.slot = i
  · exact Or.inr hi
  · left
    by_cases hz : z = zoneOf i
    · subst hz
      have : e ∈ (u.zone (zoneOf i)).queue.filter (fun e => e.slot ≠ i) := List.mem_filter.2 ⟨he, by simp [hi]⟩
      rw [h.queue] at this; exact (List.mem_filter.1 this).1
    · rwa [h.zone z hz] at he

/-- What is done to slot `i` calmly, followed by the end of the event, is an event on slot `i`. -/
theorem slotEvent_settle (c : Calm s u) (l : Local i s u) : SlotEvent i s (s.settle u) := by
  have k := endOfEvent_settle u s
  refine ⟨c.trans (calm_settle ..), fun j hj hq => ?_, fun j hj => ?_, fun j hj => ?_, fun hq z hz => ?_, fun z e he => ?_,
    fun x hx hq => ?_, fun m n j hj hq h => ?_, fun m n hn h => l.shelf m n (k.shelf m n hn h)⟩
  · rw [k.slots j (by rwa [l.inQueue hj]), l.slots j hj]
  · rcases k.swept j with e | e
    · left; rw [e, l.slots j hj]
    · exact Or.inr e
  · rw [← l.held j hj]; unfold State.heldGroups; rw [k.map]
  · refine settle_zone_ne (z := zoneOf i) hz (fun e he => ?_) (l.zone z hz)
    rcases l.queue_mem _ e he with h | h
    · exact hq _ e h
    · rw [h]
  · exact l.queue_mem z e (k.queue z e he)
  · rw [k.listed x (by rwa [l.inQueue hx]), l.listed x hx]
  · exact l.notices m n j hj (k.notices m n j (by rwa [l.inQueue hj]) h)

theorem quietEvent_settle (c : Calm s u) (l : Local i s u) (ho : u.block.opened = s.block.opened) (hb : u.bank = s.bank) :
    QuietEvent i s (s.settle u) where
  toSlotEvent := slotEvent_settle c l
  opened := ((endOfEvent_settle u s).opened).trans ho
  bank := ((endOfEvent_settle u s).bank).trans hb

/-- The end of an event leaves the record of a slot that the event left in no queue. -/
theorem settle_slot (before : State) {j : SlotId} (h : u.inQueue j = false) : (before.settle u).slot j = u.slot j :=
  (endOfEvent_settle u before).slots j h

end Sys2Proof.Machine
end

