-- ==== Sys2Proof/Laws/Moves.lean ====
section
/-! SUPPORT. What a transition of a slot leaves beside the slot's record: the STATE notice, the queue, the change list, the
groups and the channel; and that the end of the event leaves them so. -/

namespace Sys2Proof.Machine

variable {s u before : State} {i j : SlotId} {st : SlotState}

/-- A slot that goes to a state has a STATE notice (R16). -/
theorem moveTo_posted (s : State) (i : SlotId) (st : SlotState) : (s.moveTo i st).posted .state i := by
  unfold State.moveTo; extract_lets u
  exact ((calm_countMove _ _ _).trans (calm_takePlace _ _ _)).posted (posted_postSlot _ _ _)

/-! ## The stages of a transition -/

/-- What a transition does before the slot's record follows. -/
def State.cleared (i : SlotId) (st : SlotState) (s : State) : State :=
  (((s.vacate i st).lanesFor i st).powerFor i st).groupsFor i st

theorem discardRegroup_block (s : State) (i : SlotId) : (s.discardRegroup i).block = s.block := by
  unfold State.discardRegroup; split
  · rw [modLane_block, freeSet_block]
  · rfl

theorem cleared_block (s : State) (i : SlotId) (st : SlotState) : (s.cleared i st).block = (s.dropChange i).block := by
  have hg : ∀ u : State, (u.groupsFor i st).block = u.block := fun u => by
    unfold State.groupsFor; split
    · unfold State.freeGroups; rw [modLane_block, freeSet_block]
    · rfl
  have hw : ∀ u : State, (u.powerFor i st).block = u.block := fun u => by
    unfold State.powerFor; split
    · rfl
    · unfold State.setReservation; rw [modSlot_block, modZone_block]
  have hl : ∀ u : State, (u.lanesFor i st).block = u.block := fun u => by
    unfold State.lanesFor; split
    · unfold State.plainLanes; split
      · rfl
      · exact modSlot_block ..
    · rfl
  have hv : (((s.leaveQueue i).freeChannel i).dropChange i).block = (s.dropChange i).block := by
    unfold State.dropChange State.freeChannel State.leaveQueue
    rw [modBlock_block, modBlock_block, modZone_block, modZone_block]
  unfold State.cleared
  rw [hg, hw, hl]
  unfold State.vacate; extract_lets v
  split
  · rw [discardRegroup_block]; exact hv
  · exact hv

theorem countMove_block (s : State) (a b : SlotState) : (s.countMove a b).block = s.block := by
  unfold State.countMove; split
  · exact count_block ..
  · split
    · exact count_block ..
    · rfl

/-- The block of a slot that has gone to a state: the slot's old entry is gone from the change list, and its new one, if it
has one, stands in its place (R127, R128). -/
theorem moveTo_block (s : State) (i : SlotId) (st : SlotState) : (s.moveTo i st).block = { s.block with
    list := match st with
      | .joinWait => insertChange ⟨i, .join⟩ (s.block.list.filter fun x => x.slot ≠ i)
      | .leaveWait => insertChange ⟨i, .leave⟩ (s.block.list.filter fun x => x.slot ≠ i)
      | _ => s.block.list.filter fun x => x.slot ≠ i } := by
  have h : ∀ u : State, u.block = (s.dropChange i).block → (u.takePlace i st).block = { s.block with
      list := match st with
        | .joinWait => insertChange ⟨i, .join⟩ (s.block.list.filter fun x => x.slot ≠ i)
        | .leaveWait => insertChange ⟨i, .leave⟩ (s.block.list.filter fun x => x.slot ≠ i)
        | _ => s.block.list.filter fun x => x.slot ≠ i } := fun u hu => by
    have hd : u.block = { s.block with list := s.block.list.filter fun x => x.slot ≠ i } := hu
    unfold State.takePlace State.addChange State.joinQueue
    cases st <;> first | exact hd | (simp only [modZone_block]; exact hd) | skip
    all_goals rw [modBlock_block, hd]; simp only [List.filter_filter, Bool.and_self]
  unfold State.moveTo; extract_lets v
  refine h _ ?_
  rw [countMove_block, postSlot_block, modSlot_block]
  exact cleared_block s i st

/-- A slot stands in the change list after a transition just for the change that its new state waits for. -/
theorem moveTo_listed (s : State) (i : SlotId) (st : SlotState) (x : ChangeEntry) (hx : x.slot = i) :
    x ∈ (s.moveTo i st).block.list ↔ (st = .joinWait ∧ x.kind = .join) ∨ (st = .leaveWait ∧ x.kind = .leave) := by
  have hn : x ∉ s.block.list.filter fun x => x.slot ≠ i := fun h => by simpa [hx] using (List.mem_filter.1 h).2
  have hk : ∀ k, x = ⟨i, k⟩ ↔ x.kind = k := fun k => by
    constructor
    · rintro rfl; rfl
    · rintro rfl; rw [← hx]
  rw [moveTo_block]
  cases st <;> simp only [hn, mem_insertChange, hk, or_false, reduceCtorEq, false_and, true_and, false_or]

/-- A slot that has gone to a state other than LIVE and POWERING_DOWN, or from one that ends no observation, reports nothing
to the counter bank. -/
theorem moveTo_counts (s : State) (i : SlotId) (st : SlotState) : (s.moveTo i st).bank =
    (if st = .live ∧ (s.slot i).state = .joinObserve then s.count .joinDone 1
      else if st = .poweringDown ∧ (s.slot i).state = .leaveObserve then s.count .leaveDone 1 else s).bank := by
  have hp : ∀ u : State, (u.takePlace i st).bank = u.bank := fun u => by
    unfold State.takePlace; split <;> first | exact modZone_bank .. | exact modBlock_bank .. | rfl
  have hb : ((s.cleared i st).modSlot i (Slot.enter st s.timers) |>.postSlot .state i).bank = s.bank := by
    rw [postSlot_bank, modSlot_bank]
    have hg : ∀ u : State, (u.groupsFor i st).bank = u.bank := fun u => by
      unfold State.groupsFor; split
      · unfold State.freeGroups; rw [modLane_bank, freeSet_bank]
      · rfl
    have hw : ∀ u : State, (u.powerFor i st).bank = u.bank := fun u => by
      unfold State.powerFor; split
      · rfl
      · unfold State.setReservation; rw [modSlot_bank, modZone_bank]
    have hl : ∀ u : State, (u.lanesFor i st).bank = u.bank := fun u => by
      unfold State.lanesFor; split
      · unfold State.plainLanes; split
        · rfl
        · exact modSlot_bank ..
      · rfl
    have hd : ∀ u : State, (u.discardRegroup i).bank = u.bank := fun u => by
      unfold State.discardRegroup; split
      · rw [modLane_bank, freeSet_bank]
      · rfl
    unfold State.cleared
    rw [hg, hw, hl]
    unfold State.vacate; extract_lets v
    have hv : v.bank = s.bank := by
      unfold v State.dropChange State.freeChannel State.leaveQueue
      rw [modBlock_bank, modZone_bank, modZone_bank]
    split
    · rw [hd, hv]
    · exact hv
  have hc : ∀ (u : State) (k : EventKind), u.bank = s.bank → (u.count k 1).bank = (s.count k 1).bank := fun u k h => by
    unfold State.count Bank.total; rw [h]
  unfold State.moveTo; extract_lets v
  rw [hp]
  unfold State.countMove
  split
  · exact hc _ _ hb
  · split
    · exact hc _ _ hb
    · exact hb

/-! ## Groups -/

theorem heldGroups_of_map {s u : State} (h : u.map = s.map) (j : SlotId) : u.heldGroups j = s.heldGroups j := by
  unfold State.heldGroups; rw [h]

theorem countMove_map (s : State) (a b : SlotState) : (s.countMove a b).map = s.map := by
  unfold State.countMove; split
  · exact count_map ..
  · split
    · exact count_map ..
    · rfl

theorem takePlace_map (s : State) (i : SlotId) (st : SlotState) : (s.takePlace i st).map = s.map := by
  unfold State.takePlace; split <;> first | exact modZone_map .. | exact modBlock_map .. | rfl

/-- A state without groups leaves its slot none (R116). -/
theorem moveTo_groupless (s : State) (i : SlotId) (h : st.groupless = true) : (s.moveTo i st).heldGroups i = 0 := by
  unfold State.moveTo; extract_lets u
  rw [heldGroups_of_map (s := u) (by rw [takePlace_map, countMove_map, postSlot_map, modSlot_map])]
  unfold u State.groupsFor
  rw [if_pos h]
  exact freeGroups_heldGroups ..

theorem moveTo_held (s : State) (i : SlotId) (h : st.groupless = false) (hd : st ≠ .draining) (j : SlotId) :
    (s.moveTo i st).heldGroups j = s.heldGroups j := heldGroups_of_map (moveTo_map _ _ _ h hd) j

/-! ## Queue and channel -/

theorem moveTo_inQueue (h : st ≠ .queued) (hz : ∀ z, z ≠ zoneOf i → ∀ e ∈ (s.zone z).queue, e.slot ≠ i) :
    (s.moveTo i st).inQueue i = false := by
  cases hc : (s.moveTo i st).inQueue i with
  | false => rfl
  | true =>
    obtain ⟨z, e, he, hi⟩ := inQueue_iff.1 hc
    rw [moveTo_queue _ _ _ h] at he
    split at he
    · simpa [hi] using (List.mem_filter.1 he).2
    · next hn => exact absurd hi (hz z hn e he)

/-- A slot in a sound queue that leaves it stands in none. -/
theorem QueueSound.apart (h : s.QueueSound) (i : SlotId) : ∀ z, z ≠ zoneOf i → ∀ e ∈ (s.zone z).queue, e.slot ≠ i :=
  fun z hz e he hi => hz ((h.member z i).1 ⟨e, he, hi⟩).2.symm

/-- A slot that is not QUEUED stands in no sound queue. -/
theorem QueueSound.notIn (h : s.QueueSound) (hs : (s.slot i).state ≠ .queued) : s.inQueue i = false := by
  cases hq : s.inQueue i with
  | false => rfl
  | true =>
    obtain ⟨z, e⟩ := inQueue_iff.1 hq
    exact absurd ((h.member z i).1 e).1 hs

theorem takePlace_precharge (s : State) (i : SlotId) (st : SlotState) (z : ZoneId) :
    ((s.takePlace i st).zone z).precharge = (s.zone z).precharge := by
  unfold State.takePlace State.joinQueue; split
  · rw [modZone_zone]; split
    · next h => rw [h]
    · rfl
  · rw [addChange_zone]
  · rw [addChange_zone]
  · rfl

theorem moveTo_precharge (s : State) (i : SlotId) (st : SlotState) (z : ZoneId) :
    ((s.moveTo i st).zone z).precharge =
      if z = zoneOf i then ((s.zone z).freeFrom i).precharge else (s.zone z).precharge := by
  have hv : ((s.vacate i st).zone z).precharge =
      if z = zoneOf i then ((s.zone z).freeFrom i).precharge else (s.zone z).precharge := by
    have h : ∀ u : State, ((u.discardRegroup i).zone z) = u.zone z := fun u => by
      unfold State.discardRegroup; split
      · rw [modLane_zone, freeSet_zone]
      · rfl
    have hf : ∀ v : Zone, (({ v with queue := v.queue.filter fun e => e.slot ≠ i } : Zone).freeFrom i).precharge =
        (v.freeFrom i).precharge := fun v => by
      unfold Zone.freeFrom
      cases hp : v.precharge with
      | none => exact hp.symm
      | some p =>
        dsimp only
        split
        · rfl
        · exact hp.symm
    unfold State.vacate; extract_lets u
    have hu : (u.zone z).precharge =
        if z = zoneOf i then ((s.zone z).freeFrom i).precharge else (s.zone z).precharge := by
      unfold u State.dropChange State.freeChannel State.leaveQueue
      rw [modBlock_zone]
      by_cases hz : z = zoneOf i
      · rw [hz, modZone_zone_self, modZone_zone_self, if_pos rfl, hf]
      · rw [modZone_zone_ne _ _ _ hz, modZone_zone_ne _ _ _ hz, if_neg hz]
    split
    · rw [h, hu]
    · exact hu
  unfold State.moveTo; extract_lets u
  rw [takePlace_precharge, countMove_zone, postSlot_zone, modSlot_zone]
  unfold u
  rw [groupsFor_zone]
  have hw : ∀ u : State, ((u.powerFor i st).zone z).precharge = (u.zone z).precharge := fun u => by
    unfold State.powerFor; split
    · rfl
    · rw [setReservation_zone]; split <;> rfl
  rw [hw, lanesFor_zone, hv]

/-- A transition frees the channel that its slot held (R88). -/
theorem moveTo_channel (s : State) (i : SlotId) (st : SlotState) (p : Precharge)
    (h : ((s.moveTo i st).zone (zoneOf i)).precharge = some p) : p.holder ≠ i := by
  rw [moveTo_precharge, if_pos rfl] at h
  unfold Zone.freeFrom at h
  split at h
  · split at h
    · exact absurd h (by simp)
    · next q hq hn => rw [hq] at h; cases h; exact hn
  · next hq => rw [hq] at h; exact absurd h (by simp)

/-! ## After the end of the event -/

theorem settle_held (before : State) (j : SlotId) : (before.settle u).heldGroups j = u.heldGroups j :=
  heldGroups_of_map (endOfEvent_settle u before).map j

theorem settle_posted (before : State) {k : SlotNotice} (h : u.posted k i) : (before.settle u).posted k i :=
  (calm_settle u before).posted h

theorem settle_opened (before : State) : (before.settle u).block.opened = u.block.opened := (endOfEvent_settle u before).opened

theorem settle_bank (before : State) : (before.settle u).bank = u.bank := (endOfEvent_settle u before).bank

theorem settle_listed (before : State) {x : ChangeEntry} (h : u.inQueue x.slot = false) :
    x ∈ (before.settle u).block.list ↔ x ∈ u.block.list := (endOfEvent_settle u before).listed x h

/-- The end of the event gives a channel only to a slot that stands in a queue. -/
theorem settle_channel (before : State) (hq : u.inQueue j = false) (z : ZoneId)
    (h : ∀ p, (u.zone z).precharge = some p → p.holder ≠ j) (p : Precharge)
    (hp : ((before.settle u).zone z).precharge = some p) : p.holder ≠ j := by
  let P : State → Prop := fun w => w.inQueue j = false ∧ ∀ p, (w.zone z).precharge = some p → p.holder ≠ j
  have hmove : ∀ (w : State) (k : SlotId) (st : SlotState), st ≠ .queued → P w → P (w.moveTo k st) := fun w k st hs hw => by
    refine ⟨inQueue_mono (fun y e he => ?_) hw.1, fun p hp => ?_⟩
    · rw [moveTo_queue _ _ _ hs] at he
      split at he
      · exact (List.mem_filter.1 he).1
      · exact he
    · rw [moveTo_precharge] at hp
      split at hp
      · unfold Zone.freeFrom at hp
        split at hp
        · split at hp
          · exact absurd hp (by simp)
          · exact hw.2 p hp
        · exact hw.2 p hp
      · exact hw.2 p hp
  have hnote : ∀ (w : State) (k : SlotId), P w → P (w.noteCheckpoint k) := fun w k hw => by
    unfold State.noteCheckpoint; split
    · exact ⟨inQueue_mono (fun y e he => by rwa [postSlot_zone] at he) hw.1, fun p hp => by
        rw [postSlot_zone] at hp; exact hw.2 p hp⟩
    · exact hw
  have hsweep : ∀ (l : List QueueEntry) (w : State), P w →
      P (l.foldl (fun s e => (s.moveTo e.slot .declared).noteCheckpoint e.slot) w) := by
    intro l
    induction l with
    | nil => exact fun _ hw => hw
    | cons e l ih => exact fun w hw => ih _ (hnote _ _ (hmove _ _ _ (by decide) hw))
  have htest : ∀ (w : State) (y : ZoneId), P w → P (w.testHead y) := fun w y hw => by
    unfold State.testHead; split
    · next e l hl _ =>
      have he : e.slot ≠ j := fun hj => by
        have := inQueue_iff.2 ⟨y, e, by rw [hl]; exact List.mem_cons_self .., hj⟩
        rw [hw.1] at this; exact absurd this (by decide)
      unfold State.grantTo; split
      · exact hw
      · next d _ =>
        have hm := hmove w e.slot .precharge (by decide) hw
        generalize w.moveTo e.slot .precharge = v at hm ⊢
        have hr : ∀ x, ((v.setReservation e.slot (reservationFor d.power (w.zone y).margin)).zone x).queue =
            (v.zone x).queue ∧ ((v.setReservation e.slot (reservationFor d.power (w.zone y).margin)).zone x).precharge =
            (v.zone x).precharge := fun x => by
          rw [setReservation_zone]; split <;> exact ⟨rfl, rfl⟩
        generalize v.setReservation e.slot (reservationFor d.power (w.zone y).margin) = r at hr ⊢
        refine ⟨inQueue_mono (fun x a ha => ?_) hm.1, fun p hp => ?_⟩
        · rw [modZone_zone] at ha
          split at ha
          · next hx => rw [hx, ← (hr y).1]; exact ha
          · rwa [(hr x).1] at ha
        · rw [modZone_zone] at hp
          split at hp
          · cases hp; exact he
          · rw [(hr z).2] at hp; exact hm.2 p hp
    · unfold State.setWait
      refine ⟨inQueue_mono (fun x a ha => ?_) hw.1, fun p hp => ?_⟩
      · rw [modZone_zone] at ha
        split at ha
        · next hx => rw [hx]; exact ha
        · exact ha
      · rw [modZone_zone] at hp
        split at hp
        · next hx => rw [← hx] at hp; exact hw.2 p hp
        · exact hw.2 p hp
  have hex : ∀ (w : State) (y : ZoneId), P w → P (w.examineAfter y before) := fun w y hw => by
    unfold State.examineAfter State.examine; split
    · exact htest _ _ (hsweep _ _ hw)
    · exact hw
  have hs : P (before.settle u) := by
    unfold State.settle; extract_lets v
    have hv : P v := hex _ _ (hex _ _ ⟨hq, h⟩)
    split
    · exact ⟨inQueue_mono (fun y e he => by rwa [postShelf_zone] at he) hv.1, fun p hp => by
        rw [postShelf_zone] at hp; exact hv.2 p hp⟩
    · exact hv
  exact hs.2 p hp

theorem settle_inQueue (before : State) (h : u.inQueue j = false) : (before.settle u).inQueue j = false :=
  inQueue_mono (endOfEvent_settle u before).queue h

end Sys2Proof.Machine
end

