-- ==== Sys2Proof/Laws/Params.lean ====
section
/-! SUPPORT. What the parameters of a request are read as: a DECLARE by the fields of Table 11-2, and a list of groups by the
numbers it names. -/

namespace Sys2Proof.Machine

/-! ## A declaration (R48 to R51) -/

/-- Dropping repeats and dropping entries can be done in either order. -/
theorem eraseDups_filter {α : Type} [DecidableEq α] (p : α → Bool) (l : List α) :
    (l.filter p).eraseDups = l.eraseDups.filter p := by
  induction h : l.length using Nat.strong_induction_on generalizing l with
  | _ n ih =>
    cases l with
    | nil => rfl
    | cons a l =>
      have hl : (l.filter fun b => !b == a).length < n := by
        rw [← h]; exact Nat.lt_succ_of_le (List.length_filter_le ..)
      rw [List.eraseDups_cons]
      by_cases hp : p a
      · rw [List.filter_cons_of_pos hp, List.filter_cons_of_pos hp, List.eraseDups_cons, ← ih _ hl _ rfl,
          List.filter_filter, List.filter_filter]
        simp [Bool.and_comm]
      · rw [List.filter_cons_of_neg hp, List.filter_cons_of_neg hp, ← ih _ hl _ rfl, List.filter_filter]
        congr 2
        funext b
        by_cases hb : b = a
        · subst hb; simp [hp]
        · simp [hb]

theorem keepFirst_eq_eraseDups (l : List GroupId) : keepFirst l = l.eraseDups := by
  induction l with
  | nil => rfl
  | cons g l ih =>
    unfold keepFirst
    rw [List.eraseDups_cons, eraseDups_filter, ih]
    congr 1; apply List.filter_congr; intro b _; by_cases h : b = g <;> simp [h]

/-- A byte names a group just where it is 1 to 32, and the group's byte is that byte. -/
theorem groupNumber_some {b : Byte} {g : GroupId} (h : groupNumber? b = some g) :
    (1 ≤ b.toNat ∧ b.toNat ≤ 32) ∧ groupByte g = b := by
  unfold groupNumber? at h
  split at h
  · next k =>
    cases h
    refine ⟨k, BitVec.eq_of_toNat_eq ?_⟩
    unfold groupByte byte; rw [BitVec.toNat_ofNat]
    have := b.isLt
    show (b.toNat - 1 + 1) % 2 ^ 8 = b.toNat
    omega
  · exact absurd h (by simp)

theorem groupNumber_none {b : Byte} (h : groupNumber? b = none) : ¬ (1 ≤ b.toNat ∧ b.toNat ≤ 32) := by
  unfold groupNumber? at h
  split at h
  · exact absurd h (by simp)
  · assumption

theorem groupByte_injective : Function.Injective groupByte := by
  intro a b h
  have := congrArg BitVec.toNat h
  unfold groupByte byte at this
  rw [BitVec.toNat_ofNat, BitVec.toNat_ofNat] at this
  apply Fin.ext
  have := a.isLt; have := b.isLt
  omega

theorem eraseDups_map {α β : Type} [DecidableEq α] [DecidableEq β] {f : α → β} (hf : Function.Injective f) (l : List α) :
    (l.map f).eraseDups = l.eraseDups.map f := by
  induction h : l.length using Nat.strong_induction_on generalizing l with
  | _ n ih =>
    cases l with
    | nil => rfl
    | cons a l =>
      have hl : (l.filter fun b => !b == a).length < n := by
        rw [← h]; exact Nat.lt_succ_of_le (List.length_filter_le ..)
      rw [List.map_cons, List.eraseDups_cons, List.eraseDups_cons, List.map_cons, ← ih _ hl _ rfl, List.filter_map]
      congr 3
      apply List.filter_congr; intro b _
      by_cases hb : b = a
      · subst hb; simp
      · simp [hb, hf.eq_iff]

/-- The bytes of the groups that a list of bytes names are those of it that name a group. -/
theorem filterMap_groupNumber (raw : List Byte) : (raw.filterMap groupNumber?).map groupByte =
    raw.filter fun b => decide (1 ≤ b.toNat ∧ b.toNat ≤ 32) := by
  induction raw with
  | nil => rfl
  | cons b l ih =>
    cases h : groupNumber? b with
    | none => rw [List.filterMap_cons_none h, List.filter_cons_of_neg (by simpa using groupNumber_none h), ih]
    | some g =>
      have k := groupNumber_some h
      rw [List.filterMap_cons_some h, List.map_cons, List.filter_cons_of_pos (by simpa using k.1), ih, k.2]

/-- The repaired preferred list, as bytes: the first `n` distinct group numbers that were sent (R50). -/
theorem repairPreferred_bytes (raw : List Byte) (n : Nat) : (repairPreferred raw n).map groupByte =
    (raw.filter fun b => decide (1 ≤ b.toNat ∧ b.toNat ≤ 32)).eraseDups.take n := by
  unfold repairPreferred
  rw [List.map_take, keepFirst_eq_eraseDups, ← eraseDups_map groupByte_injective, filterMap_groupNumber]

theorem bladeClass_eq_some {b : Byte} {k : BladeClass} : bladeClass? b = some k ↔ b = byte k.code := by
  constructor
  · intro h
    unfold bladeClass? at h
    repeat' split at h
    all_goals first | (cases h; assumption) | exact absurd h (by simp)
  · rintro rfl; cases k <;> decide

theorem repairBulk_eq (c : Nat) : repairBulk c = max 1 (min c 400) := by
  unfold repairBulk; split <;> omega

/-- A DECLARE with its first six bytes is tested by R48, and its fields are read and repaired. -/
theorem declareContent_cons (cls pHi pLo cHi cLo n : Byte) (rest : List Byte) :
    declareContent (cls :: pHi :: pLo :: cHi :: cLo :: n :: rest) =
      if rest.length < 10 then .tooFew
      else
        match bladeClass? cls with
        | none => .unusable
        | some k =>
          if word2 pHi pLo = 0 ∨ 800 < word2 pHi pLo ∨ 8 < n.toNat then .unusable
          else
            let preferred := repairPreferred (rest.drop 10) n.toNat
            .usable ⟨k, word2 pHi pLo, repairBulk (word2 cHi cLo), n.toNat, rest.take 8, (rest.drop 8).take 2, preferred⟩
              (decide (repairBulk (word2 cHi cLo) ≠ word2 cHi cLo ∨ preferred.map groupByte ≠ rest.drop 10)) := rfl

theorem declareContent_short {params : List Byte} (h : params.length < 6) : declareContent params = .tooFew := by
  unfold declareContent; split
  · simp at h; omega
  · rfl

/-- What a DECLARE's parameters are read as is what Table 11-2 and the repairs say. -/
theorem declareContent_iff {params : List Byte} {d : Declaration} {clamped : Bool} :
    declareContent params = .usable d clamped ↔ Declares params d clamped := by
  by_cases hs : params.length < 6
  · rw [declareContent_short hs]
    exact ⟨fun h => absurd h (by simp), fun h => absurd h.enough (by omega)⟩
  obtain ⟨cls, pHi, pLo, cHi, cLo, n, rest, rfl⟩ :
      ∃ cls pHi pLo cHi cLo n rest, params = cls :: pHi :: pLo :: cHi :: cLo :: n :: rest := by
    match params, hs with
    | cls :: pHi :: pLo :: cHi :: cLo :: n :: rest, _ => exact ⟨cls, pHi, pLo, cHi, cLo, n, rest, rfl⟩
    | [], hs | [_], hs | [_, _], hs | [_, _, _], hs | [_, _, _, _], hs | [_, _, _, _, _], hs => simp at hs
  have hg : ∀ l : List GroupId, l.map (fun g => byte (g.val + 1)) = l.map groupByte := fun _ => rfl
  rw [declareContent_cons]
  constructor
  · intro h
    split at h
    · exact absurd h (by simp)
    · next hr =>
      split at h
      · exact absurd h (by simp)
      · next k hk =>
        split at h
        · exact absurd h (by simp)
        · next hp =>
          rw [not_or, not_or] at hp
          cases h
          refine ⟨by simp; omega, ?_, ⟨rfl, ?_, ?_⟩, ?_, ⟨rfl, ?_⟩, rfl, ?_, ?_, ?_⟩
          · show some cls = _; rw [bladeClass_eq_some.1 hk]
          · show 1 ≤ word2 pHi pLo; omega
          · show word2 pHi pLo ≤ 800; omega
          · show repairBulk _ = _; rw [repairBulk_eq]; rfl
          · show n.toNat ≤ 8; omega
          · rfl
          · rw [hg]; exact repairPreferred_bytes ..
          · rw [hg, decide_eq_true_iff]; rfl
  · intro h
    have he : ¬ rest.length < 10 := by have := h.enough; simp at this; omega
    have hc : bladeClass? cls = some d.cls := bladeClass_eq_some.2 (by simpa using h.cls)
    have hp : d.power = word2 pHi pLo := h.power.1
    have hw : d.wanted = n.toNat := h.wanted.1
    have hr := h.power.2
    have hn := h.wanted.2
    have hpre : repairPreferred (rest.drop 10) n.toNat = d.preferred := by
      refine List.map_injective_iff.2 groupByte_injective ?_
      rw [repairPreferred_bytes, ← hw, ← hg d.preferred]
      exact h.preferred.symm
    have hb : repairBulk (word2 cHi cLo) = d.bulk := by rw [repairBulk_eq]; exact h.bulk.symm
    rw [if_neg he, hc]
    dsimp only
    rw [if_neg (by omega), hpre, hb, ← hp, ← hw]
    have hd : decide (d.bulk ≠ word2 cHi cLo ∨ d.preferred.map groupByte ≠ rest.drop 10) = clamped := by
      rw [Bool.eq_iff_iff, decide_eq_true_iff]; exact h.clamped.symm
    have hs : rest.take 8 = d.serial := h.serial.symm
    have hk : (rest.drop 8).take 2 = d.kindCode := h.kindCode.symm
    rw [hd, hs, hk]

/-! ## A list of groups (R112) -/

/-- A list of groups is read as the set that it lists, and any other list as none. -/
theorem groupList_iff {params : List Byte} {gs : GroupSet} : groupList? params = some gs ↔ ListsGroups params gs := by
  have hn : ∀ b, (groupNumber? b).isSome = true ↔ 1 ≤ b.toNat ∧ b.toNat ≤ 32 := fun b => by
    unfold groupNumber?; split <;> simp [*]
  have hm : ∀ g : GroupId, GroupSet.mem (BitVec.ofFnLE fun g : GroupId => decide (groupByte g ∈ params)) g =
      decide (groupByte g ∈ params) := fun g => by simp [GroupSet.mem]
  unfold groupList?
  constructor
  · intro h
    split at h
    · next k =>
      cases h
      obtain ⟨k1, k2, k3, k4⟩ := k
      exact ⟨⟨k1, k2⟩, k3, fun b hb => (hn b).1 (List.all_eq_true.1 k4 b hb), fun g => by rw [hm]; exact decide_eq_true_iff⟩
    · exact absurd h (by simp)
  · intro h
    rw [if_pos ⟨h.length.1, h.length.2, h.distinct, List.all_eq_true.2 fun b hb => (hn b).2 (h.numbers b hb)⟩]
    congr 1
    refine BitVec.eq_of_getLsbD_eq fun k hk => ?_
    have := hm ⟨k, hk⟩
    have h' := h.members ⟨k, hk⟩
    rw [show BitVec.getLsbD gs k = gs.mem (⟨k, hk⟩ : GroupId) from rfl]
    refine Eq.trans this ?_
    rw [Bool.eq_iff_iff, decide_eq_true_iff]; exact h'.symm

end Sys2Proof.Machine
end

