-- ==== Sys2Proof/Laws/Reports.lean ====
section
/-! SUPPORT. What a slot's sample report can do, said once: it is an event on that slot, and which of its steps acts. -/

namespace Sys2Proof.Machine

theorem enterHandles_frame (s : State) (i : SlotId) (moves : List Bool) :
    Local i s (s.enterHandles i moves) ∧ Calm s (s.enterHandles i moves) := by
  induction moves generalizing s with
  | nil => exact ⟨.refl .., .refl ..⟩
  | cons c l ih => exact
    ⟨((local_modSlot ..).trans (local_postSlot ..)).trans (ih _).1, ((calm_modSlot ..).trans (calm_postSlot ..)).trans (ih _).2⟩

theorem local_presenceGained (s : State) (i : SlotId) : Local i s (s.presenceGained i) := by
  unfold State.presenceGained; simp only; split
  · split
    · exact (local_moveTo ..).trans (local_moveTo ..)
    · exact local_moveTo ..
  · split
    · exact local_moveTo ..
    · exact .refl ..
  · exact .refl ..
theorem calm_presenceGained (s : State) (i : SlotId) : Calm s (s.presenceGained i) := by
  unfold State.presenceGained; simp only; split
  · split
    · exact (calm_moveTo ..).trans (calm_moveTo ..)
    · exact calm_moveTo ..
  · split
    · exact calm_moveTo ..
    · exact .refl ..
  · exact .refl ..
theorem local_presenceLost (s : State) (i : SlotId) : Local i s (s.presenceLost i) := by
  unfold State.presenceLost; simp only; split
  · exact local_isolate ..
  · split <;> split <;> first | exact .refl .. | exact local_moveTo ..
theorem calm_presenceLost (s : State) (i : SlotId) : Calm s (s.presenceLost i) := by
  unfold State.presenceLost; simp only; split
  · exact calm_isolate ..
  · split <;> split <;> first | exact .refl .. | exact calm_moveTo ..
theorem actOnHandle_frame (s : State) (i : SlotId) (moves : List Bool) :
    Local i s (s.actOnHandle i moves) ∧ Calm s (s.actOnHandle i moves) := by
  induction moves generalizing s with
  | nil => exact ⟨.refl .., .refl ..⟩
  | cons c l ih =>
    have h := enterHandles_frame s i [c]
    cases c with
    | true => exact ⟨(h.1.trans (local_handleClosed ..)).trans (ih _).1, (h.2.trans (calm_handleClosed ..)).trans (ih _).2⟩
    | false => exact ⟨(h.1.trans (local_handleOpened ..)).trans (ih _).1, (h.2.trans (calm_handleOpened ..)).trans (ih _).2⟩
theorem reportLines_frame (s : State) (i : SlotId) (p : LineReport) :
    Local i s (s.reportLines i p) ∧ Calm s (s.reportLines i p) := by
  unfold State.reportLines; extract_lets r was moves u
  have hu : Local i s u ∧ Calm s u := ⟨local_modSlot .., calm_modSlot ..⟩
  have hl := hu.1.trans (enterHandles_frame u i moves).1
  have hc := hu.2.trans (enterHandles_frame u i moves).2
  split
  · exact ⟨hl.trans (local_presenceGained ..), hc.trans (calm_presenceGained ..)⟩
  · split
    · exact ⟨hl.trans (local_presenceLost ..), hc.trans (calm_presenceLost ..)⟩
    · split
      · exact ⟨hl.trans (local_isolate ..), hc.trans (calm_isolate ..)⟩
      · exact ⟨hu.1.trans (actOnHandle_frame ..).1, hu.2.trans (actOnHandle_frame ..).2⟩
theorem reportPg_frame (s : State) (i : SlotId) (w : Bool) : Local i s (s.reportPg i w) ∧ Calm s (s.reportPg i w) := by
  unfold State.reportPg; simp only; split
  · exact ⟨(local_moveTo ..).trans (local_atPowered ..), (calm_moveTo ..).trans (calm_atPowered ..)⟩
  · split
    · exact ⟨local_postSlot .., calm_postSlot ..⟩
    · exact ⟨.refl .., .refl ..⟩
theorem takeReport_frame (s : State) (i : SlotId) : Local i s (s.takeReport i) ∧ Calm s (s.takeReport i) :=
  ⟨(reportLines_frame ..).1.trans (reportPg_frame ..).1, (reportLines_frame ..).2.trans (reportPg_frame ..).2⟩

/-- The handle changes of a report that brings none of the survey's: at most one, to the level it carries. -/
theorem handleMoves_of {p : LineReport} (h : p.surveyEnd = none) (was : Bool) :
    p.handleMoves was = if p.levels.handleClosed = was then [] else [p.levels.handleClosed] := by
  unfold LineReport.handleMoves; simp [h]

/-- The loss of PG in a report that brings none of the survey's changes. -/
theorem losesPg_of {p : LineReport} (h : p.surveyEnd = none) (was : Bool) :
    p.losesPg was = (was && !p.levels.pg) := by
  unfold LineReport.losesPg; rw [h]

/-- A report that waits is taken, and its event ends. -/
theorem exec_sampleReport {s : State} {i : SlotId} (h : (s.slot i).lines.reportDue = true) :
    exec (.sampleReport i) s = .next (s.settle (s.takeReport i)) := by
  show execSampleReport i s = _; unfold execSampleReport; rw [if_pos h]; rfl

/-- The state once a report's levels have been handed on and its handle changes entered. -/
def State.handedOn (i : SlotId) (p : LineReport) (s : State) : State :=
  (s.modSlot i fun v => { v with lines := v.lines.take p }).enterHandles i
    (p.handleMoves (s.slot i).lines.handed.handleClosed)

/-- What entering handle changes leaves of the slot: the first code if there was one, and the latest (R36). -/
theorem enterHandles_slot (s : State) (i : SlotId) (moves : List Bool) :
    let code : Bool → HandleCode := fun closed => { opened := !closed, state := (s.slot i).state }
    (s.enterHandles i moves).slot i = { s.slot i with
      firstCode := (s.slot i).firstCode.or (moves.head?.map code)
      latestCode := (moves.getLast?.map code).or (s.slot i).latestCode } := by
  induction moves generalizing s with
  | nil => simp [State.enterHandles]
  | cons c l ih =>
    have h := ih ((s.modSlot i (Slot.enterHandle c)).postSlot .handle i)
    simp only [postSlot_slot, modSlot_slot_self] at h
    show ((((s.modSlot i (Slot.enterHandle c)).postSlot .handle i)).enterHandles i l).slot i = _
    rw [h]
    cases l with
    | nil => cases hf : (s.slot i).firstCode <;> simp [Slot.enterHandle, hf]
    | cons d l => cases hf : (s.slot i).firstCode <;> simp [Slot.enterHandle, hf, List.getLast?_cons]

theorem handedOn_slot (s : State) (i : SlotId) (p : LineReport) :
    (s.handedOn i p).slot i = (s.slot i).reportedBy p := by
  unfold State.handedOn; rw [enterHandles_slot]; simp [Slot.reportedBy]

theorem handedOn_frame (s : State) (i : SlotId) (p : LineReport) :
    Local i s (s.handedOn i p) ∧ Calm s (s.handedOn i p) :=
  ⟨(local_modSlot ..).trans (enterHandles_frame ..).1, (calm_modSlot ..).trans (enterHandles_frame ..).2⟩

/-- The first four steps of R35: what acts is the change of presence, then overcurrent, then the handle changes. -/
theorem reportLines_eq (s : State) (i : SlotId) (p : LineReport) : s.reportLines i p =
    let r := s.slot i
    if r.lines.handed.presence.rank < p.levels.presence.rank then (s.handedOn i p).presenceGained i
    else if p.levels.presence.rank < r.lines.handed.presence.rank then (s.handedOn i p).presenceLost i
    else if p.oc ∧ r.state.isPowered then (s.handedOn i p).isolate i .overcurrent
    else (s.modSlot i fun v => { v with lines := v.lines.take p }).actOnHandle i
      (p.handleMoves r.lines.handed.handleClosed) := rfl

/-- The fourth step with no handle change, and with one: entered, and then acting. -/
theorem actOnHandle_nil (s : State) (i : SlotId) : s.actOnHandle i [] = s := rfl
theorem actOnHandle_one (s : State) (i : SlotId) (c : Bool) : s.actOnHandle i [c] =
    if c then (s.enterHandles i [c]).handleClosed i else (s.enterHandles i [c]).handleOpened i := rfl

theorem actOnHandle_two (s : State) (i : SlotId) (a b : Bool) :
    s.actOnHandle i [a, b] = (s.actOnHandle i [a]).actOnHandle i [b] := rfl

/-! ## What the handle does to a slot's record -/

/-- The effect of a handle accepted OPEN on the slot's record (Table 9-1). -/
theorem handleOpened_slot (s : State) (i : SlotId) :
    HandleOpens (s.holdsWindow i) s.timers (s.slot i) ((s.handleOpened i).slot i) := by
  have hp : (s.setRetirePending i .handle).slot i = if (s.slot i).retirePending then s.slot i
      else { s.slot i with retirePending := true, origin := some .handle } := by
    unfold State.setRetirePending; split
    · rfl
    · exact modSlot_slot_self ..
  unfold HandleOpens State.handleOpened
  extract_lets waits
  cases hs : (s.slot i).state <;> dsimp only
  all_goals first
    | rfl
    | exact entered_moveTo ..
    | (rw [modSlot_slot_self, hs])
    | skip
  · split <;> first | rfl | exact hp
  · split
    · rfl
    · split
      · exact hp
      · rw [startDrain_slot_self, ← hs]; exact ⟨entered_moved .., by simp⟩

/-- A slot that goes to DECLARED with no blocking mark or cause is tested for OVERSIZE, and goes on to QUEUED in AUTO where it
passes (R19, R53). -/
theorem toDeclared_slot (s : State) (i : SlotId) {d : Declaration} (hd : (s.slot i).decl = some d)
    (hs : (s.slot i).state ≠ .declared) :
    let z := s.zone (zoneOf i)
    let tooBig := decide (min z.capA z.capB < reservationFor d.power z.margin + inrushFor z.current)
    ∃ y, Entered .declared s.timers { s.slot i with heldMark := false, cause := none, oversize := tooBig } y ∧
      (s.toDeclared i false none).slot i =
        if (s.slot i).policy = .auto ∧ tooBig = false then y.moved .queued s.timers else y := by
  intro z tooBig
  unfold State.toDeclared
  rw [if_pos (by rw [hd]; rfl)]
  generalize hu : (s.moveTo i .declared).modSlot i (fun r => { r with heldMark := false, cause := none }) = u
  have hus : u.slot i = { (s.slot i).moved .declared s.timers with heldMark := false, cause := none } := by
    rw [← hu, modSlot_slot_self, moveTo_slot_self]
  have hc : Calm s u := by rw [← hu]; exact (calm_moveTo ..).trans (calm_modSlot ..)
  have hz : (u.zone (zoneOf i)).quiet = (s.zone (zoneOf i)).quiet := by
    cases zoneOf i
    · exact hc.zone1
    · exact hc.zone2
  have hq : (u.zone (zoneOf i)).ceiling < reservationFor d.power (u.zone (zoneOf i)).margin +
      inrushFor (u.zone (zoneOf i)).current ↔ tooBig = true := by
    have e1 : (u.zone (zoneOf i)).capA = z.capA := (congrArg Zone.capA hz :)
    have e2 : (u.zone (zoneOf i)).capB = z.capB := (congrArg Zone.capB hz :)
    have e3 : (u.zone (zoneOf i)).margin = z.margin := (congrArg Zone.margin hz :)
    have e4 : (u.zone (zoneOf i)).current = z.current := (congrArg Zone.current hz :)
    unfold Zone.ceiling; rw [e1, e2, e3, e4]; exact decide_eq_true_iff.symm
  generalize hv : u.oversizeTest i = v
  have hvs : v.slot i = { (s.slot i).moved .declared s.timers with
      heldMark := false, cause := none, oversize := tooBig } := by
    have hud : (u.slot i).decl = some d := by rw [hus]; simp [hd]
    rw [← hv]; unfold State.oversizeTest; dsimp only; rw [hud]; dsimp only
    rw [modSlot_slot_self, hus]
    congr 1
    rw [Bool.eq_iff_iff, decide_eq_true_iff]; exact hq
  have hvt : v.timers = s.timers := by
    rw [← hv]
    have : (u.oversizeTest i).timers = u.timers := by
      unfold State.oversizeTest; dsimp only; split <;> rfl
    rw [this, hc.timers]
  refine ⟨v.slot i, ?_, ?_⟩
  · rw [hvs]
    have e := entered_moved .declared s.timers (s.slot i)
    exact { e with
      cause := by simp
      heldMark := by simp [hs]
      oversize := by simp
      policy := by simp
      codes := by simp
      target := by simp
      attempts := by simp
      origin := by simp
      decl := by simp
      clamped := by simp
      steering := by simp }
  · unfold State.atDeclared State.autoAdvance
    extract_lets r w
    have hr : r = v.slot i := rfl
    have h1 : r.state = .declared := by rw [hr, hvs]; rfl
    have h2 : r.policy = (s.slot i).policy := by rw [hr, hvs]; exact moved_policy (t := s.timers) ..
    have h3 : r.oversize = tooBig := by rw [hr, hvs]
    have h4 : r.heldMark = false ∧ r.cause = none := by rw [hr, hvs]; exact ⟨rfl, rfl⟩
    have hn : (if (w.slot i).state = .declared then w.noteCheckpoint i else w).slot i = w.slot i := by
      split
      · exact noteCheckpoint_slot ..
      · rfl
    rw [hn]
    by_cases k : (s.slot i).policy = .auto ∧ tooBig = false
    · have hw : w = v.moveTo i .queued :=
        if_pos ⟨h1, h2.trans k.1, h3.trans k.2, h4.1, by simp [h4.2]⟩
      rw [if_pos k, hw, moveTo_slot_self, hvt]
    · have hw : w = v := if_neg fun x => k ⟨h2.symm.trans x.2.1, h3.symm.trans x.2.2.1⟩
      rw [if_neg k, hw]

/-- The effect of a handle accepted CLOSED on the slot's record (Table 9-1). -/
theorem handleClosed_slot (s : State) (i : SlotId) :
    HandleCloses (s.zone (zoneOf i)) s.timers (s.slot i) ((s.handleClosed i).slot i) := by
  unfold HandleCloses State.handleClosed
  dsimp only
  cases hs : (s.slot i).state <;> dsimp only
  all_goals first
    | rfl
    | (split <;> first | rfl | exact entered_moveTo .. | (rw [modSlot_slot_self, hs]))
    | skip
  cases hd : (s.slot i).decl with
  | none =>
    dsimp only
    have : s.toDeclared i false none = s.moveTo i .present := by unfold State.toDeclared; rw [if_neg (by simp [hd])]
    rw [this]; exact entered_moveTo ..
  | some d =>
    obtain ⟨y, hy, he⟩ := toDeclared_slot s i hd (by rw [hs]; exact fun x => nomatch x)
    simp only [hs, hd] at hy
    refine ⟨y, hy, ?_⟩
    rw [he]
    split
    · exact entered_moved ..
    · rfl

theorem reportedBy_state (p : LineReport) (r : Slot) : (r.reportedBy p).state = r.state := rfl
theorem reportedBy_lines (p : LineReport) (r : Slot) : (r.reportedBy p).lines = r.lines.take p := rfl
theorem reported_state (r : Slot) : r.reported.state = r.state := rfl
theorem reported_handed (r : Slot) : r.reported.lines.handed = r.lines.accepted := rfl

/-- Entering a handle change posts a HANDLE notice (R36). -/
theorem enterHandles_posted (s : State) (i : SlotId) {moves : List Bool} (h : moves ≠ []) :
    (s.enterHandles i moves).posted .handle i := by
  cases moves with
  | nil => exact absurd rfl h
  | cons c l =>
    have hp : ((s.modSlot i (Slot.enterHandle c)).postSlot .handle i).posted .handle i := posted_postSlot _ _ _
    exact fun m => (enterHandles_frame _ i l).2.notices m _ _ (hp m)

/-- The fifth step of R35 leaves a slot that has no power, is in PRECHARGE without completing, or has not lost PG. -/
theorem reportPg_of {s : State} {i : SlotId} {w : Bool} (h : s.completes i = false)
    (k : (s.slot i).state.isPowered = false ∨ (s.slot i).state = .precharge ∨ w = false) : s.reportPg i w = s := by
  unfold State.reportPg; dsimp only; rw [if_neg (by simp [h]), if_neg]
  rcases k with k | k | k <;> simp [k]

/-- Outside PRECHARGE the fifth step of R35 can only post a FAULT notice. -/
theorem reportPg_slot {s : State} {i : SlotId} {w : Bool} (h : (s.slot i).state ≠ .precharge) (j : SlotId) :
    (s.reportPg i w).slot j = s.slot j := by
  have hc : s.completes i = false := by
    unfold State.completes; split
    · simp [h]
    · rfl
  unfold State.reportPg; dsimp only; rw [if_neg (by simp [hc])]; split
  · exact postSlot_slot ..
  · rfl

end Sys2Proof.Machine
end

