-- ==== Sys2Proof/Laws/Served.lean ====
section
/-! SUPPORT. How a request of each shape is served: the tests of its port and sender passed, and the port's answer at the end
of its event. -/

namespace Sys2Proof.Machine

variable {r : Request} {s : State} {m : ManagerId} {i : SlotId}

/-- A frame written to the part's address is served: its body, the end of the event, and the port's answer. -/
theorem request_eq (h : Received r s) (b : Body) :
    request r b s = .next ((s.settle (b s).1).replied r ((b s).2 (s.settle (b s).1))) := by
  unfold request atAddress State.serve; rw [if_pos h.addr]; dsimp only; rw [if_pos h.params]; rfl

/-- A transaction with the part's own address has its effect. -/
theorem atAddress_own (p : Port) (e : BusEvent) (f : State → State) (s : State) : atAddress p s.busAddress e f s = f s :=
  if_pos rfl

/-- One with another address is another device's. -/
theorem atAddress_other (p : Port) {a : BitVec 7} (e : BusEvent) (f : State → State) {s : State} (h : a ≠ s.busAddress) :
    atAddress p a e f s = s.elsewhere p e := if_neg h

/-- A START for another device changes nothing of a port that is not receiving. -/
theorem busEvent_startOther (p : Port) {s : State} (h : (s.port p).state ≠ .receiving) : s.busEvent p .startOther = s := by
  unfold State.busEvent
  cases hs : (s.port p).state
  · exact modPort_self s p _ rfl
  · exact absurd hs h
  · rfl
  · exact modPort_self s p _ rfl
  · exact modPort_self s p _ rfl

/-- A transaction with another device breaks off a frame that is being received, once, and leaves the port IDLE as it goes
on without a START of the port's own. -/
theorem elsewhere_receiving (p : Port) {e : BusEvent} {s : State} (h : (s.port p).state = .receiving)
    (k : e = .stop ∨ e = .startOther) : s.elsewhere p e = s.busError p 0 .startOther := by
  have hb : s.busEvent p .startOther = s.busError p 0 .startOther := by unfold State.busEvent; rw [h]; rfl
  have hv : (s.busError p 0 .startOther).port p = ((s.port p).clear .idle).acknowledge [] := by
    unfold State.busError; rw [count_port, modPort_port_self]
    unfold BusPort.writeAcks; rw [h]; rfl
  unfold State.elsewhere; rw [hb]
  rcases k with rfl | rfl
  · unfold State.busEvent; rw [hv]
    exact modPort_self _ p _ (by rw [hv]; rfl)
  · exact busEvent_startOther p (by rw [hv]; exact fun x => nomatch x)

/-- With no frame being received, a transaction with another device does what it goes on with. -/
theorem elsewhere_other (p : Port) (e : BusEvent) {s : State} (h : (s.port p).state ≠ .receiving) :
    s.elsewhere p e = s.busEvent p e := by
  unfold State.elsewhere; rw [busEvent_startOther p h]

/-- A clock stretch keeps everything of the port but the low-tick counts of its lines. -/
theorem stretch_eq (v : BusPort) : v.stretch = { v with clock := v.clock.stretch, data := v.data.stretch } := rfl

theorem settle_self (s : State) : s.settle s = s := settle_of_zones rfl rfl

/-- A refused request changes nothing but its port. -/
theorem request_refuse (h : Received r s) {b : Body} {c : Completion} (hb : b s = refuse c s) :
    request r b s = .next (s.replied r ⟨c, []⟩) := by rw [request_eq h, hb]; simp only [refuse]; rw [settle_self]

theorem sender_managerTag (m : ManagerId) : sender? (managerTag m) = some (.manager m) := by cases m <;> decide

theorem sender_blade (h : r.tag.toNat = 0x11 + i.val) : sender? r.tag = some (.blade i) := by
  have h1 : r.tag ≠ 0x01 := fun e => by rw [e] at h; simp at h; omega
  have h2 : r.tag ≠ 0x02 := fun e => by rw [e] at h; simp at h; omega
  unfold sender?
  rw [if_neg h1, if_neg h2, dif_pos (by have := i.isLt; omega)]
  congr 2; apply Fin.ext; show r.tag.toNat - 0x11 = i.val; omega

theorem slotNumber_of {b : Byte} (h : b.toNat = i.val + 1) : slotNumber? b = some i := by
  unfold slotNumber?
  rw [dif_pos (by have := i.isLt; omega)]
  congr 1; apply Fin.ext; show b.toNat - 1 = i.val; omega

/-- Requests are taken once the survey has ended and the next tick has come. -/
theorem refuses_of {v : Survey} (h : v.running = false ∧ v.closing = false) : v.refuses = false := by
  unfold Survey.refuses; rw [h.1, h.2]; rfl

theorem fromManager_eq (h : FromManager r m s) (b : Bool) (k : ManagerId → Body) : fromManager b r k s = k m s := by
  unfold fromManager; rw [if_neg (by simp [refuses_of h.survey]), h.tag, sender_managerTag]

theorem fromActive_eq (h : FromActive r m s) (k : ManagerId → Body) : fromActive r k s = k m s := by
  unfold fromActive; rw [fromManager_eq h.toFromManager, if_pos h.active]

theorem onShelf_eq (h : ToShelf r m s) (k : Body) : onShelf r k s = k s := by
  unfold onShelf; rw [fromActive_eq h.toFromActive, if_pos h.slot]

theorem readShelfOf_eq (h : ReadsShelf r m s) (k : ManagerId → Body) : readShelfOf r k s = k m s := by
  unfold readShelfOf fromManager; rw [if_neg (by simp), h.tag, sender_managerTag]; simp [h.slot]

theorem onSlot_eq (h : ToSlot r m i s) (k : ManagerId → SlotId → Body) : onSlot r k s = k m i s := by
  unfold onSlot; rw [fromActive_eq h.toFromActive, slotNumber_of h.slot]
  have : steeringAllows (s.slot i) m = true := by
    unfold steeringAllows; rcases h.steering with e | e <;> simp [e]
  dsimp only; rw [if_pos this]

theorem fromBlade_eq (h : FromBlade r i s) (k : SlotId → Body) : fromBlade r k s = k i s := by
  unfold fromBlade; rw [if_neg (by simp [refuses_of h.survey]), sender_blade h.tag]
  dsimp only; rw [if_pos ⟨slotNumber_of h.slot, h.power⟩]

/-- A response in a state that permits it. -/
theorem respond_eq {c : Byte} (h : Responds c r m i s) {permits : List SlotState} (k : ManagerId → SlotId → Body)
    (hr : (s.slot i).state.respondable = true) (hp : (s.slot i).state ∈ permits) : respond c permits r k s = k m i s := by
  unfold respond; rw [onSlot_eq h.toToSlot]; rw [if_neg (by simp [h.code]), if_neg (by simp [hr]), if_neg (by simpa using hp)]

theorem responseCommand_eq {c : Byte} (h : r.params.head? = some c) (b : Body) : responseCommand c r b s = request r b s := by
  unfold responseCommand ofResponse; rw [h]; simp

end Sys2Proof.Machine
end

