-- ==== Sys2Proof/Laws/Whole.lean ====
section
/-! SUPPORT. What the commands that act on the whole part do: the resets, the survey's two events and the tick's own
sampling; and, with them, everything any command can do (`exec_cases`). -/

namespace Sys2Proof.Machine

variable (s : State) (i j : SlotId)

/-! ## Resets and sampling -/

@[simp] theorem powerUp_slot : s.powerUp.slot i = Slot.reset := by
  unfold State.powerUp State.slot State.reset; exact Vector.getElem_replicate _

@[simp] theorem restart_slot : s.restart.slot i = { Slot.reset with latch := (s.slot i).latch } := by
  unfold State.restart State.slot State.setSlots; exact Vector.getElem_map ..

@[simp] theorem sampleAndCount_slot (x : TickInputs) :
    (s.sampleAndCount x).slot i = (s.slot i).tick s.survey.running x.lines[i.val] := by
  unfold State.sampleAndCount; extract_lets surveying first
  exact Vector.getElem_ofFn ..

/-! ## Classification -/

/-- The states the survey can find a slot in. -/
theorem classification_cases (r : Slot) : r.classification = .empty ∨ r.classification = .seating ∨
    r.classification = .present ∨ r.classification = .barred ∨ r.classification = .orphaned := by
  have h : ∀ l : Levels, l.surveyState = .empty ∨ l.surveyState = .seating ∨ l.surveyState = .present := fun l => by
    unfold Levels.surveyState; split
    · exact Or.inl rfl
    · split
      · exact Or.inr (Or.inr rfl)
      · exact Or.inr (Or.inl rfl)
  have k : ∀ l : Levels, l.surveyState = .empty ∨ l.surveyState = .seating ∨ l.surveyState = .present ∨
      l.surveyState = .barred ∨ l.surveyState = .orphaned := fun l => by
    rcases h l with e | e | e
    · exact Or.inl e
    · exact Or.inr (Or.inl e)
    · exact Or.inr (Or.inr (Or.inl e))
  unfold Slot.classification; split
  · exact k _
  · split
    · exact Or.inr (Or.inr (Or.inr (Or.inl rfl)))
    · split
      · exact Or.inr (Or.inr (Or.inr (Or.inr rfl)))
      · exact k _

theorem markFault_slot (b : Bool) : (s.markFault i b).slot j = s.slot j := rfl

/-- The classification of one slot leaves the records of the others. -/
theorem classifySlot_slot_ne (h : j ≠ i) : (s.classifySlot i).slot j = s.slot j := by
  unfold State.classifySlot; extract_lets st drive v u
  rw [count_slot, (local_setReservation _ _ _).slots j h]
  unfold u; rw [markFault_slot, claimSet_slot]
  unfold v; rw [modSlot_slot_ne _ _ _ h, (local_groupsFor _ _ _).slots j h, (local_vacate _ _ _).slots j h]

/-- The record of a slot that has just been classified. -/
theorem classifySlot_slot_self : (s.classifySlot i).slot i =
    { (((s.slot i).vacated (s.slot i).classification).groupsFor (s.slot i).classification).classify s.timers
        (s.surveyMode i) (s.orphanDrive i) with
      reservation := (s.slot i).classification.surveyReservation } := by
  unfold State.classifySlot; extract_lets st drive v u
  rw [count_slot, setReservation_slot_self]
  unfold u; rw [markFault_slot, claimSet_slot]
  unfold v; rw [modSlot_slot_self, groupsFor_slot_self, vacate_slot_self]

/-- All slots are classified, in the order of their numbers. -/
theorem foldl_invariant {α : Type} {P : State → Prop} (f : State → α → State) (l : List α)
    (h : ∀ s, ∀ a ∈ l, P s → P (f s a)) (s : State) (hs : P s) : P (l.foldl f s) := by
  induction l generalizing s with
  | nil => exact hs
  | cons a l ih => exact ih (fun s b hb => h s b (List.mem_cons_of_mem _ hb)) _ (h s a List.mem_cons_self hs)

/-- What holds of every slot once classified holds of all of them after the classification. -/
theorem classified_all {P : Slot → Prop} (h : ∀ (s : State) i, P ((s.classifySlot i).slot i)) (l : List SlotId) (s : State)
    (j : SlotId) (hj : P (s.slot j) ∨ j ∈ l) : P ((l.foldl (fun s i => s.classifySlot i) s).slot j) := by
  induction l generalizing s with
  | nil => exact hj.resolve_right (by simp)
  | cons i l ih =>
    refine ih _ ?_
    by_cases hi : j = i
    · exact Or.inl (hi ▸ h s i)
    · rw [classifySlot_slot_ne _ _ _ hi]
      exact hj.imp_right fun hm => (List.mem_cons.1 hm).resolve_left hi

theorem markClassified_slot : s.markClassified.slot j = s.slot j := rfl

/-- What holds of every slot once classified holds of all after the survey's classification. -/
theorem classifyAll_all {P : Slot → Prop} (h : ∀ (s : State) i, P ((s.classifySlot i).slot i)) :
    P (s.classifyAll.slot j) := by
  unfold State.classifyAll; rw [markClassified_slot]
  exact classified_all h allSlots s j (Or.inr (List.mem_finRange j))

/-! ## The end of the survey -/

@[simp] theorem surveyEnd_slot : s.surveyEnd.slot i = (s.slot i).endSurvey s.timers := by
  unfold State.surveyEnd State.slot State.setSlots; exact Vector.getElem_map ..

theorem effect_postSurvey : Effect s s.postSurvey := by
  unfold State.postSurvey; extract_lets faults feed bus a b c
  have ha : Effect s a := effect_postShelf ..
  have hb : Effect s b := ha.trans (effect_foldl _ (fun u i => by
    split
    · exact effect_postSlot ..
    · exact .refl u) _ a)
  have hc : Effect s c := by
    unfold c; split
    · exact hb.trans (effect_postShelf ..)
    · exact hb
  split
  · exact hc.trans (effect_postShelf ..)
  · exact hc

theorem effect_markDark (z : ZoneId) : Effect s (s.markDark z) :=
  .zone z _ rfl rfl rfl fun h => ⟨h.capA, h.capB, h.margin, h.current⟩

/-! ## Every command -/

/-- What any command can do: a chain of effects; a reset; the survey's classification or its end; or a chain of effects
around the sampling of a tick. -/
theorem exec_cases {c : Instr} {s t : State} (h : exec c s = .next t) :
    Effect s t ∨ t = s.powerUp ∨ (∃ u, Effect s u ∧ t = u.restart) ∨ (s.survey.running = true ∧ t = s.classifyAll) ∨
    (s.survey.running = true ∧ s.survey.classified = true ∧
      ∃ u v, Effect s u ∧ Effect u.surveyEnd v ∧ t = v.stopSurvey) ∨
    ∃ x u, Effect s u ∧ Effect (u.sampleAndCount x) t := by
  cases hc : actsWhole c with
  | false => exact Or.inl (exec_effect s hc h)
  | true =>
    unfold actsWhole at hc
    split at hc
    · change execPowerUp s = _ at h
      cases h; exact Or.inr (Or.inl rfl)
    · change execControllerRestart s = _ at h
      unfold execControllerRestart at h; split at h
      · cases h; exact Or.inl (effect_restartLine s _)
      · cases h; exact Or.inr (Or.inr (Or.inl ⟨s, .refl s, rfl⟩))
    · change execSurveyClassification s = _ at h
      unfold execSurveyClassification at h; split at h
      · next hr => exact Or.inr (Or.inr (Or.inr (Or.inl ⟨hr.1, (Host.Outcome.next.inj h).symm⟩)))
      · cases h; exact Or.inl (.refl _)
    · change execSurveyDone s = _ at h
      unfold execSurveyDone at h; split at h
      · next hr =>
        refine Or.inr (Or.inr (Or.inr (Or.inr (Or.inl ⟨hr.1, hr.2.2, s.takeSurveyTick, _, effect_takeSurveyTick s, ?_,
          (Host.Outcome.next.inj h).symm⟩))))
        exact ((effect_postSurvey _).trans (effect_markDark _ _)).trans (effect_markDark _ _)
      · cases h; exact Or.inl (.refl _)
    · rcases tick_effect s h with h | h | h
      · exact Or.inl h
      · exact Or.inr (Or.inr (Or.inl h))
      · exact Or.inr (Or.inr (Or.inr (Or.inr (Or.inr h))))
    · exact absurd hc (by decide)

end Sys2Proof.Machine
end

