-- ==== Sys2Proof/Laws/Ticks.lean ====
section
/-! SUPPORT. The tick: what the change window block and the counter bank leave as it is when they take theirs, and that an
event which keeps the heads, channels and reserved sums calls for no examination. -/

namespace Sys2Proof.Machine

variable (s : State)

theorem tickBank_eq :
    s.tickBank = { s with bank := s.bank.tick } ∨ s.tickBank = State.postShelf .monitor { s with bank := s.bank.tick } := by
  unfold State.tickBank; extract_lets wrapped u; split
  · exact Or.inr rfl
  · exact Or.inl rfl

@[simp] theorem tickBank_slots : s.tickBank.slots = s.slots := by rcases tickBank_eq s with h | h <;> simp [h]
@[simp] theorem tickBank_map : s.tickBank.map = s.map := by rcases tickBank_eq s with h | h <;> simp [h]
@[simp] theorem tickBank_ref : s.tickBank.ref = s.ref := by rcases tickBank_eq s with h | h <;> simp [h]
@[simp] theorem tickBank_block : s.tickBank.block = s.block := by rcases tickBank_eq s with h | h <;> simp [h]
@[simp] theorem tickBank_timers : s.tickBank.timers = s.timers := by rcases tickBank_eq s with h | h <;> simp [h]
@[simp] theorem tickBank_survey : s.tickBank.survey = s.survey := by rcases tickBank_eq s with h | h <;> simp [h]
@[simp] theorem tickBank_pending : s.tickBank.pending = s.pending := by rcases tickBank_eq s with h | h <;> simp [h]
@[simp] theorem tickBank_bank : s.tickBank.bank = s.bank.tick := by rcases tickBank_eq s with h | h <;> simp [h]
@[simp] theorem tickBank_zone (z : ZoneId) : s.tickBank.zone z = s.zone z := by
  rcases tickBank_eq s with h | h <;> rw [h] <;> cases z <;> rfl

/-- The state as it is handed to the bank at the tick `h`. -/
def State.beforeBank (h : TickInHand) (s : State) : State :=
  ((s.modBlock (WindowBlock.tick h)).count .highwayErrors s.block.errors).count .disturbedMf
    (if s.block.disturbs h then 1 else 0)

theorem takeTick_some {h : TickInHand} (hh : s.block.hand = some h) : s.takeTick = (s.beforeBank h).tickBank := by
  unfold State.takeTick; rw [hh]; rfl

theorem takeTick_none (hh : s.block.hand = none) : s.takeTick = s := by unfold State.takeTick; rw [hh]

@[simp] theorem takeTick_slots : s.takeTick.slots = s.slots := by
  cases h : s.block.hand with
  | none => rw [takeTick_none s h]
  | some t => rw [takeTick_some s h, tickBank_slots]; rfl

@[simp] theorem takeTick_slot (i : SlotId) : s.takeTick.slot i = s.slot i := by
  unfold State.slot; rw [takeTick_slots]

@[simp] theorem takeTick_map : s.takeTick.map = s.map := by
  cases h : s.block.hand with
  | none => rw [takeTick_none s h]
  | some t => rw [takeTick_some s h, tickBank_map]; rfl

@[simp] theorem takeTick_ref : s.takeTick.ref = s.ref := by
  cases h : s.block.hand with
  | none => rw [takeTick_none s h]
  | some t => rw [takeTick_some s h, tickBank_ref]; rfl

@[simp] theorem takeTick_timers : s.takeTick.timers = s.timers := by
  cases h : s.block.hand with
  | none => rw [takeTick_none s h]
  | some t => rw [takeTick_some s h, tickBank_timers]; rfl

@[simp] theorem takeTick_survey : s.takeTick.survey = s.survey := by
  cases h : s.block.hand with
  | none => rw [takeTick_none s h]
  | some t => rw [takeTick_some s h, tickBank_survey]; rfl

@[simp] theorem takeTick_pending : s.takeTick.pending = s.pending := by
  cases h : s.block.hand with
  | none => rw [takeTick_none s h]
  | some t => rw [takeTick_some s h, tickBank_pending]; rfl

@[simp] theorem takeTick_zone (z : ZoneId) : s.takeTick.zone z = s.zone z := by
  cases h : s.block.hand with
  | none => rw [takeTick_none s h]
  | some t =>
    rw [takeTick_some s h, tickBank_zone]; unfold State.beforeBank; rw [count_zone, count_zone, modBlock_zone]

theorem takeTick_block {h : TickInHand} (hh : s.block.hand = some h) : s.takeTick.block = s.block.tick h := by
  rw [takeTick_some s hh, tickBank_block]; rfl

theorem takeTick_list : s.takeTick.block.list = s.block.list := by
  cases h : s.block.hand with
  | none => rw [takeTick_none s h]
  | some t => rw [takeTick_block s h]; rfl

/-- A manager's record after the bank's tick: only a MONITOR notice can be new. -/
theorem takeTick_manager (m : ManagerId) : ∃ n, s.takeTick.manager m = { s.manager m with shelfNotices := n } := by
  cases h : s.block.hand with
  | none => rw [takeTick_none s h]; exact ⟨_, rfl⟩
  | some t =>
    rw [takeTick_some s h]
    rcases tickBank_eq (s.beforeBank t) with e | e <;> rw [e] <;> cases m <;> exact ⟨_, rfl⟩

/-- An event that keeps what calls for an examination posts at most a FEED notice at its end. -/
theorem settle_quiet {before u : State} (h : ∀ z, needsExamination (before.zone z) (u.zone z) = false) :
    before.settle u = u ∨ before.settle u = u.postShelf .feed := by
  unfold State.settle; extract_lets v
  have hv : v = u := by unfold v State.examineAfter; simp [h]
  rw [hv]; split
  · exact Or.inr rfl
  · exact Or.inl rfl

/-- During the survey the end of an event that calls for no examination does nothing. -/
theorem settle_survey {before u : State} (hr : before.survey.running = true)
    (h : ∀ z, needsExamination (before.zone z) (u.zone z) = false) : before.settle u = u := by
  unfold State.settle; extract_lets v
  have hv : v = u := by unfold v State.examineAfter; simp [h]
  rw [hv, if_neg (by simp [hr])]

/-- An event that keeps the heads, the channels and the reserved sums calls for no examination. -/
theorem needsExamination_of {before after : Zone} (hq : after.queue = before.queue)
    (hp : after.precharge.isSome = before.precharge.isSome) (hr : after.reserved = before.reserved) :
    needsExamination before after = false := by
  unfold needsExamination Zone.head
  cases ha : after.precharge <;> cases hb : before.precharge <;> simp_all

theorem darkAfterSurvey_of {z : ZoneId} (h : (s.zone z).darkAtSurveyEnd = false) : s.darkAfterSurvey z = s := by
  unfold State.darkAfterSurvey; rw [if_neg (by simp [h])]

/-- The state as a tick is issued in it, before the blocks sample. -/
def State.beforeSampling (s : State) : State :=
  (s.takeTick.count .budgetWaitMf s.takeTick.budgetWaits).modBlock fun b =>
    { b with hand := some s.takeTick.handTick, grantDue := false, boundaryDue := false }

@[simp] theorem sampleAndCount_zone (x : TickInputs) (z : ZoneId) : (s.sampleAndCount x).zone z =
    ((s.zone z).sampleFeeds (s.survey.running && s.survey.ticks = 0) (match z with | .one => x.feed1A | .two => x.feed2A)
      (match z with | .one => x.feed1B | .two => x.feed2B)).tickPrecharge := by
  cases z <;> rfl

theorem sampleAndCount_dark (x : TickInputs) (z : ZoneId) :
    ((s.sampleAndCount x).zone z).darkAtSurveyEnd = (s.zone z).darkAtSurveyEnd := by
  rw [sampleAndCount_zone]; unfold Zone.tickPrecharge; split <;> rfl

/-- A tick issued with no zone marked by the survey is the sampling and the counting of the blocks. -/
theorem issueTick_of (x : TickInputs) (h : ∀ z, (s.zone z).darkAtSurveyEnd = false) :
    s.issueTick x = s.beforeSampling.sampleAndCount x := by
  have hb : ∀ z, (s.beforeSampling.zone z).darkAtSurveyEnd = false := fun z => by
    unfold State.beforeSampling; rw [modBlock_zone, count_zone, takeTick_zone]; exact h z
  have e : ∀ u : State, (∀ z, (u.zone z).darkAtSurveyEnd = false) → (u.darkAfterSurvey .one).darkAfterSurvey .two = u :=
    fun u hu => by rw [darkAfterSurvey_of u (hu .one), darkAfterSurvey_of u (hu .two)]
  exact e _ fun z => by rw [sampleAndCount_dark]; exact hb z

@[simp] theorem beforeSampling_zone (z : ZoneId) : s.beforeSampling.zone z = s.zone z := by
  unfold State.beforeSampling; rw [modBlock_zone, count_zone, takeTick_zone]

@[simp] theorem beforeSampling_slot (i : SlotId) : s.beforeSampling.slot i = s.slot i := by
  unfold State.beforeSampling; rw [modBlock_slot, count_slot, takeTick_slot]

@[simp] theorem beforeSampling_survey : s.beforeSampling.survey = s.survey := by
  unfold State.beforeSampling; rw [modBlock_survey, count_survey, takeTick_survey]

/-- A zone keeps what calls for an examination as a tick is issued. -/
theorem sampled_needs (v : Zone) (first a b : Bool) :
    needsExamination v ((v.sampleFeeds first a b).tickPrecharge) = false := by
  refine needsExamination_of ?_ ?_ ?_ <;> unfold Zone.tickPrecharge Zone.sampleFeeds <;> dsimp only <;> split <;> simp_all

/-- Outside the survey's first tick a zone's sampling and counting leave its overcommit as it is. -/
theorem overcommitted_sampled (v : Zone) (a b : Bool) :
    ((v.sampleFeeds false a b).tickPrecharge).overcommitted = v.overcommitted := by
  cases hp : v.precharge <;>
    simp [Zone.tickPrecharge, Zone.sampleFeeds, hp, Zone.overcommitted, Zone.deficit, Zone.inrush, Zone.ceff]

/-- The end of the event of a tick does nothing, when no zone is marked by the survey. -/
theorem settle_issueTick (x : TickInputs) (h : ∀ z, (s.zone z).darkAtSurveyEnd = false) (u : State)
    (hz : ∀ z, u.zone z = (s.issueTick x).zone z) : s.settle u = u := by
  have hn : ∀ z, needsExamination (s.zone z) (u.zone z) = false := fun z => by
    rw [hz, issueTick_of s x h, sampleAndCount_zone, beforeSampling_zone]; exact sampled_needs ..
  cases hr : s.survey.running with
  | true => exact settle_survey hr hn
  | false =>
    have ho : ∀ z, overcommitFlips z s u = false := fun z => by
      unfold overcommitFlips
      rw [hz, issueTick_of s x h, sampleAndCount_zone, beforeSampling_zone, beforeSampling_survey, hr, Bool.false_and,
        overcommitted_sampled]
      simp
    unfold State.settle; extract_lets v
    have hv : v = u := by unfold v State.examineAfter; simp [hn]
    rw [hv, ho, ho, if_neg (by simp)]

end Sys2Proof.Machine
end

