-- ==== Sys2Proof/WellFormed.lean ====
section
/-! DEFINITION. Which commands are well formed: those whose operands can stand together on the part's pins and buses. A
command that is not well formed names no event of the part, and the part takes nothing from it. -/

namespace Sys2Proof

/-- A request frame carries at most 24 parameter bytes (Table 11-1). -/
def Request.wellFormed (r : Request) : Bool := decide (r.params.length ≤ 24)

/-- A RESPOND frame of response `c`: its first parameter is `c`, or none of the nine responses (R163). -/
def Request.responds (c : Byte) (r : Request) : Bool :=
  r.wellFormed &&
    match r.params with
    | [] => true
    | b :: _ => b = c || b = 0 || decide (9 < b.toNat)

/-- Whether a command is well formed. -/
def Instr.wellFormed : Instr → Bool
  | .respContinue r => r.responds 1
  | .respHold r => r.responds 2
  | .respReject r => r.responds 3
  | .respRollback r => r.responds 4
  | .respJoin r => r.responds 5
  | .respRetry r => r.responds 6
  | .respRetire r => r.responds 7
  | .respQuiesced r => r.responds 8
  | .respCancel r => r.responds 9
  | .readSlot r | .readZone r | .readShelf r | .readNotices r | .setNoticeMask r | .refresh r | .setZone r
  | .setSlotPolicy r | .assignGroups r | .releaseGroups r | .retire r | .forceRetire r | .adopt r | .unbar r
  | .setObservation r | .setTimers r | .setMonitor r | .readMonitor r | .clearMonitor r | .unfreeze r | .declare r
  | .retireSelf r | .unknownRequest _ r => r.wellFormed
  | .badCheckFrame _ _ bytes _ => wholeFrame bytes && !goodFrame bytes
  | .busError _ _ bytes ev => !wholeFrame bytes && !(bytes.isEmpty && ev = .stop)
  | .powerUp | .controllerRestart | .surveyClassification | .surveyDone | .multiframeTick _ | .sampleReport _
  | .grant _ | .prechargeComplete _ | .prechargeLimitExpiry _ | .feedHealthChange _ | .bayStrapChange _
  | .supervisionTimerExpiry _ | .declareTimerExpiry _ | .drainTimerExpiry _ | .dischargeTimerExpiry _
  | .retryBackoffExpiry _ | .holdoverLimit | .markerArrival _ _ | .syncWindowClose | .highwayError
  | .laneSenseSample _ | .windowGrant | .windowVerdict | .revert | .restore | .undo | .emptyWrite _ _
  | .replyRead _ _ _ | .replyDiscard _ _ _ | .stuckLineReset _ => true

end Sys2Proof
end

