-- ==== Sys2Proof/Tests/Slice0.lean ====
section
/-! SUPPORT. Tests: the well-formedness check refuses an ill-formed command of each kind; a few commands run on small states
with the results the manual gives; and, for every statement of Certificates/Slice0/Obligations.lean that has hypotheses, a
state and operands that meet them together, clause by clause. -/

namespace Sys2Proof.Tests

open Sys2Proof Sys2Proof.Machine

-- The evaluations below are run one after another: side by side they need more memory than the check allows.
set_option Elab.async false

/-! ## Well-formedness -/

/-- A manager A request for the shelf with these parameters. -/
def ask (slot : Byte) (params : List Byte) : Request :=
  { port := .a, addr := 0x38, tag := 0x01, slot := slot, params := params, ending := .hold, delay := 0 }

theorem test_wf_longParams : (Instr.readShelf (ask 0 (List.replicate 25 0))).wellFormed = false := by decide
theorem test_wf_mostParams : (Instr.readShelf (ask 0 (List.replicate 24 0))).wellFormed = true := by decide
theorem test_wf_wrongResponse : (Instr.respContinue (ask 1 [2])).wellFormed = false := by decide
theorem test_wf_response : (Instr.respContinue (ask 1 [1])).wellFormed = true := by decide
theorem test_wf_noResponse : (Instr.respHold (ask 1 [10])).wellFormed = true := by decide
theorem test_wf_goodFrame : (Instr.badCheckFrame .a 0x38 [1, 0, 3, 0, 0xFC] .hold).wellFormed = false := by decide
theorem test_wf_badFrame : (Instr.badCheckFrame .a 0x38 [1, 0, 3, 0, 0xFB] .hold).wellFormed = true := by decide
theorem test_wf_wholeFrame : (Instr.busError .a 0x38 [1, 0, 3, 0, 0xFC] .startRead).wellFormed = false := by decide
theorem test_wf_noFrame : (Instr.busError .a 0x38 [] .stop).wellFormed = false := by decide

/-! ## Small states -/

/-- Every slot state. -/
def slotStates : List SlotState :=
  [.empty, .seating, .present, .declared, .queued, .precharge, .powered, .listen, .joinWait, .joinObserve, .live,
    .reverted, .draining, .leaveWait, .leaveObserve, .poweringDown, .released, .barred, .orphaned]

/-- The shelf after its survey, with 8000 W on each feed and manager A ACTIVE. -/
def shelf : State :=
  { State.reset with
    survey := { running := false, closing := false, ticks := 4, classified := true, faults := 0, heldFeed := false, heldBus := false }
    zone1 := { Zone.reset with capA := 8000, capB := 8000 }
    zone2 := { Zone.reset with capA := 8000, capB := 8000 }
    managerA := { Manager.reset with state := .active, strap := true, bayStrap := true, timer := .running 0 1000 } }

/-- A declaration of 200 W and 100 in bulk capacitance, with two preferred groups. -/
def wish : Declaration :=
  { cls := .line, power := 200, bulk := 100, wanted := 2, serial := List.replicate 8 0, kindCode := [0, 0],
    preferred := [0, 1] }

/-- FULL presence with the handle CLOSED and PG present. -/
def seated : Levels := ⟨true, true, true, true⟩

/-- The handle OPEN, PARTIAL presence, and PG lost. -/
def opened : Levels := ⟨true, true, false, true⟩
def partly : Levels := ⟨true, false, true, true⟩
def unpowered : Levels := ⟨true, true, true, false⟩

/-- A slot at rest in a state, with a report to be taken that brings nothing new. -/
def blade (st : SlotState) : Slot :=
  { Slot.reset with
    state := st, phase := st.firstPhase, decl := some wish, mgmtPower := st.mgmtPower, powerPath := st.powerPath
    reservation := if st.isPowered then 221 else 0
    lines := { accepted := seated, previous := seated, oc := false, handed := seated, reportDue := true, reportOc := false, surveyEnd := none }
    lane := { LaneRecord.reset with
      commanded := st.laneMode.getD .joined, transmit := if st.laneMode = none then 1 else 0 }
    latch := ⟨st.powerPath, st.mgmtPower, st.laneMode.getD .joined, if st.laneMode = none then 1 else 0⟩ }

/-- The precharge record of slot 1 at a sample. -/
def charging (count : Nat) : Precharge := ⟨0, 4, 108, 100, 29, count⟩

/-- What the blocks hold for slot 1 in its state. -/
def placed (s : State) : State :=
  match (s.slot 0).state with
  | .queued => { s with zone1 := { s.zone1 with queue := [⟨0, (s.slot 0).effectivePriority⟩] } }
  | .precharge => { s with zone1 := { s.zone1 with reserved := 221, precharge := some (charging 2) } }
  | .joinWait => s.modBlock fun b => { b with list := [⟨0, .join⟩] }
  | .leaveWait => s.modBlock fun b => { b with list := [⟨0, .leave⟩] }
  | _ => s

/-- The state a command ends in. -/
def after (o : Host.Outcome State Fault Refusal) : Option State :=
  match o with
  | .next t => some t
  | _ => none

/-- The shelf with one slot, slot 1. -/
def one (r : Slot) : State :=
  let s := placed ({ shelf with slots := shelf.slots.set 0 r })
  { s with zone1 := { s.zone1 with reserved := r.reservation } }

/-- A zone with `capacity` W on both feeds, slot 1 among its slots. -/
def capped (capacity : Nat) (s : State) : State := { s with zone1 := { s.zone1 with capA := capacity, capB := capacity } }

/-! ## Invariants of concrete states -/

/-- A slot is in its zone's queue exactly when it is QUEUED, and then once, with its effective priority; each queue stands
in order. -/
def queueCheck (s : State) : Bool :=
  [ZoneId.one, .two].all fun z =>
    (allSlots.all fun i =>
      ((s.zone z).queue.any fun e => e.slot = i) == ((s.slot i).state = .queued && decide (zoneOf i = z))) &&
    decide (((s.zone z).queue.map (·.slot)).Nodup) && decide (((s.zone z).queue.map (·.priority)).Pairwise (· ≤ ·)) &&
    (s.zone z).queue.all fun e => e.priority = (s.slot e.slot).effectivePriority

theorem queueSound_of_check {s : State} (h : queueCheck s = true) : s.QueueSound := by
  have k : ∀ z, (∀ i, ((s.zone z).queue.any fun e => e.slot = i) =
      ((s.slot i).state = .queued && decide (zoneOf i = z))) ∧ ((s.zone z).queue.map (·.slot)).Nodup ∧
      ((s.zone z).queue.map (·.priority)).Pairwise (· ≤ ·) ∧
      ∀ e ∈ (s.zone z).queue, e.priority = (s.slot e.slot).effectivePriority := fun z => by
    have hz := List.all_eq_true.1 h z (by cases z <;> simp)
    simp only [Bool.and_eq_true, decide_eq_true_eq, List.all_eq_true, beq_iff_eq] at hz
    exact ⟨fun i => hz.1.1.1 i (List.mem_finRange i), hz.1.1.2, hz.1.2, hz.2⟩
  refine ⟨fun z i => ?_, fun z => (k z).2.1, fun z => (k z).2.2.2, fun z => (k z).2.2.1⟩
  have e := (k z).1 i
  constructor
  · rintro ⟨x, hx, hi⟩
    have : ((s.zone z).queue.any fun e => e.slot = i) = true := List.any_eq_true.2 ⟨x, hx, by simp [hi]⟩
    rw [this] at e; simpa using e.symm
  · rintro ⟨h1, h2⟩
    have : ((s.zone z).queue.any fun e => e.slot = i) = true := by rw [e]; simp [h1, h2]
    obtain ⟨x, hx, hi⟩ := List.any_eq_true.1 this
    exact ⟨x, hx, by simpa using hi⟩

/-- The change list agrees with the slots' states. -/
def listCheck (s : State) : Bool :=
  let l := s.block.list
  decide ((l.map (·.slot)).Nodup) && (allSlots.all fun i =>
    (decide (⟨i, .join⟩ ∈ l) == decide ((s.slot i).state = .joinWait)) &&
    (decide (⟨i, .leave⟩ ∈ l) == decide ((s.slot i).state = .leaveWait)) &&
    (decide (⟨i, .regroup⟩ ∈ l) == (s.slot i).lane.pending.isSome) &&
    (!(s.slot i).lane.pending.isSome || decide ((s.slot i).state = .live))) &&
    decide (l.Pairwise fun x y => y.kind = .leave → x.kind = .leave)

theorem listSound_of_check {s : State} (h : listCheck s = true) : s.ListSound := by
  unfold listCheck at h
  simp only [Bool.and_eq_true, decide_eq_true_eq, List.all_eq_true, beq_iff_eq, decide_eq_decide, Bool.or_eq_true,
    Bool.not_eq_true'] at h
  have k := fun i => h.1.2 i (List.mem_finRange i)
  refine ⟨h.1.1, fun i => (k i).1.1.1, fun i => (k i).1.1.2, fun i => ?_, fun i hp => ?_, h.2⟩
  · rw [← (k i).1.2]; exact decide_eq_true_iff.symm
  · exact (k i).2.resolve_left (by rw [hp]; simp)

/-- Every slot's record agrees with its state. -/
def slotsCheck (s : State) : Bool :=
  allSlots.all fun i =>
    let r := s.slot i
    decide (r.powerPath = r.state.powerPath ∧ r.mgmtPower = r.state.mgmtPower ∧
      r.phase.isSome = (r.state = .joinObserve || r.state = .leaveObserve) ∧
      (r.phase = some .observeLeave ↔ r.state = .leaveObserve) ∧ (r.declareTimer ≠ .stopped → r.state = .present) ∧
      (r.drainTimer ≠ .stopped → r.state = .draining) ∧ (r.dischargeTimer ≠ .stopped → r.state = .poweringDown) ∧
      (r.backoffTimer ≠ .stopped → r.state = .reverted) ∧
      (s.survey.classified = true → r.latch.power = r.state.powerPath ∧ r.latch.mgmt = r.state.mgmtPower))

theorem slotsSound_of_check {s : State} (h : slotsCheck s = true) : s.SlotsSound := by
  have k := fun i => of_decide_eq_true (List.all_eq_true.1 h i (List.mem_finRange i))
  refine ⟨fun i => ?_, fun hc i => (k i).2.2.2.2.2.2.2.2 hc⟩
  obtain ⟨h1, h2, h3, h4, h5, h6, h7, h8, -⟩ := k i
  exact ⟨h1, h2, h3, h4, h5, h6, h7, h8⟩

/-- The reserved sums agree with the reservations. -/
def bookedCheck (s : State) : Bool :=
  ([ZoneId.one, .two].all fun z => decide ((s.zone z).reserved = s.reservations z)) &&
    allSlots.all fun i => decide ((s.slot i).state.isPowered = false → (s.slot i).reservation = 0)

theorem booked_of_check {s : State} (h : bookedCheck s = true) : s.Booked := by
  unfold bookedCheck at h
  rw [Bool.and_eq_true] at h
  exact ⟨fun z => of_decide_eq_true (List.all_eq_true.1 h.1 z (by cases z <;> simp)),
    fun i => of_decide_eq_true (List.all_eq_true.1 h.2 i (List.mem_finRange i))⟩

/-! ## Witnesses: steps, the survey and the tick -/

/-- A slot record with the levels it is to report: `was` handed on before, `now` accepted. -/
def moved (was now : Levels) (oc : Bool) (r : Slot) : Slot :=
  { r with lines := { r.lines with handed := was, accepted := now, reportOc := oc } }

theorem witness_StepTakesFrontCommand : State.reset.pending = [] := rfl

/-- The shelf with the restart line held or not at the latest tick, and a restart waiting for its release or not. -/
def restarting (held asked : Bool) : State := { shelf with restartLine := ⟨held, asked⟩ }

theorem witness_RestartKeepsLatches (x : TickInputs) : ∀ p ∈ [TickPart.whole x, .issue x],
    (restarting false false).restartLine.held = false ∧ (restarting true false).restartLine.held = true ∧
      (p = .whole x ∨ p = .issue x) ∧ (restarting true true).restartLine.asked = true ∧
      { x with restartHeld := false }.restartHeld = false :=
  fun p hp => ⟨rfl, rfl, by simpa using hp, rfl, rfl⟩

/-- A slot as the survey finds it, with what its latches hold. -/
def found (l : Levels) (oc : Bool) (p : PowerPath) (m : LaneMode) (d : GroupSet) : Slot :=
  { Slot.reset with
    lines := { SlotLines.reset with accepted := l, reportOc := oc }
    lane := { LaneRecord.reset with sensedMode := m, sensedDrive := d }
    latch := ⟨p, p != .off, m, d⟩ }

/-- A survey at its second tick: an empty slot is left out; slots 1 to 3 are without power, slot 4 has an overcurrent,
slots 5 and 6 lost PG, slots 7 and 8 drive groups (with group 1 between them and 9 groups in slot 7), slots 9 to 11 are
ORPHANED without groups, and slot 12 has lost its presence. -/
def surveying : State :=
  let put (s : State) (x : SlotId × Slot) : State := s.setSlots (s.slots.set x.1 x.2)
  [((0 : SlotId), found seated false .off .openMode 0), (1, found ⟨true, true, false, true⟩ false .off .openMode 0),
    (2, found ⟨true, false, true, false⟩ false .off .openMode 0), (3, found seated true .full .joined 3),
    (4, found ⟨true, true, true, false⟩ false .full .openMode 0),
    (5, found ⟨true, true, false, false⟩ false .limited .biased 0),
    (6, found seated false .full .joined 0x1FF), (7, found seated false .full .joined 1),
    (8, found seated false .full .listen 0), (9, found seated false .limited .biased 0),
    (10, found seated false .full .openMode 0), (11, found ⟨true, false, true, true⟩ false .full .joined 4)].foldl put
    { State.reset with survey := { Survey.start with ticks := 2 } }

theorem witness_SurveyClassifiesSlots :
    (surveying.survey.running = true ∧ surveying.survey.ticks = 2 ∧ surveying.survey.classified = false ∧
      surveying.laneDue = false) ∧
    (∀ m ∈ [LaneMode.openMode, .biased, .listen, .joined], ∃ i, let r := surveying.slot i
      r.latch.power ≠ .off ∧ r.lines.accepted.presence = .full ∧ r.lines.reportOc = false ∧
        r.lines.accepted.pg = true ∧ r.lane.sensedMode = m) ∧
    (∃ i, let r := surveying.slot i
      r.latch.power ≠ .off ∧ r.lines.accepted.presence = .full ∧ r.lines.reportOc = true) ∧
    (∃ i, let r := surveying.slot i
      r.latch.power ≠ .off ∧ r.lines.accepted.presence = .full ∧ r.lines.reportOc = false ∧ r.lines.accepted.pg = false) ∧
    (∃ i, (surveying.slot i).latch.power = .off) ∧ ∃ i, (surveying.slot i).lines.accepted.presence ≠ .full := by
  decide +kernel

theorem witness_SurveyRebuildsMap :
    surveying.survey.running = true ∧ surveying.survey.ticks = 2 ∧ surveying.survey.classified = false ∧
      surveying.laneDue = false ∧ ∀ g : GroupId, surveying.map[g.val] = none := by
  decide +kernel

theorem test_classified_states : (after (exec .surveyClassification surveying)).map (fun t =>
    [0, 1, 2, 3, 4, 5, 6, 7, 8, 11, 12].map fun i : SlotId => (t.slot i).state) =
    some [.present, .seating, .seating, .barred, .present, .seating, .orphaned, .orphaned, .orphaned, .seating, .empty] := by
  decide +kernel

theorem test_classified_lanes : (after (exec .surveyClassification surveying)).map (fun t =>
    [6, 7, 8, 9].map fun i : SlotId => ((t.slot i).lane.commanded, (t.slot i).lane.transmit)) =
    some [(.joined, 0xFF), (.listen, 0), (.listen, 0), (.openMode, 0)] := by
  decide +kernel

/-- A survey at its fourth tick, with PRESENT and ORPHANED slots, zone 1 DARK, and FAULT, FEED and BUS notices held back. -/
def surveyed : State :=
  { (one (blade .present)).setSlots ((one (blade .present)).slots.set 1 (blade .orphaned)) with
    survey := { running := true, closing := false, ticks := 4, classified := true, faults := 1, heldFeed := true, heldBus := true }
    zone1 := { Zone.reset with healthA := false, healthB := false } }

theorem witness_SurveyDoneEndsSurvey :
    surveyed.survey.running = true ∧ surveyed.survey.ticks = 4 ∧ surveyed.survey.classified = true ∧
      (surveyed.slot 0).state = .present ∧ (surveyed.zone1.protection = .dark ∧ (surveyed.slot 1).state = .orphaned) ∧
      (∀ stuck changed : Bool,
        let s := { surveyed with
          portA := { surveyed.portA with data := ⟨if stuck then 13 else 12, false⟩ }
          zone2 := { surveyed.zone2 with lineA := ⟨surveyed.zone2.healthA != changed, true⟩ } }
        (s.port .a).stuck = stuck ∧ (s.zone .two).feedChanged = changed) ∧
      (let r := moved seated opened false (blade .present)
       r.lines.accepted ≠ r.lines.handed) ∧
      (surveyed.slot 0).lines.accepted = (surveyed.slot 0).lines.handed := by
  decide +kernel

/-- A tick with every line high: FULL presence, handles OPEN, feeds good, straps there. -/
def tickInputs : TickInputs :=
  { lines := Vector.replicate 16 ⟨true, true, false, true, true⟩, feed1A := true, feed1B := true, feed2A := true,
    feed2B := true, strapA := true, strapB := true, clockLowA := true, dataLowA := false, clockLowB := false,
    dataLowB := false, restartHeld := false }

/-- R180: requests wait for the tick after SURVEY_DONE. -/
theorem test_requests_wait_for_tick :
    let ended := { shelf with survey := { shelf.survey with closing := true } }
    ([ended] ++ (after (exec (.multiframeTick (.whole tickInputs)) ended)).toList).map (fun s =>
      (after (exec (.unfreeze (ask 0 [])) s)).map (·.portA.reply.head?)) = [some (some 0x10), some (some 0)] := by
  decide +kernel

/-- R35, R180: an OC sample of the survey's last ticks and a loss of presence in the first report are a surprise removal. -/
theorem test_presence_before_overcurrent :
    (after (exec (.sampleReport 0) (one (moved seated .noBlade true (blade .orphaned))))).map (fun t =>
      ((t.slot 0).state, t.bank.total .surprise, t.bank.total .overcurrent)) = some (.empty, 1, 0) := by
  decide +kernel

/-- R44, R180: a handle level that stands at SURVEY_DONE alone is handed on by the first report, before its own tick's. -/
theorem test_first_report_after_survey :
    let r := { blade .present with
      decl := none, lines := { (blade .present).lines with surveyEnd := some ⟨true, true, false, true⟩ } }
    (after (exec (.sampleReport 0) (one r))).map (fun t =>
      ((t.slot 0).state, (t.slot 0).firstCode, (t.slot 0).latestCode, (t.slot 0).lines.surveyEnd)) =
    some (.present, some ⟨true, .present⟩, some ⟨false, .released⟩, none) := by
  decide +kernel

/-- A slot with its four timers one tick before their end. -/
def timed : Slot :=
  { blade .present with
    declareTimer := .running 999 1000, drainTimer := .running 499 500, dischargeTimer := .running 7 8
    backoffTimer := .running 63 64 }

theorem witness_TickSamplesSlotLines (x : TickInputs) : ∀ p ∈ [TickPart.whole x, .issue x],
    (p = .whole x ∨ p = .issue x) ∧ ((one timed).restartLine.asked = true → x.restartHeld = true) ∧
      (∀ z, ((one timed).zone z).darkAtSurveyEnd = false) ∧
      (timed.declareTimer = .running 999 1000 ∧ timed.drainTimer = .running 499 500 ∧
        timed.dischargeTimer = .running 7 8 ∧ timed.backoffTimer = .running 63 64) ∧
      (blade .live).declareTimer = .stopped ∧ { timed with drainTimer := .expired }.drainTimer = .expired := by
  intro p hp
  exact ⟨by simpa using hp, nofun, fun z => by cases z <;> rfl, ⟨rfl, rfl, rfl, rfl⟩, rfl, rfl⟩

/-- The shelf in HOLDOVER at its 249th tick, 1950 microseconds after the latest one, with markers in the open window:
one of X that the next window keeps, one of Y that it does not. -/
def drifting : State :=
  { shelf with
    ref := { Reference.reset with
      state := .holdover, holdover := 249, genUs := 1950, sourceX := ⟨some 75, some 75⟩, sourceY := ⟨some 76, some 76⟩ }
    managerA := { shelf.managerA with timer := .running 999 1000 }
    zone1 := { shelf.zone1 with precharge := some (charging 28) }
    portA := { BusPort.reset with clock := ⟨12, false⟩ } }

theorem witness_TickSamplesShelfLines (x : TickInputs) : ∀ s ∈ [State.reset, shelf, drifting],
    ∀ p ∈ [TickPart.whole x, .issue x],
    (p = .whole x ∨ p = .issue x) ∧ (s.restartLine.asked = true → x.restartHeld = true) ∧
      (∀ z, (s.zone z).darkAtSurveyEnd = false) ∧
      (State.reset.survey.running = true ∧ shelf.survey.running = false) ∧
      (shelf.managerA.timer = .running 0 1000 ∧ shelf.managerB.timer = .stopped) ∧
      (shelf.ref.source .x).inWindow = none ∧ (drifting.ref.source .x).inWindow = some 75 := by
  intro s hs p hp
  simp at hs
  refine ⟨by simpa using hp, ?_, fun z => ?_, by decide⟩
  · rcases hs with rfl | rfl | rfl <;> exact nofun
  · rcases hs with rfl | rfl | rfl <;> cases z <;> rfl

theorem test_tick_keeps_edges : (after (exec (.multiframeTick (.whole tickInputs)) drifting)).map (fun t =>
    (t.ref.holdover, (t.ref.source .x).inWindow, (t.ref.source .y).inWindow, t.portA.clock.lowTicks,
      (t.slot 0).lines.reportOc)) = some (250, some 125, none, 13, true) := by
  decide +kernel

/-- An open window of slot 1. -/
def watch (k : ChangeKind) (p : WindowPhase) (observed : Nat) : OpenWindow :=
  { holder := 0, kind := k, phase := p, undoPending := false, age := 65535, window := 16, threshold := 4,
    tolerance := 1, before := 2, after := 3, observed := observed }

/-- The shelf with a tick in hand, the window, a change entry and the error count of the multiframe. -/
def ticking (h : TickInHand) (w : Option OpenWindow) (errors : Nat) : State :=
  shelf.modBlock fun b => { b with
    hand := some h, opened := w, list := [⟨1, .join⟩], errors := errors, history := List.replicate 64 ⟨0, false⟩ }

theorem witness_TickIsHandedWithItsFlags (x : TickInputs) :
    ∀ s ∈ [shelf, ticking ⟨true, true, false⟩ (some (watch .join .revertPending 16)) 4],
      (s.restartLine.asked = true → x.restartHeld = true) ∧ (∀ z, (s.zone z).darkAtSurveyEnd = false) ∧
      shelf.block.hand = none ∧ (ticking ⟨true, true, false⟩ (some (watch .join .revertPending 16)) 4).block.hand ≠ none := by
  intro s hs
  simp only [List.mem_cons, List.not_mem_nil, or_false] at hs
  rcases hs with rfl | rfl <;> exact ⟨nofun, fun z => by cases z <;> rfl, rfl, nofun⟩

/-- R135: a revert that waits as the tick is issued is armed by it, and a join that is observed is not. -/
theorem test_tick_arms_waiting_action :
    [WindowPhase.revertPending, .restorePending, .observeChange].map (fun p =>
      (after (exec (.multiframeTick (.issue tickInputs))
        (shelf.modBlock fun b => { b with opened := some (watch .join p 16) }))).bind fun t => t.block.hand.map (·.armed)) =
    [some true, some true, some false] := by
  decide +kernel

/-- R178: a restart that is asked for while the line is held waits, and takes effect when the line is released. -/
theorem test_restart_waits_for_release :
    (after (exec .controllerRestart (restarting true false))).map (·.survey.running) = some false ∧
      (after (exec (.multiframeTick (.whole tickInputs)) (restarting true true))).map (·.survey.running) =
        some true := by
  decide +kernel

theorem witness_WindowBlockTakesTick : ∀ h ∈ [TickInHand.mk true true true, ⟨true, false, false⟩, ⟨false, false, true⟩],
    ∀ w ∈ [none, some (watch .join .observeChange 15), some (watch .join .observeRevert 0),
        some (watch .join .revertPending 16)], ∀ e ∈ [3, 4, 255],
      (ticking h w e).block.hand = some h ∧ (ticking h w e).block.opened = w ∧ (ticking h w e).block.errors = e := by
  intro h _ w _ e _
  exact ⟨rfl, rfl, rfl⟩

/-- The shelf with a tick in hand and counter 1 at its end, counting the highway errors. -/
def counting (frozen freezeOn : Bool) (mode : CountMode) (invert : Bool) : State :=
  { ticking ⟨true, true, false⟩ none 4 with
    bank := { Bank.reset with
      frozen := frozen, freezeOn := freezeOn
      counters := Bank.reset.counters.set 0
        { Counter.reset .highwayErrors with value := 16777215, mode := mode, threshold := 4, invert := invert } } }

theorem witness_CounterBankTakesTick : ∀ frozen freezeOn invert, ∀ mode ∈ [CountMode.plain, .threshold, .edge],
    (counting frozen freezeOn mode invert).block.hand = some ⟨true, true, false⟩ ∧
      (counting frozen freezeOn mode invert).bank.frozen = frozen ∧
      (counting frozen freezeOn mode invert).bank.counters[0].value = 16777215 := by
  intro frozen freezeOn invert mode _
  exact ⟨rfl, rfl, rfl⟩

theorem test_counter_wraps : (after (exec (.multiframeTick .windowAndBank) (counting false true .plain false))).map
    (fun t => (t.bank.counters[0].value, t.bank.counters[0].overflow, t.bank.frozen)) = some (3, true, true) := by
  decide +kernel

/-! ## Witnesses: sample reports -/

theorem witness_ReportEntersHandleHistory_first : ∀ between ∈ [seated, opened], ∀ now ∈ [seated, opened],
    let r := moved seated now false (blade .present)
    let s := one { r with lines := { r.lines with surveyEnd := some between } }
    (s.slot 0).lines.reportDue = true ∧ (s.slot 0).lines.surveyEnd = some between ∧
      (s.slot 0).lines.accepted = now ∧ (s.slot 0).lines.handed = seated := by
  decide +kernel

/-- A handle that changes twice in a first report in which presence or overcurrent acts. -/
theorem witness_ReportEntersHandleHistory_twice : ∀ st ∈ slotStates, ∀ lost : Bool,
    let now : Levels := if lost then ⟨true, false, true, true⟩ else seated
    let r := moved seated now (!lost) (blade st)
    let s := one { r with lines := { r.lines with surveyEnd := some opened } }
    (s.slot 0).lines.reportDue = true ∧ (s.slot 0).lines.surveyEnd = some opened ∧
      opened.handleClosed ≠ seated.handleClosed ∧ (s.slot 0).lines.accepted.handleClosed = seated.handleClosed ∧
      ((s.slot 0).lines.accepted.presence ≠ (s.slot 0).lines.handed.presence ↔ lost = true) ∧
      (s.slot 0).lines.reportOc = !lost := by
  decide +kernel

theorem witness_ReportEntersHandleHistory : ∀ st ∈ slotStates,
    ((one (moved seated opened false (blade st))).slot 0).lines.reportDue = true ∧ ((one (moved seated opened false (blade st))).slot 0).lines.surveyEnd = none ∧
      opened.handleClosed ≠ seated.handleClosed ∧
      ((one (blade st)).slot 0).lines.reportDue = true ∧ ((one (blade st)).slot 0).lines.surveyEnd = none ∧
      ((one (blade st)).slot 0).lines.accepted = ((one (blade st)).slot 0).lines.handed := by
  decide +kernel

theorem witness_LinesIsolatePoweredSlot_presence : ∀ st ∈ slotStates, ∀ now ∈ [Levels.noBlade, partly],
    (one (moved seated now false (blade st))).QueueSound ∧
      ((one (moved seated now false (blade st))).slot 0).lines.reportDue = true ∧
      now.presence.rank < seated.presence.rank ∧
      ((one (moved seated now false (blade st))).slot 0).state = st := fun st h now k =>
  ⟨queueSound_of_check (by revert st now; decide +kernel), by revert st now; decide +kernel⟩

theorem witness_LinesIsolatePoweredSlot_overcurrent : ∀ st ∈ slotStates.filter (·.isPowered),
    (one (moved seated seated true (blade st))).QueueSound ∧
      let r := (one (moved seated seated true (blade st))).slot 0
      r.lines.reportDue = true ∧ r.lines.accepted.presence = r.lines.handed.presence ∧ r.lines.reportOc = true ∧
        r.state.isPowered = true := fun st h =>
  ⟨queueSound_of_check (by revert st; decide +kernel), by revert st; decide +kernel⟩

theorem witness_PresenceGainSeatsSlot : ∀ st ∈ slotStates.filter (· ≠ .precharge),
    ∀ now ∈ [seated, opened, partly],
      (one (moved .noBlade now false (blade st))).QueueSound ∧
        let r := (one (moved .noBlade now false (blade st))).slot 0
        r.lines.reportDue = true ∧ r.lines.handed.presence.rank < now.presence.rank ∧ r.state ≠ .precharge :=
  fun st h now k => ⟨queueSound_of_check (by revert st now; decide +kernel), by revert st now; decide +kernel⟩

/-- A holder of the window, with a retirement pending or an undo waiting. -/
def holding (undo retire : Bool) (r : Slot) : State :=
  (one { r with
    retirePending := retire, origin := if retire then some .handle else none
    cause := if undo then some .laneMismatch else none
    lane := if undo then { r.lane with commanded := .listen, transmit := 0, comparison := some .transmitOff }
      else r.lane }).modBlock fun b =>
      { b with opened := if undo then none else some (watch .join .observeChange 0) }

/-- A report in which only the handle acts: with the levels `was` handed on, `now` accepted, and at the end of the survey, in
a first report after it, `between`. -/
def turning (was now : Levels) (between : Option Levels) (r : Slot) : Slot :=
  { moved was now false r with lines := { (moved was now false r).lines with surveyEnd := between } }

theorem witness_HandleOpenStartsRemoval :
    (∀ st ∈ slotStates, ∀ now ∈ [(opened, none), (opened, some seated), (seated, some opened)],
      let s := one (turning seated now.1 now.2 (blade st))
      s.QueueSound ∧
        let r := s.slot 0
        r.lines.reportDue = true ∧ r.lines.surveyEnd = now.2 ∧ r.lines.accepted.presence = r.lines.handed.presence ∧
          r.lines.reportOc = false ∧ r.lines.handed.handleClosed = true ∧
          r.lines.accepted.handleClosed = now.1.handleClosed ∧ r.state = st) ∧
    opened.handleClosed = false ∧ seated.handleClosed = true ∧
    ∀ st ∈ [SlotState.joinObserve, .live], ∀ undo retire, ∀ now ∈ [(opened, none), (seated, some opened)],
      let s := holding undo retire (turning seated now.1 now.2 (blade st))
      s.QueueSound ∧ (s.slot 0).lines.reportDue = true ∧ (s.slot 0).lines.surveyEnd = now.2 ∧
        (s.slot 0).undoWait = undo ∧ s.holdsWindow 0 = !undo ∧ (s.slot 0).retirePending = retire :=
  ⟨fun st h now k => ⟨queueSound_of_check (by revert st now; decide +kernel), by revert st now; decide +kernel⟩, rfl, rfl,
    fun st h undo retire now k => ⟨queueSound_of_check (by revert st undo retire now; decide +kernel),
      by revert st undo retire now; decide +kernel⟩⟩

theorem witness_HandleCloseTakesRemovalBack :
    (∀ st ∈ slotStates, ∀ now ∈ [(unpowered, none), (unpowered, some opened), (opened, some seated)],
      let s := one (turning opened now.1 now.2 (blade st))
      s.QueueSound ∧
        let r := s.slot 0
        r.lines.reportDue = true ∧ r.lines.surveyEnd = now.2 ∧ r.lines.accepted.presence = r.lines.handed.presence ∧
          r.lines.reportOc = false ∧ r.lines.handed.handleClosed = false ∧
          r.lines.accepted.handleClosed = now.1.handleClosed ∧ r.state = st) ∧
    unpowered.handleClosed = true ∧ unpowered.pg = false ∧
    (let s := one { moved opened seated false (blade .draining) with origin := some .handle }
     s.QueueSound ∧ (s.slot 0).origin = some .handle) ∧
    (let s := one { moved opened seated false (blade .released) with decl := none }
     s.QueueSound ∧ (s.slot 0).decl = none) ∧
    (∀ c ∈ [329, 328], ∀ p ∈ [Policy.auto, .supervised], ∀ now ∈ [(seated, none), (opened, some seated)],
      let s := capped c (one { turning opened now.1 now.2 (blade .released) with policy := p })
      s.QueueSound ∧ (s.slot 0).lines.reportDue = true ∧ (s.slot 0).decl = some wish ∧ (s.slot 0).policy = p ∧
        (min s.zone1.capA s.zone1.capB < reservationFor wish.power s.zone1.margin + inrushFor s.zone1.current ↔
          c = 328)) ∧
    ∀ st ∈ [SlotState.joinObserve, .live], ∀ undo retire,
      let s := holding undo retire (moved opened seated false (blade st))
      s.QueueSound ∧ (s.slot 0).lines.reportDue = true ∧ (s.slot 0).lines.surveyEnd = none ∧ (s.slot 0).undoWait = undo ∧
        (s.slot 0).retirePending = retire :=
  ⟨fun st h now k => ⟨queueSound_of_check (by revert st now; decide +kernel), by revert st now; decide +kernel⟩, rfl, rfl,
    ⟨queueSound_of_check (by decide +kernel), rfl⟩, ⟨queueSound_of_check (by decide +kernel), rfl⟩,
    fun c h p k now l => ⟨queueSound_of_check (by revert c p now; decide +kernel), by revert c p now; decide +kernel⟩,
    fun st h undo retire => ⟨queueSound_of_check (by revert st undo retire; decide +kernel),
      by revert st undo retire; decide +kernel⟩⟩

/-- R44, R148, R180: in a first report that brings an OPEN and then a CLOSED, a LIVE slot drains and is taken back, and a slot in
POWERING_DOWN stays there; the history holds both codes. -/
theorem test_handle_opens_and_closes : [SlotState.live, .listen].map (fun st =>
    (after (exec (.sampleReport 0) (one (turning seated seated (some opened) (blade st))))).map fun t =>
      ((t.slot 0).state, (t.slot 0).origin, (t.slot 0).firstCode)) =
    [some (.live, none, some ⟨true, .live⟩), some (.poweringDown, none, some ⟨true, .listen⟩)] := by
  decide +kernel

theorem witness_PgLossPostsFault : ∀ st ∈ slotStates.filter (fun st => st.isPowered && st ≠ .precharge),
    ∀ now ∈ [unpowered, seated], ∀ between ∈ [none, some unpowered, some seated],
      let r := (one (turning seated now between (blade st))).slot 0
      r.lines.reportDue = true ∧ r.lines.surveyEnd = between ∧ r.lines.accepted.presence = r.lines.handed.presence ∧
        r.lines.reportOc = false ∧ r.lines.accepted.handleClosed = r.lines.handed.handleClosed ∧
        unpowered.handleClosed = r.lines.handed.handleClosed ∧ seated.handleClosed = r.lines.handed.handleClosed ∧
        r.state.isPowered = true ∧ r.state ≠ .precharge := by
  decide +kernel

theorem witness_PgCompletesPrecharge : ∀ p ∈ [Policy.auto, .supervised], ∀ was ∈ [seated, opened],
    ∀ between ∈ [none, some was],
      let s := one { turning was seated between (blade .precharge) with policy := p }
      let r := s.slot 0
      s.QueueSound ∧ r.lines.reportDue = true ∧ r.lines.surveyEnd = between ∧
        r.lines.accepted.presence = r.lines.handed.presence ∧ r.lines.reportOc = false ∧
        r.lines.accepted.handleClosed = true ∧ r.lines.handed.handleClosed = was.handleClosed ∧ r.state = .precharge ∧
        (s.zone (zoneOf 0)).precharge = some (charging 2) ∧ (charging 2).holder = 0 ∧ 2 ≤ (charging 2).count ∧
        r.lines.accepted.pg = true ∧ r.policy = p := fun p h was k between l =>
  ⟨queueSound_of_check (by revert p was between; decide +kernel), by revert p was between; decide +kernel⟩

/-- R115: of the preferred groups 1 and 2, group 1 is owned by slot 2 and is passed over. -/
theorem test_automatic_assignment :
    let s := one (blade .precharge)
    (after (exec (.prechargeComplete 0) { s with map := s.map.set 0 (some 1) })).map (fun t =>
      ((t.slot 0).state, t.heldGroups 0, t.heldGroups 1)) = some (.joinWait, 2, 1) := by
  decide +kernel

/-! ## Witnesses: admission, feeds and managers -/

/-- A QUEUED slot whose grant just fits: 221 W reserved and 108 W of inrush in 329 W. -/
def fitting : State := { one (blade .queued) with
  zone1 := { (one (blade .queued)).zone1 with capA := 329, capB := 329 } }

theorem witness_GrantStartsPrecharge :
    fitting.QueueSound ∧ fitting.Booked ∧ fitting.zone1.queue = [⟨0, 1⟩] ∧ (fitting.slot 0).decl = some wish ∧
      fitting.zone1.precharge = none ∧ fitting.zone1.admits = true ∧
      fitting.zone1.reserved + reservationFor wish.power fitting.zone1.margin + inrushFor fitting.zone1.current =
        fitting.zone1.ceff :=
  ⟨queueSound_of_check (by decide +kernel), booked_of_check (by decide +kernel), by decide +kernel⟩

theorem test_grant_reserves : (after (exec (.grant .one) fitting)).map (fun t =>
    ((t.slot 0).state, t.zone1.reserved, t.zone1.precharge)) =
    some (.precharge, 221, some ⟨0, 4, 108, 100, 29, 0⟩) := by
  decide +kernel

theorem witness_PrechargeLimitBarsHolder :
    let s := one (blade .precharge)
    let t := { s with zone1 := { s.zone1 with precharge := some (charging 29) } }
    t.QueueSound ∧ (t.zone .one).precharge = some (charging 29) ∧ zoneOf (charging 29).holder = .one ∧
      (charging 29).limit ≤ (charging 29).count :=
  ⟨queueSound_of_check (by decide +kernel), rfl, rfl, by decide⟩

theorem witness_GrantArithmeticInRange :
    ((1 : Nat) ≤ 1 ∧ 1 ≤ 800 ∧ 0 ≤ 64 ∧ 1 ≤ 400 ∧ 2 ≤ 2 ∧ 2 ≤ 16) ∧
      ((1 : Nat) ≤ 800 ∧ 800 ≤ 800 ∧ 64 ≤ 64 ∧ 400 ≤ 400 ∧ 2 ≤ 16 ∧ 16 ≤ 16) := by decide

/-- A shelf whose zone 1 has feed health and accepted lines that can differ. -/
def feeds (healthA healthB lineA lineB : Bool) (s : State) : State :=
  { s with zone1 := { s.zone1 with
    healthA := healthA, healthB := healthB, lineA := ⟨lineA, lineA⟩, lineB := ⟨lineB, lineB⟩ } }

theorem witness_FeedChangeExaminesHead :
    (let s := feeds true true false true (one (blade .queued))
     let u := s.modZone .one fun v => { v with healthA := v.lineA.accepted, healthB := v.lineB.accepted }
     ((s.zone .one).lineA.accepted ≠ (s.zone .one).healthA) ∧ s.survey.running = false ∧
       ((u.zone .one).protection = .dark ↔ (s.zone .one).protection = .dark) ∧ s.QueueSound) ∧
    (let s := feeds true true false true surveying
     (s.zone .one).lineA.accepted ≠ (s.zone .one).healthA ∧ s.survey.running = true) :=
  ⟨⟨by decide, rfl, by decide +kernel, queueSound_of_check (by decide +kernel)⟩, by decide +kernel⟩

theorem witness_DarkZoneIsolatesPoweredSlots : ∀ st ∈ slotStates, ∀ closed d : Bool,
    let s := feeds true false false false (one { moved { seated with handleClosed := closed } seated false (blade st)
      with decl := if d then none else some wish })
    s.QueueSound ∧ s.survey.running = false ∧ (s.zone .one).protection ≠ .dark ∧
      (s.zone .one).lineA.accepted = false ∧ (s.zone .one).lineB.accepted = false ∧ zoneOf 0 = .one ∧
      (s.slot 0).state = st := fun st h closed d =>
  ⟨queueSound_of_check (by revert st closed d; decide +kernel), by revert st closed d; decide +kernel⟩

theorem witness_DarkZoneIsolatesPoweredSlots_first (x : TickInputs) : ∀ p ∈ [TickPart.whole x, .issue x],
    ∀ st ∈ [SlotState.orphaned, .live],
      let s := feeds false false false false (one (blade st))
      let t := { s with zone1 := { s.zone1 with darkAtSurveyEnd := true } }
      (p = .whole x ∨ p = .issue x) ∧ (t.restartLine.asked = true → x.restartHeld = true) ∧ t.QueueSound ∧
        t.survey.running = false ∧ (t.zone .one).darkAtSurveyEnd = true ∧ (t.zone .one).protection = .dark ∧
        zoneOf 0 = .one ∧ (t.slot 0).state.isPowered = true :=
  fun p hp st h => ⟨by simpa using hp, fun k => absurd k (by revert st; decide +kernel),
    queueSound_of_check (by revert st; decide +kernel), by revert st; decide +kernel⟩

/-- R77: the first tick after the survey isolates an ORPHANED slot of a zone that is DARK still. -/
theorem test_first_tick_isolates :
    let s := feeds false false false false (one { blade .orphaned with decl := none })
    (after (exec (.multiframeTick (.whole tickInputs))
      { s with zone1 := { s.zone1 with darkAtSurveyEnd := true } })).map (fun t =>
      ((t.slot 0).state, (t.slot 0).powerPath, t.zone1.darkAtSurveyEnd)) = some (.present, .off, false) := by
  decide +kernel

theorem witness_ZoneLeavingDarkRequeuesSlots :
    let s := feeds false false true false (one { blade .declared with cause := some .zoneDark })
    s.QueueSound ∧ s.survey.running = false ∧ (s.zone .one).protection = .dark ∧
      (s.zone .one).lineA.accepted = true ∧ (s.slot 0).state = .declared ∧ (s.slot 0).cause = some .zoneDark ∧
      (s.slot 0).policy = .auto ∧ (s.slot 0).heldMark = false ∧ (s.slot 0).oversize = false :=
  ⟨queueSound_of_check (by decide +kernel), by decide +kernel⟩

theorem witness_StrapAndTimerSetManager :
    (∀ strap, ∀ st ∈ [ManagerState.absent, .silent, .active, .lapsed],
      let s := shelf.modManager .a fun v => { v with strap := strap, bayStrap := !strap, state := st }
      s.survey.running = false ∧ (s.manager .a).strap ≠ (s.manager .a).bayStrap ∧ (s.manager .a).strap = strap ∧
        (s.manager .a).state = st) ∧
    let s := shelf.modManager .a fun v => { v with timer := .running 1000 1000 }
    (s.manager .a).timer = .running 1000 1000 ∧ 1000 ≤ 1000 := by
  decide +kernel

theorem witness_SlotTimersExpire_waiting : ∀ x ∈ [SlotTimer.stopped, .expired, .running 7 8], ∀ c l,
    ((one { blade .reverted with backoffTimer := x }).slot 0).backoffTimer = .running c l → c < l := by
  intro x h c l e
  have e : x = .running c l := e
  subst e
  simp at h
  omega

theorem witness_SlotTimersExpire :
    (((one { blade .present with declareTimer := .running 1000 1000 }).slot 0).declareTimer = .running 1000 1000 ∧
      ((one { blade .draining with drainTimer := .running 500 500 }).slot 0).drainTimer = .running 500 500) ∧
    (∀ target ∈ [DischargeTarget.released, .declared], ∀ d ∈ [none, some wish],
      let s := one { blade .poweringDown with decl := d, target := target, dischargeTimer := .running 8 8 }
      s.QueueSound ∧ (s.slot 0).dischargeTimer = .running 8 8 ∧ (s.slot 0).target = target ∧ (s.slot 0).decl = d) ∧
    ∀ g ∈ [none, some 0],
      let s := one { blade .reverted with attempts := 1, backoffTimer := .running 64 64 }
      let t := { s with map := s.map.set 0 g }
      t.QueueSound ∧ (t.slot 0).backoffTimer = .running 64 64 ∧ (t.heldGroups 0 ≠ 0 ↔ g = some 0) ∧
        ∀ x ∈ t.block.list, t.inQueue x.slot = false :=
  ⟨⟨rfl, rfl⟩, fun target h d k => ⟨queueSound_of_check (by revert target d; decide +kernel),
      by revert target d; decide +kernel⟩,
    fun g h => ⟨queueSound_of_check (by revert g; decide +kernel), by revert g; decide +kernel⟩⟩

/-! ## Witnesses: the timing reference -/

/-- The shelf with its reference in a state: X marks every multiframe, its latest marker `age` microseconds ago. -/
def steady (st : RefState) (count age : Nat) : State :=
  { shelf with ref := { Reference.reset with
      state := st, selected := if st = .locked ∨ st = .holdover then some .x else none
      acquisition := if st = .acquiring then some .x else none, acqCount := if st = .acquiring then count else 0
      trial := if st = .holdover then count else 0, holdover := if st = .holdover then 249 else 0
      sourceX := ⟨some age, none⟩, sourceY := ⟨none, none⟩, closeDue := true } }

theorem witness_MarkerArrivalByReferenceState_free : ∀ age ∈ [4000, 4001],
    let s := steady .free 0 age
    s.ref.state = .free ∧ s.survey.running = false ∧ s.ref.preferred = .x ∧
      ((∀ a, (s.ref.source s.ref.preferred).markerAge = some a → 32 * 125 < a + 0) ↔ age = 4001) := by
  intro age h
  simp only [List.mem_cons, List.not_mem_nil, or_false] at h
  rcases h with rfl | rfl <;> refine ⟨rfl, rfl, rfl, ?_⟩ <;> simp [steady, Reference.source, Reference.reset]

theorem witness_MarkerArrivalByReferenceState_surveying : surveying.ref.state = .free ∧ surveying.survey.running = true := by
  decide +kernel

theorem witness_MarkerArrivalByReferenceState_acquiring : ∀ count ∈ [0, 6, 7],
    ∀ x ∈ [(1874, 0), (1875, 0), (2000, 0), (0, 2125), (1, 2125)],
      let s := steady .acquiring count x.1
      s.survey.running = false ∧ s.ref.state = .acquiring ∧ s.ref.acquisition = some .x ∧
        (s.ref.source .x).markerAge = some x.1 ∧ s.ref.acqCount = count ∧ s.ref.acquisition ≠ some .y := by
  decide +kernel

theorem witness_MarkerArrivalByReferenceState_kept : ∀ st ∈ [RefState.locked, .holdover],
    ((steady st 0 0).ref.state = .locked ∨ (steady st 0 0).ref.state = .holdover) ∧
      ((steady st 0 0).ref.source .x).inWindow = none ∧
      (16 * 125 ≤ (steady st 0 0).ref.genUs + 1875 + 125 ∧
        ((steady st 0 0).ref.closeDue = true ∧ (steady st 0 0).ref.tickUs + 125 ≤ 125) ∧
        ¬ (16 * 125 ≤ (steady st 0 0).ref.genUs + 1000 + 125 ∨
          ((steady st 0 0).ref.closeDue = true ∧ (steady st 0 0).ref.tickUs + 1000 ≤ 125))) ∧
      let t := { steady st 0 0 with ref := { (steady st 0 0).ref with sourceX := ⟨some 3, some 3⟩ } }
      (t.ref.source .x).inWindow = some 3 := by
  decide +kernel

theorem test_eighth_marker_locks : (after (exec (.markerArrival .x 2000) (steady .acquiring 7 0))).map
    (fun t => (t.ref.state, t.ref.selected, t.ref.genUs)) = some (.locked, some .x, 0) := by
  decide +kernel

theorem witness_WindowCloseTrimsOrHolds : ∀ marked : Bool, ∀ count ∈ [6, 7],
    (let s := steady .locked 0 0
     let t := { s with ref := { s.ref with sourceX := ⟨some 3, if marked then some 3 else none⟩ } }
     t.ref.closeDue = true ∧ t.ref.selected = some .x ∧ t.ref.state = .locked ∧
       (t.ref.source .x).inWindow = if marked then some 3 else none) ∧
    let s := steady .holdover count 0
    let t := { s with ref := { s.ref with sourceY := ⟨some 3, if marked then some 3 else none⟩ } }
    t.ref.closeDue = true ∧ t.ref.selected = some .x ∧ t.ref.state = .holdover ∧ t.ref.holdover < 250 ∧
      t.ref.trial = count ∧ (t.ref.source (Source.other .x)).inWindow = if marked then some 3 else none := by
  decide +kernel

theorem witness_ReferenceFallsFree :
    (let s := steady .holdover 0 0
     let t := { s with ref := { s.ref with holdover := 250 } }
     t.ref.state = .holdover ∧ 250 ≤ t.ref.holdover) ∧
    let s := steady .acquiring 0 3876
    s.ref.closeDue = true ∧ s.ref.state = .acquiring ∧ s.ref.acquisition = some .x ∧
      (∀ a, (s.ref.source .x).markerAge = some a → 32 * 125 < a + (125 - s.ref.tickUs)) := by
  refine ⟨by decide +kernel, rfl, rfl, rfl, fun a h => ?_⟩
  cases h
  decide

/-! ## Witnesses: lane sense and the change window -/

/-- A slot that commands JOINED on group 1, with a switching to compare. -/
def switched (st : SlotState) (k : Option SwitchKind) (boundary undo hold running : Bool) : State :=
  let r := blade st
  let s := one { r with
    cause := if undo then some .laneMismatch else none
    lane := { r.lane with
      commanded := if undo then .listen else .joined, transmit := if undo then 0 else 1, comparison := k
      atBoundary := boundary } }
  { s with
    laneDue := true, survey := { s.survey with running := running }
    block := { s.block with opened := if hold then some (watch .join .observeChange 0) else none } }

theorem witness_LaneSenseComparesSwitchings : ∀ st ∈ [SlotState.joinObserve, .live, .leaveObserve],
    ∀ k ∈ [none, some SwitchKind.transmitOn, some .transmitOff, some .plain], ∀ boundary undo hold running : Bool,
      let s := switched st k boundary undo hold running
      s.laneDue = true ∧ s.inQueue 0 = false ∧ (s.slot 0).lane.comparison = k ∧
        (s.slot 0).lane.atBoundary = boundary ∧ (s.slot 0).undoWait = (undo && st != .leaveObserve) ∧
        s.holdsWindow 0 = hold ∧ s.survey.running = running ∧ (s.slot 0).state.isPowered = true := by
  decide +kernel

theorem witness_LaneSenseComparesSwitchings_queued : ∀ k ∈ [none, some SwitchKind.plain], ∀ big : Bool,
    let s := switched .queued k false false false false
    let t := s.modSlot 0 fun r => { r with oversize := big }
    t.laneDue = true ∧ t.inQueue 0 = true ∧ (t.slot 0).lane.comparison = k ∧ (t.slot 0).lane.atBoundary = false ∧
      t.survey.running = false ∧ (t.slot 0).state.isPowered = false := by
  decide +kernel

/-- The shelf at a valid boundary, with slot 1 first in the change list. -/
def listed (k : ChangeKind) : State :=
  let s := match k with
    | .join => one (blade .joinWait)
    | .leave => one (blade .leaveWait)
    | .regroup =>
      (one { blade .live with lane := { (blade .live).lane with pending := some 3 } }).modBlock fun b => { b with
        list := [⟨0, .regroup⟩] }
  { s.modBlock fun b => { b with grantDue := true } with ref := { s.ref with closeDue := true } }

theorem witness_WindowGrantAppliesChange : ∀ k ∈ [ChangeKind.join, .leave, .regroup],
    (listed k).SlotsSound ∧ (listed k).QueueSound ∧ (listed k).ListSound ∧ (listed k).block.list = ⟨0, k⟩ :: [] ∧
      (listed k).ref.closeDue = true ∧ (listed k).block.grantDue = true ∧ (listed k).block.opened = none ∧
      (k = .regroup → ((listed k).slot 0).lane.pending = some 3) := fun k h =>
  ⟨slotsSound_of_check (by revert k; decide +kernel), queueSound_of_check (by revert k; decide +kernel),
    listSound_of_check (by revert k; decide +kernel), by revert k; decide +kernel⟩

/-- Slot 1 holding the window in a kind and a phase, with `after` marks, attempts and a retirement pending or not. -/
def observing (k : ChangeKind) (p : WindowPhase) (undo : Bool) (after attempts : Nat) (retire : Bool) : State :=
  let r := blade k.observedState
  let s := one { r with
    retirePending := retire, attempts := attempts
    lane := { r.lane with restore := if k = .regroup then some 2 else none } }
  { s.modBlock fun b => { b with
      boundaryDue := true, opened := some { watch k p 16 with after := after, undoPending := undo } } with
    ref := { s.ref with closeDue := true } }

theorem witness_VerdictActsByKind :
    ∀ x ∈ [(ChangeKind.join, WindowPhase.observeChange), (.join, .observeRevert), (.regroup, .observeChange),
        (.leave, .observeChange)], ∀ undo retire : Bool, ∀ after ∈ [3, 4], ∀ attempts ∈ [1, 2],
      let s := observing x.1 x.2 undo after attempts retire
      let w := { watch x.1 x.2 16 with after := after, undoPending := undo }
      s.SlotsSound ∧ s.QueueSound ∧ s.block.opened = some w ∧ w.window ≤ w.observed ∧
        (s.slot w.holder).state = w.kind.observedState ∧ (w.before + w.tolerance < w.after ↔ after = 4) ∧
        (s.slot w.holder).attempts = attempts ∧ (s.slot w.holder).retirePending = retire :=
  fun x h undo retire after k attempts l =>
    ⟨slotsSound_of_check (by revert x undo retire after attempts; decide +kernel),
      queueSound_of_check (by revert x undo retire after attempts; decide +kernel),
      by revert x undo retire after attempts; decide +kernel⟩

theorem test_disturbed_join_waits_for_revert :
    (after (exec .windowVerdict (observing .join .observeChange false 4 0 false))).map (fun t =>
      ((t.slot 0).state, (t.slot 0).phase, t.block.lastVerdict)) =
    some (.joinObserve, some .revertPending, some .disturbed) := by
  decide +kernel

theorem test_third_attempt_bars :
    (after (exec .windowVerdict (observing .join .observeRevert false 3 2 false))).map (fun t =>
      ((t.slot 0).state, (t.slot 0).cause)) = some (.barred, some .attempts) := by
  decide +kernel

theorem witness_BoundaryActionsSwitchBack_closed : shelf.ref.closeDue = false := rfl

/-- R108: a revert whose boundary passed with no marker waits. -/
theorem test_revert_waits_in_holdover :
    let s := observing .join .revertPending false 3 0 false
    let t := { s with ref := { s.ref with state := .locked, selected := some .x, genUs := 0, tickUs := 0 } }
    ((after (exec .syncWindowClose t)).bind fun u => after (exec .revert u)).map (fun u =>
      (u.ref.state, (u.slot 0).phase, u.block.opened.map (·.phase))) =
    some (.holdover, some .observeJoin, some .revertPending) := by
  decide +kernel

theorem witness_BoundaryActionsSwitchBack : ∀ retire : Bool,
    ∀ x ∈ [(ChangeKind.join, WindowPhase.revertPending, false), (.regroup, .restorePending, false),
        (.join, .donePending, true), (.regroup, .observeChange, true)],
      let s := observing x.1 x.2.1 x.2.2 3 0 retire
      let w := { watch x.1 x.2.1 16 with after := 3, undoPending := x.2.2 }
      s.SlotsSound ∧ s.QueueSound ∧ s.block.opened = some w ∧ s.ref.closeDue = true ∧ s.block.boundaryDue = true ∧
        (s.slot w.holder).state = w.kind.observedState ∧
        (x.1 = .regroup → (s.slot w.holder).lane.restore = some 2) :=
  fun retire x h =>
    ⟨slotsSound_of_check (by revert retire x; decide +kernel), queueSound_of_check (by revert retire x; decide +kernel),
      by revert retire x; decide +kernel⟩

/-! ## Witnesses: requests -/

/-- A frame for the shelf, its parameters within 24. -/
def receivedCheck (r : Request) (s : State) : Bool := decide (r.addr = s.busAddress ∧ r.params.length ≤ 24)

theorem received_of_check {r : Request} {s : State} (h : receivedCheck r s = true) : Received r s :=
  have k := of_decide_eq_true h
  ⟨k.1, k.2⟩

/-- A request of the ACTIVE manager A for slot 1 that meets the steering test. -/
def slotCheck (r : Request) (s : State) : Bool :=
  receivedCheck r s && decide (r.tag = managerTag .a ∧ (s.survey.running = false ∧ s.survey.closing = false) ∧ (s.manager .a).state = .active ∧
    r.slot = 1 ∧ ((s.slot 0).steering = none ∨ (s.slot 0).steering = some .a))

theorem toSlot_of_check {r : Request} {s : State} (h : slotCheck r s = true) : ToSlot r .a 0 s := by
  unfold slotCheck at h
  simp only [Bool.and_eq_true, decide_eq_true_eq] at h
  obtain ⟨h1, h2, h3, h4, h5, h6⟩ := h
  exact ⟨⟨⟨⟨received_of_check h1, h2, h3⟩, h4⟩, by rw [h5]; rfl⟩, h6⟩

theorem responds_of_check {c : Byte} {r : Request} {s : State} (h : slotCheck r s = true)
    (hc : r.params.head? = some c) : Responds c r .a 0 s := ⟨toSlot_of_check h, hc⟩

/-- A request of the ACTIVE manager A for the shelf. -/
def shelfCheck (r : Request) (s : State) : Bool :=
  receivedCheck r s && decide (r.tag = managerTag .a ∧ (s.survey.running = false ∧ s.survey.closing = false) ∧ (s.manager .a).state = .active ∧
    r.slot = 0)

theorem toShelf_of_check {r : Request} {s : State} (h : shelfCheck r s = true) : ToShelf r .a s := by
  unfold shelfCheck at h
  simp only [Bool.and_eq_true, decide_eq_true_eq] at h
  obtain ⟨h1, h2, h3, h4, h5⟩ := h
  exact ⟨⟨⟨received_of_check h1, h2, h3⟩, h4⟩, h5⟩

/-- A request of the blade in slot 1. -/
def tell (params : List Byte) : Request :=
  { port := .b, addr := 0x38, tag := 0x11, slot := 1, params := params, ending := .hold, delay := 0 }

/-- The blade of slot 1 has management power, and the frame is its own. -/
def bladeCheck (r : Request) (s : State) : Bool :=
  receivedCheck r s && decide (r.tag.toNat = 0x11 ∧ r.slot = 1 ∧ (s.survey.running = false ∧ s.survey.closing = false) ∧
    (s.slot 0).mgmtPower = true)

theorem fromBlade_of_check {r : Request} {s : State} (h : bladeCheck r s = true) : FromBlade r 0 s := by
  unfold bladeCheck at h
  simp only [Bool.and_eq_true, decide_eq_true_eq] at h
  obtain ⟨h1, h2, h3, h4, h5⟩ := h
  exact ⟨received_of_check h1, h2, by rw [h3]; rfl, h4, h5⟩

theorem witness_ReadsAnswerFromRecords :
    (∀ ps ∈ [[], [(1 : Byte)], [2]], Received (ask 1 ps) (one (blade .live)) ∧ (ask 1 ps).tag = managerTag .a ∧
      (ask 1 ps).slot.toNat = (0 : SlotId).val + 1) ∧
    (∀ ps ∈ [[], [(1 : Byte)], [2]], Received (tell ps) (one (blade .live)) ∧
      (tell ps).tag.toNat = 0x11 + (0 : SlotId).val ∧ (tell ps).slot.toNat = (0 : SlotId).val + 1 ∧
      ((one (blade .live)).slot 0).mgmtPower = true ∧ ((one (blade .live)).slot 0).decl = some wish) ∧
    ∀ ps ∈ [[], [(1 : Byte)], [2], [3]], ReadsShelf (ask 0 ps) .a shelf :=
  ⟨fun ps h => ⟨received_of_check (by revert ps; decide +kernel), rfl, rfl⟩,
    fun ps h => ⟨received_of_check (by revert ps; decide +kernel), rfl, rfl, rfl, rfl⟩,
    fun ps h => ⟨received_of_check (by revert ps; decide +kernel), rfl, rfl⟩⟩

theorem witness_ReadsAnswerFromRecords_window :
    (∀ d, ((one (blade .live)).slot 0).decl = some d → d = wish) ∧ shelf.block.opened = none ∧ shelf.block.history = [] ∧
    (observing .join .observeChange false 3 0 false).block.opened = some { watch .join .observeChange 16 with after := 3 } ∧
    (ticking ⟨true, true, false⟩ none 4).block.history = ⟨0, false⟩ :: List.replicate 63 ⟨0, false⟩ := by
  refine ⟨fun d h => ?_, rfl, rfl, rfl, rfl⟩
  cases h
  rfl

/-- R100, R106: presence is judged at the read, 32 frames after the latest marker. -/
theorem test_presence_at_read : [0, 100, 101].map (fun d => (readShelfData d (steady .locked 0 3900))[7]?) =
    [some 1, some 1, some 0] := by
  decide +kernel

theorem witness_NoticesAreCollected : ∀ ps ∈ [[], [(0 : Byte), 0], [15, 255]],
    ReadsShelf (ask 0 ps) .a shelf ∧ FromManager (ask 0 ps) .a shelf ∧ (ask 0 ps).slot = 0 ∧ (15 : Byte).toNat < 16 :=
  fun ps h => ⟨⟨received_of_check (by revert ps; decide +kernel), rfl, rfl⟩,
    ⟨received_of_check (by revert ps; decide +kernel), rfl, rfl, rfl⟩, rfl, by decide⟩

theorem witness_SettingsAreWritten :
    (∀ ps ∈ [[], [(0x00 : Byte), 0xFA, 0x01, 0xF4, 8], [0x0F, 0xA0, 0xEA, 0x60, 255], [0x0F, 0xA1, 0xEA, 0x60, 255],
        [4, 1, 0], [64, 255, 255], [65, 1, 0]], ToShelf (ask 0 ps) .a shelf) ∧
    ((0x00 : Byte).toNat * 256 + (0xFA : Byte).toNat = 250 ∧ (0x0F : Byte).toNat * 256 + (0xA0 : Byte).toNat = 4000 ∧
      (0x01 : Byte).toNat * 256 + (0xF4 : Byte).toNat = 500 ∧ (0xEA : Byte).toNat * 256 + (0x60 : Byte).toNat = 60000) :=
  ⟨fun ps h => toShelf_of_check (by revert ps; decide +kernel), by decide⟩

theorem witness_MonitorRequestsSetBank : ∀ k : Fin 4, ∀ mode ∈ [CountMode.plain, .threshold, .edge],
    ∀ freeze : Bool,
      let ps : List Byte := [byte (k.val + 1), byte (EventKind.overcurrent.index.val + 1), byte mode.code, 255,
        byte (flagBit true 0), byte (flagBit freeze 0)]
      ToShelf (ask 0 ps) .a shelf ∧ ToShelf (ask 0 [(0xF : BitVec 4).setWidth 8]) .a shelf ∧
        ToShelf (ask 0 []) .a shelf ∧ (255 : Byte) ≠ 0 ∧ (0xF : BitVec 4) ≠ 0 :=
  fun k mode h freeze => ⟨toShelf_of_check (by revert k mode freeze; decide +kernel),
    toShelf_of_check (by decide +kernel), toShelf_of_check (by decide +kernel), by decide, by decide⟩

theorem witness_RefreshAndAdoptSupervise :
    (∀ st ∈ [ManagerState.silent, .active, .lapsed], ∀ p ∈ [none, some 4000],
      let s := shelf.modManager .a fun v => { v with state := st, pendingPhase := p }
      ∀ ps ∈ [[(1 : Byte), 0, 125], [1, 0x0F, 0xA0], [2]],
        FromManager (ask 0 ps) .a s ∧ (ask 0 ps).slot = 0 ∧ (s.manager .a).state ≠ .absent ∧
          (s.manager .a).pendingPhase = p) ∧
    ∀ st ∈ slotStates.filter (·.adoptable), ∀ m ∈ [none, some ManagerId.a],
      ToSlot (ask 1 []) .a 0 (one { blade st with steering := m }) ∧ st.adoptable = true :=
  ⟨fun st h p k ps l => ⟨⟨received_of_check (by revert st p ps; decide +kernel), rfl, rfl, rfl⟩, rfl,
      by revert st p ps; decide +kernel⟩,
    fun st h m k => ⟨toSlot_of_check (by revert st m; decide +kernel), by revert st; decide⟩⟩

/-- The parameters of a SET_ZONE of zone 1: both capacities `hi`·256 + `lo`, the margin 26 and the current 4. -/
def zoneAsk (hi lo : Byte) : Request := ask 0 [zoneByte .one, hi, lo, hi, lo, 26, 4, byte (flagBit false 0)]

theorem witness_ZoneSettingIsTaken :
    (∀ r ∈ [zoneAsk 0x1F 0x40, zoneAsk 1 0x49, zoneAsk 1 0x48], ToShelf r .a shelf) ∧
    ∀ st ∈ slotStates, ∀ big : Bool, let s := one { blade st with oversize := big }
      ToShelf (zoneAsk 1 0x48) .a s ∧ s.QueueSound ∧ (s.slot 0).decl = some wish ∧ (s.slot 0).oversize = big :=
  ⟨fun r h => toShelf_of_check (by revert r; decide +kernel),
    fun st h big => ⟨toShelf_of_check (by revert st big; decide +kernel),
      queueSound_of_check (by revert st big; decide +kernel), by revert st big; decide +kernel⟩⟩

theorem witness_PolicyActsAtCheckpoints :
    (∀ st ∈ slotStates, ∀ old ∈ [Policy.auto, .supervised], ∀ ps ∈ [[(0 : Byte), 255], [1, 0], [0, 3]],
      let s := one { blade st with policy := old }
      ToSlot (ask 1 ps) .a 0 s ∧ s.QueueSound ∧ (s.slot 0).policy = old ∧ (s.slot 0).override = none) ∧
    policy? 0 = some .auto ∧ policy? 1 = some .supervised ∧ override? 255 = some none ∧ override? 0 = some (some 0) ∧
    override? 3 = some (some 3) :=
  ⟨fun st h old k ps l => ⟨toSlot_of_check (by revert st old ps; decide +kernel),
    queueSound_of_check (by revert st old; decide +kernel), by revert st old; decide +kernel⟩, by decide⟩

theorem witness_ContinueAndHoldAnswerCheckpoint : ∀ c ∈ [(1 : Byte), 2], ∀ st ∈ [SlotState.declared, .powered, .queued],
    ∀ big : Bool, ∀ p ∈ [Policy.auto, .supervised],
      let s := one { blade st with oversize := big, policy := p }
      s.QueueSound ∧ Responds c (ask 1 [c]) .a 0 s ∧ (s.slot 0).state = st ∧ (s.slot 0).decl = some wish :=
  fun c h st k big p l => ⟨queueSound_of_check (by revert c st big p; decide +kernel),
    responds_of_check (by revert c st big p; decide +kernel) rfl, by revert c st big p; decide +kernel⟩

theorem witness_ResponsesMoveSlot :
    (∀ x ∈ [((3 : Byte), SlotState.declared), (4, .powered), (4, .listen), (5, .listen), (6, .reverted), (7, .reverted),
        (8, .draining), (9, .draining)], ∀ g ∈ [none, some (0 : SlotId)],
      let s := { one (blade x.2) with map := (one (blade x.2)).map.set 0 g }
      s.QueueSound ∧ Responds x.1 (ask 1 [x.1]) .a 0 s ∧ (s.slot 0).state = x.2 ∧ (s.heldGroups 0 ≠ 0 ↔ g = some 0)) ∧
    let s := one { blade .draining with steering := some .b }
    s.QueueSound ∧ Names (ask 1 []) .a 0 s ∧ (s.slot 0).state = .draining :=
  ⟨fun x h g k => ⟨queueSound_of_check (by revert x g; decide +kernel),
      responds_of_check (by revert x g; decide +kernel) rfl, by revert x g; decide +kernel⟩,
    queueSound_of_check (by decide +kernel), ⟨⟨⟨received_of_check (by decide +kernel), rfl, rfl, rfl⟩, rfl⟩, rfl⟩, rfl⟩

/-- Slot 1 transmitting on group 1 where its state does, holding group 1 or nothing, a regroup waiting or not. -/
def grouped (st : SlotState) (p : Policy) (holds : Bool) (wait : Option GroupSet) : State :=
  let s := one { blade st with policy := p, lane := { (blade st).lane with pending := wait } }
  { s with map := s.map.set 0 (if holds then some 0 else none) }

theorem witness_GroupsAreGivenAndTaken :
    (∀ st ∈ [SlotState.listen, .joinWait, .reverted, .live], ∀ p ∈ [Policy.auto, .supervised], ∀ holds : Bool,
      (grouped st p holds none).QueueSound ∧ ToSlot (ask 1 [1]) .a 0 (grouped st p holds none) ∧
        ToSlot (ask 1 [2, 8, 3, 7, 4, 6, 5]) .a 0 (grouped st p holds none)) ∧
    ((grouped .live .auto true (some 3)).QueueSound ∧ ToSlot (ask 1 [1]) .a 0 (grouped .live .auto true (some 3))) ∧
    (∀ st ∈ [SlotState.listen, .joinWait, .reverted, .live], ∀ holds : Bool, let s := grouped st .auto holds none
      st.takesGroups = true ∧ (s.slot 0).undoWait = false ∧ s.holdsWindow 0 = false) ∧
    (∀ holds : Bool, (grouped .live .auto holds none).heldGroups 0 = if holds then 1 else 0) ∧
    (∀ g : GroupId, (grouped .live .auto true none).map[g.val] = none ∨ (grouped .live .auto true none).map[g.val] = some 0) ∧
    ListsGroups [1] 1 ∧ ListsGroups [2, 8, 3, 7, 4, 6, 5] 0xFE ∧ groupCount (1 ||| 0xFE) ≤ 8 :=
  ⟨fun st h p k holds => ⟨queueSound_of_check (by revert st p holds; decide +kernel),
      toSlot_of_check (by revert st p holds; decide +kernel), toSlot_of_check (by revert st p holds; decide +kernel)⟩,
    ⟨queueSound_of_check (by decide +kernel), toSlot_of_check (by decide +kernel)⟩,
    by decide +kernel, by decide +kernel, by decide +kernel, groupList_iff.1 (by decide +kernel),
    groupList_iff.1 (by decide +kernel), by decide +kernel⟩

theorem witness_RetireActsByState :
    (∀ st ∈ slotStates, ToSlot (ask 1 []) .a 0 (one (blade st)) ∧ (one (blade st)).QueueSound ∧
      ((one (blade st)).slot 0).state = st) ∧
    (∀ st ∈ [SlotState.joinObserve, .live], ∀ undo retire : Bool,
      let s := holding undo retire (blade st)
      ToSlot (ask 1 []) .a 0 s ∧ s.QueueSound ∧ (s.slot 0).undoWait = undo ∧ s.holdsWindow 0 = !undo ∧
        (s.slot 0).retirePending = retire) ∧
    let s := one { blade .orphaned with lane := { (blade .orphaned).lane with commanded := .listen, transmit := 0 } }
    ToSlot (ask 1 []) .a 0 s ∧ s.QueueSound ∧ (s.slot 0).lane.commanded ≠ .joined :=
  ⟨fun st h => ⟨toSlot_of_check (by revert st; decide +kernel), queueSound_of_check (by revert st; decide +kernel),
      by revert st; decide +kernel⟩,
    fun st h undo retire => ⟨toSlot_of_check (by revert st undo retire; decide +kernel),
      queueSound_of_check (by revert st undo retire; decide +kernel), by revert st undo retire; decide +kernel⟩,
    toSlot_of_check (by decide +kernel), queueSound_of_check (by decide +kernel), by decide +kernel⟩

theorem witness_RetireSelfAndUnbar :
    (∀ st ∈ slotStates.filter (·.mgmtPower), FromBlade (tell []) 0 (one (blade st)) ∧ (one (blade st)).QueueSound) ∧
    (∀ st ∈ [SlotState.joinObserve, .live], ∀ undo retire : Bool,
      let s := holding undo retire (blade st)
      FromBlade (tell []) 0 s ∧ s.QueueSound ∧ (s.slot 0).undoWait = undo ∧ s.holdsWindow 0 = !undo ∧
        (s.slot 0).retirePending = retire) ∧
    ∀ st ∈ [SlotState.barred, .live], ToSlot (ask 1 []) .a 0 (one (blade st)) ∧ (one (blade st)).QueueSound :=
  ⟨fun st h => ⟨fromBlade_of_check (by revert st; decide +kernel), queueSound_of_check (by revert st; decide +kernel)⟩,
    fun st h undo retire => ⟨fromBlade_of_check (by revert st undo retire; decide +kernel),
      queueSound_of_check (by revert st undo retire; decide +kernel), by revert st undo retire; decide +kernel⟩,
    fun st h => ⟨toSlot_of_check (by revert st; decide +kernel), queueSound_of_check (by revert st; decide +kernel)⟩⟩

/-- A DECLARE of LINE class, `pLo` W and 100 in bulk capacitance, two groups wanted, and a list to repair or not. -/
def declareParams (pHi pLo : Byte) (preferred : List Byte) : List Byte :=
  [1, pHi, pLo, 0, 100, 2] ++ List.replicate 10 0 ++ preferred

theorem test_declare_as_sent : declareContent (declareParams 0 200 [1, 2]) = .usable wish false := by decide +kernel
theorem test_declare_repaired : declareContent (declareParams 0 200 [1, 40, 1, 2, 3]) = .usable wish true := by
  decide +kernel
theorem test_declare_800W : declareContent (declareParams 0x03 0x20 []) =
    .usable { wish with power := 800, preferred := [] } false := by decide +kernel
theorem test_declare_801W : declareContent (declareParams 0x03 0x21 []) = .unusable := by decide +kernel

theorem witness_DeclarationIsRecorded : ∀ st ∈ [SlotState.present, .declared], ∀ p ∈ [Policy.auto, .supervised],
    ∀ held : Bool,
      let s := one { blade st with policy := p, heldMark := held }
      FromBlade (tell (declareParams 0 200 [1, 2])) 0 s ∧ s.QueueSound ∧
        Declares (tell (declareParams 0 200 [1, 2])).params wish false ∧ (s.slot 0).state = st ∧
        (s.slot 0).policy = p ∧ (s.slot 0).heldMark = held :=
  fun st h p k held => ⟨fromBlade_of_check (by revert st p held; decide +kernel),
    queueSound_of_check (by revert st p held; decide +kernel), declareContent_iff.1 (by decide +kernel),
    by revert st p held; decide +kernel⟩

/-- The content that R48 does not refuse, at the ends of its ranges; and a capacitance and a list that are repaired. -/
theorem witness_DeclarationIsRecorded_content :
    (∀ ps ∈ [declareParams 0x03 0x20 [], declareParams 0 1 [], [3, 0, 1, 0, 0, 8] ++ List.replicate 10 0],
      16 ≤ ps.length ∧ (ps.getD 0 0).toNat ≤ 3 ∧ 1 ≤ (ps.getD 1 0).toNat * 256 + (ps.getD 2 0).toNat ∧
        (ps.getD 1 0).toNat * 256 + (ps.getD 2 0).toNat ≤ 800 ∧ (ps.getD 5 0).toNat ≤ 8) ∧
    Declares ([1, 0, 200, 0x01, 0x91, 2] ++ List.replicate 10 0 ++ [1, 40, 1, 2, 3]) { wish with bulk := 400 } true ∧
    Declares ([1, 0, 200, 0, 0, 2] ++ List.replicate 10 0 ++ [1, 2]) { wish with bulk := 1 } true :=
  ⟨by decide, declareContent_iff.1 (by decide +kernel), declareContent_iff.1 (by decide +kernel)⟩

theorem witness_DeclarationOfPoweredSlot_live : ∀ c ∈ [882, 881],
    let s := capped c (one (blade .live))
    FromBlade (tell (declareParams 0x03 0x20 [])) 0 s ∧ s.QueueSound ∧ s.Booked ∧
      Declares (declareParams 0x03 0x20 []) { wish with power := 800, preferred := [] } false ∧ (s.slot 0).state = .live ∧
      (s.slot 0).undoWait = false ∧
      (reservationFor 800 s.zone1.margin ≤ (s.slot 0).reservation + s.zone1.headroom ↔ c = 882) :=
  fun c h => ⟨fromBlade_of_check (by revert c; decide +kernel), queueSound_of_check (by revert c; decide +kernel),
    booked_of_check (by revert c; decide +kernel), declareContent_iff.1 (by decide +kernel), by revert c; decide +kernel⟩

theorem witness_DeclarationOfPoweredSlot_orphaned : ∀ m ∈ [LaneMode.openMode, .biased, .listen, .joined],
    ∀ p ∈ [Policy.auto, .supervised], ∀ levels ∈ [seated, opened],
      let s := one (moved levels levels false { blade .orphaned with
        policy := p, decl := none, lane := { (blade .orphaned).lane with commanded := m } })
      FromBlade (tell (declareParams 0 200 [1, 2])) 0 s ∧ s.QueueSound ∧ s.Booked ∧ (s.slot 0).state = .orphaned ∧
        (s.slot 0).lane.commanded = m ∧ (s.slot 0).policy = p ∧
        (s.slot 0).handleClosed = levels.handleClosed ∧ s.holdsWindow 0 = false :=
  fun m h p k levels l => ⟨fromBlade_of_check (by revert m p levels; decide +kernel),
    queueSound_of_check (by revert m p levels; decide +kernel), booked_of_check (by revert m p levels; decide +kernel),
    by revert m p levels; decide +kernel⟩

/-- R58, R16: a slot that passes POWERED on its way to POWERING_DOWN posts no CHECKPOINT notice. -/
theorem test_declare_with_open_handle :
    let s := one (moved opened opened false { blade .orphaned with
      policy := .supervised, decl := none, lane := { (blade .orphaned).lane with commanded := .openMode } })
    (after (exec (.declare (tell (declareParams 0 200 [1, 2]))) s)).map (fun t =>
      ((t.slot 0).state, t.managerA.slotNotices.checkpoint, t.managerB.slotNotices.checkpoint)) =
    some (.poweringDown, 0, 0) := by
  decide +kernel

/-- The shelf with port A in a state, a reply held, and its clock line low for `low` ticks. -/
def ported (st : PortState) (low : Nat) (running : Bool) : State :=
  { shelf with
    survey := { shelf.survey with running := running }
    portA := { BusPort.reset with state := st, reply := [0, 0, 0], clock := ⟨low, false⟩ } }

theorem witness_BusPortsTakeFrames_codes :
    (ask 0 (List.replicate 24 0)).params.length ≤ 24 ∧
    (∀ code ∈ readCodes ++ otherRequestCodes, unknownTo code (ask 0 []).tag = false ∨
      unknownTo code (tell []).tag = false) ∧ unknownTo 0x21 (ask 0 []).tag = true ∧
    ∀ c ∈ [(1 : Byte), 2, 3, 4, 5, 6, 7, 8, 9], unknownTo 0x09 (ask 1 [c]).tag = false ∧
      (ask 1 [c]).params.head? = some c := by
  decide

/-- Tables 11-1 and 11-4: ASSIGN_GROUPS of groups 2 and 3 to slot 5, sent by manager A; the bytes sum to 0x100. -/
theorem test_frame_read : frameCommand .a 0x38 [0x01, 0x0A, 0x05, 0x02, 0x02, 0x03, 0xE9] .hold 0 =
    .assignGroups { port := .a, addr := 0x38, tag := 0x01, slot := 5, params := [2, 3], ending := .hold, delay := 0 } := by
  decide

/-- Table 11-4: RETIRE of slot 16, and a RETIRE_SELF of the blade in slot 16. -/
theorem test_frames_read : [[0x02, 0x0C, 0x10, 0x00, 0xE2], [(0x20 : Byte), 0x21, 0x10, 0x00, 0xAF]].map
    (fun l => frameCommand .b 0x38 l .stop 0) =
    [.retire { port := .b, addr := 0x38, tag := 0x02, slot := 16, params := [], ending := .stop, delay := 0 },
      .retireSelf { port := .b, addr := 0x38, tag := 0x20, slot := 16, params := [], ending := .stop, delay := 0 }] := by
  decide

/-- The codes of Table 11-4 are those that name a command. -/
theorem test_codes_known : (List.finRange 256).all (fun k =>
    (codeCommand? (BitVec.ofNat 8 k.val) (ask 0 [])).isSome ==
      decide (BitVec.ofNat 8 k.val ∈ readCodes ++ otherRequestCodes)) = true := by
  decide +kernel

theorem witness_BusPortsTakeFrames :
    (wholeFrame [1, 0, 3, 0, 0xFB] = true ∧ goodFrame [1, 0, 3, 0, 0xFB] = false) ∧
    (Received (ask 0 []) shelf ∧ unknownTo 0x20 (ask 0 []).tag = true) ∧
    (wholeFrame [] = false ∧ BusEvent.startRead ≠ .stop ∧ wholeFrame [1, 0, 3, 0] = false) ∧
    (0x39 ≠ shelf.busAddress ∧ ∀ st ∈ [PortState.idle, .receiving, .holding, .sending],
      (ported st 0 false).busAddress = shelf.busAddress ∧ ((ported st 0 false).port .a).state = st) ∧
    (∀ st ∈ [PortState.holding, .sending], (((ported st 0 false).port .a).state = .holding ∨
      ((ported st 0 false).port .a).state = .sending)) ∧
    ((ported .idle 0 false).port .a).state = .idle ∧ ((ported .receiving 0 false).port .a).state = .receiving ∧
    ∀ running : Bool, ((ported .idle Config.stuckTicks running).port .a).stuck = true ∧
      ((ported .idle (Config.stuckTicks - 1) running).port .a).stuck = false :=
  ⟨by decide, ⟨received_of_check (by decide +kernel), by decide⟩, by decide, by decide +kernel, by decide +kernel,
    by decide +kernel, by decide +kernel, by decide +kernel⟩

/-- R167: a START for a write in IDLE is acknowledged and begins the write; one for a read is not acknowledged. -/
theorem test_start_in_idle : [BusEvent.startWrite, .startRead].map (fun ev =>
    (after (exec (.replyDiscard .a 0x38 ev) (ported .idle 0 false))).map fun t => ((t.port .a).state, (t.port .a).acks)) =
    [some (.receiving, [true]), some (.idle, [false])] := by
  decide +kernel

/-- R169: a START for another device ends a frame inside itself, and leaves a held reply (log entry 27). -/
theorem test_start_elsewhere : [PortState.receiving, .holding].map (fun st =>
    (after (exec (.replyDiscard .a 0x39 .startRead) (ported st 0 false))).map fun t =>
      ((t.port .a).state, (t.port .a).acks, t.bank.total .busErrorA)) =
    [some (.idle, [], 1), some (.holding, [], 0)] := by
  decide +kernel

/-- R167: the STOP of another device's transaction discards a held reply and one that is being sent. -/
theorem test_stop_elsewhere : [Instr.emptyWrite .a 0x39, .busError .a 0x39 [1] .stop,
      .unfreeze { ask 0 [] with addr := 0x39, ending := .stop }].map (fun c =>
    [PortState.holding, .sending].map fun st => (after (exec c (ported st 0 false))).map fun t =>
      ((t.port .a).state, (t.port .a).reply, (t.port .a).acks)) =
    List.replicate 3 (List.replicate 2 (some (.idle, [], []))) := by
  decide +kernel

/-- R172: the clock stretch before a reply that is read while it is built restarts the low-tick count, but for a line
that is stuck already. -/
theorem test_stretch_restarts_count : [12, 13].map (fun n =>
    (after (exec (.unfreeze { ask 0 [] with ending := .read }) (ported .idle n false))).map fun t =>
      ((t.port .a).state, (t.port .a).clock.lowTicks)) = [some (.sending, 0), some (.sending, 13)] := by
  decide +kernel

theorem witness_ReplyFrameSumsToZero : ∀ n ∈ [Config.stuckTicks - 1, Config.stuckTicks],
    (⟨n, false⟩ : BusLine).stuck = decide (n = Config.stuckTicks) := by
  decide

theorem test_read_past_reply : (after (exec (.replyRead .a 0x38 5) (ported .holding 0 false))).map (fun t =>
    ((t.port .a).sent, (t.port .a).state)) = some ([0, 0, 0, 0xFF, 0xFF], .idle) := by
  decide +kernel

theorem witness_RefusedRequestsChangeNothing :
    (Received (ask 0 []) surveying ∧ surveying.survey.running = true) ∧
    (let s := { shelf with survey := { shelf.survey with closing := true } }
     Received (ask 0 []) s ∧ s.survey.closing = true) ∧
    (let s := shelf.modManager .a fun v => { v with state := .silent }
     FromManager (ask 1 []) .a s ∧ (s.manager .a).state ≠ .active) ∧
    (FromManager (ask 1 []) .a shelf ∧ (shelf.manager .a).state = .active ∧ (ask 1 []).slot ≠ 0 ∧
      (ask 0 []).slot = 0 ∧ 16 < (ask 17 []).slot.toNat) ∧
    (let s := one { blade .live with steering := some .b }
     Names (ask 1 []) .a 0 s ∧ (s.slot 0).steering = some (ManagerId.other .a)) ∧
    (Received (tell []) shelf ∧ (tell []).tag.toNat = 0x11 + (0 : SlotId).val ∧ (shelf.slot 0).mgmtPower = false) ∧
    ∀ c ∈ [(1 : Byte), 2, 3, 4, 5, 6, 7, 8, 9], ∀ st ∈ slotStates,
      ToSlot (ask 1 [c]) .a 0 (one (blade st)) ∧ (ask 1 [c]).params.head? = some c :=
  ⟨⟨received_of_check (by decide +kernel), rfl⟩, ⟨received_of_check (by decide +kernel), rfl⟩,
    ⟨⟨received_of_check (by decide +kernel), rfl, rfl, rfl⟩, by decide +kernel⟩,
    ⟨⟨received_of_check (by decide +kernel), rfl, rfl, rfl⟩, rfl, by decide, rfl, by decide⟩,
    ⟨⟨⟨⟨received_of_check (by decide +kernel), rfl, rfl, rfl⟩, rfl⟩, rfl⟩, rfl⟩,
    ⟨received_of_check (by decide +kernel), rfl, rfl⟩,
    fun c h st k => ⟨toSlot_of_check (by revert c st; decide +kernel), rfl⟩⟩

/-- The shelf with manager A in a supervision state. -/
def managed (st : ManagerState) : State := shelf.modManager .a fun v => { v with state := st }

/-- Parameters that are refused: by SET_NOTICE_MASK and REFRESH, by the requests of the shelf's settings, and by the reads
(NoticesAreCollected, RefreshAndAdoptSupervise, MonitorRequestsSetBank, RefusedRequestsChangeNothing). -/
theorem witness_RefusedRequestsChangeNothing_params :
    (∀ r ∈ [ask 1 [0, 0], ask 0 [0], ask 0 [16, 0], ask 0 [], ask 0 [1, 0], ask 0 [1, 0, 124], ask 0 [1, 0x0F, 0xA1],
        ask 0 [3, 1, 0]], FromManager r .a shelf ∧ (shelf.manager .a).state ≠ .absent ∧
          FromManager r .a (managed .absent) ∧ ((managed .absent).manager .a).state = .absent) ∧
    (∀ r ∈ [ask 0 (List.replicate 7 1), ask 0 [3, 0, 0, 0, 0, 0, 0, 0], ask 0 [1, 0, 0, 0, 0, 0, 0, 2], ask 0 [1, 1, 0, 1, 0],
        ask 0 [5, 1, 0, 1, 0, 0], ask 0 [1, 13, 0, 1, 0, 0], ask 0 [1, 1, 3, 1, 0, 0], ask 0 [1, 1, 0, 0, 0, 0],
        ask 0 [1, 1, 0, 1, 2, 0], ask 0 [1, 1, 0, 1, 0, 2], ask 0 [0], ask 0 [16], ask 0 []], ToShelf r .a shelf) ∧
    (∀ r ∈ [ask 0 [], ask 17 [], ask 1 [0], ask 1 [3], ask 0 [3], ask 0 [4]], r.tag = managerTag .a) ∧
    (ask 1 [3]).slot.toNat = (0 : SlotId).val + 1 :=
  ⟨fun r h => ⟨⟨received_of_check (by revert r; decide +kernel), by revert r; decide, rfl, rfl⟩, by decide,
      ⟨received_of_check (by revert r; decide +kernel), by revert r; decide, rfl, rfl⟩, rfl⟩,
    fun r h => toShelf_of_check (by revert r; decide +kernel), by decide, rfl⟩

theorem witness_RefusedRequestsChangeNothing_owner :
    (∀ st ∈ slotStates, Names (ask 1 []) .a 0 (one (blade st)) ∧ ToSlot (ask 1 []) .a 0 (one (blade st)) ∧
      ((one (blade st)).slot 0).state = st) ∧
    (∀ st ∈ slotStates.filter (·.mgmtPower), ∀ ps ∈ [declareParams 0x03 0x20 [], declareParams 0x03 0x21 [],
        declareParams 0 0 [], List.replicate 15 1, 4 :: List.replicate 15 1, List.replicate 5 1 ++ 9 :: List.replicate 10 1],
      FromBlade (tell ps) 0 (one (blade st)) ∧ ((one (blade st)).slot 0).state = st) ∧
    (∀ ps ∈ [[], [(2 : Byte), 0], [0, 4], [0], [1, 1], [33], [1], List.range' 2 8 |>.map (BitVec.ofNat 8)],
      ∀ st ∈ [SlotState.listen, .live], ∀ undo : Bool, ToSlot (ask 1 ps) .a 0 (grouped st .auto true none) ∧
        ToSlot (ask 1 ps) .a 0 (holding undo false (blade .live)) ∧
        ((holding undo false (blade .live)).slot 0).undoWait = undo ∧
        (holding undo false (blade .live)).holdsWindow 0 = !undo) ∧
    (33 : Byte).toNat = 33 ∧ ¬ [(1 : Byte), 1].Nodup ∧ ListsGroups [1] 1 ∧
    ((grouped .listen .auto true none).slot 0).state.takesGroups = true ∧
    (grouped .listen .auto true none).holdsWindow 0 = false ∧ (grouped .listen .auto true none).heldGroups 0 = 1 ∧
    ListsGroups (List.range' 2 8 |>.map (BitVec.ofNat 8)) 0x1FE ∧ 8 < groupCount (1 ||| 0x1FE) ∧
    (let s := one (blade .listen)
     ToSlot (ask 1 [1]) .a 0 { s with map := s.map.set 0 (some 1) }) ∧
    ∀ c ∈ [[], [(0 : Byte)], [10]], ToSlot (ask 1 c) .a 0 (one (blade .draining)) :=
  ⟨fun st h => ⟨⟨⟨⟨received_of_check (by revert st; decide +kernel), rfl, by revert st; decide +kernel⟩,
        by revert st; decide +kernel⟩, rfl⟩,
      toSlot_of_check (by revert st; decide +kernel), by revert st; decide +kernel⟩,
    fun st h ps k => ⟨fromBlade_of_check (by revert st ps; decide +kernel), by revert st; decide +kernel⟩,
    fun ps h st k undo => ⟨toSlot_of_check (by revert ps st; decide +kernel),
      toSlot_of_check (by revert ps undo; decide +kernel), by revert undo; decide +kernel⟩,
    by decide, by decide, groupList_iff.1 (by decide +kernel), by decide +kernel, by decide +kernel, by decide +kernel,
    groupList_iff.1 (by decide +kernel), by decide +kernel, toSlot_of_check (by decide +kernel),
    fun c h => toSlot_of_check (by revert c; decide +kernel)⟩

theorem test_refused_hold : after (exec (.respHold (ask 1 [2])) (one (blade .live))) =
    some ((one (blade .live)).replied (ask 1 [2]) ⟨.wrongState, []⟩) := by
  decide +kernel

/-! ## Witnesses: invariants -/

/-- The part with a command in front of its queue. -/
def asked (c : Instr) (s : State) : State := { s with pending := [c] }

/-- Slot 1 in JOIN_WAIT, about to be granted the window. -/
def granting : State := asked .windowGrant (listed .join)

theorem granting_steps : (after (step granting)).map (fun t => ((t.slot 0).state, t.block.opened.isSome)) =
    some (.joinObserve, true) := by
  decide +kernel

theorem witness_SlotRecordsStaySound : (∃ t, step granting = .next t) ∧ granting.SlotsSound ∧ granting.GroupsSound := by
  refine ⟨?_, slotsSound_of_check (by decide +kernel), by unfold State.GroupsSound; decide +kernel⟩
  have h := granting_steps
  cases hs : step granting with
  | next t => exact ⟨t, rfl⟩
  | fault e => rw [hs] at h; simp [after] at h
  | refused e => rw [hs] at h; simp [after] at h

/-- Slot 1 about to be granted the zone, just fitting. -/
def admitting : State := asked (.grant .one) fitting

theorem admitting_steps : (after (step admitting)).map (fun t => (t.slot 0).state) = some .precharge := by
  decide +kernel

theorem admitting_next : ∃ t, step admitting = .next t := by
  have h := admitting_steps
  cases hs : step admitting with
  | next t => exact ⟨t, rfl⟩
  | fault e => rw [hs] at h; simp [after] at h
  | refused e => rw [hs] at h; simp [after] at h

theorem admitting_ranged : admitting.Ranged where
  decl := fun i d h => by
    have k : ∀ i, (admitting.slot i).decl = none ∨ (admitting.slot i).decl = some wish := by decide +kernel
    rcases k i with e | e
    · rw [e] at h; cases h
    · rw [e] at h; cases h; exact ⟨by decide, by decide, by decide, by decide⟩
  reservation := by decide +kernel
  zone := fun z => by cases z <;> exact ⟨by decide +kernel, by decide +kernel, by decide +kernel, by decide +kernel⟩
  precharge := fun z p h => by
    have k : ∀ z, (admitting.zone z).precharge = none := fun z => by cases z <;> rfl
    rw [k] at h; cases h

theorem witness_AccountsStaySound :
    (∃ t, step admitting = .next t) ∧ admitting.Booked ∧ admitting.Ranged :=
  ⟨admitting_next, booked_of_check (by decide +kernel), admitting_ranged⟩

/-- Slots 1 and 2 DECLARED and OVERSIZE, slot 3 QUEUED, and a SET_ZONE that makes room. -/
def clearing : State :=
  let big := { blade .declared with oversize := true }
  asked (.setZone (zoneAsk 0x1F 0x40)) { one big with
    slots := ((one big).slots.set 1 big).set 2 (blade .queued)
    zone1 := { (one big).zone1 with queue := [⟨2, 1⟩] } }

/-- R82: the two enter the queue behind slot 3, which is granted, in the order of their numbers. -/
theorem test_slots_enter_in_order : (after (step clearing)).map (fun t =>
    ((t.slot 0).state, (t.slot 1).state, (t.slot 2).state, t.zone1.queue)) =
    some (.queued, .queued, .precharge, [⟨0, 1⟩, ⟨1, 1⟩]) := by
  decide +kernel

theorem witness_QueuesStaySound_entering : clearing.QueueSound ∧ (clearing.slot 0).state ≠ .queued :=
  ⟨queueSound_of_check (by decide +kernel), by decide +kernel⟩

/-- Slots 1 and 2 QUEUED with equal priority in a zone that waits for its second feed, and slot 1 about to be moved: by a
SET_SLOT_POLICY with the override 1, or by a first report that opens and closes its handle. -/
def requeuing (c : Instr) : State :=
  asked c { one (turning seated seated (some opened) (blade .queued)) with
    slots := (shelf.slots.set 0 (turning seated seated (some opened) (blade .queued))).set 1 (blade .queued)
    zone1 := { shelf.zone1 with healthB := false, queue := [⟨0, 1⟩, ⟨1, 1⟩], wait := .protection } }

/-- R82 to R84: the slot that is moved goes behind its equal. -/
theorem test_slot_goes_behind_its_equal : [Instr.setSlotPolicy (ask 1 [0, 1]), .sampleReport 0].map (fun c =>
    (after (step (requeuing c))).map fun t =>
      ((t.slot 0).state, (t.slot 0).override, (t.slot 0).lines.reportDue, t.zone1.queue)) =
    [some (.queued, some 1, true, [⟨1, 1⟩, ⟨0, 1⟩]), some (.queued, none, false, [⟨1, 1⟩, ⟨0, 1⟩])] := by
  decide +kernel

theorem witness_QueuesStaySound_moved : ∀ c ∈ [Instr.setSlotPolicy (ask 1 [0, 1]), .sampleReport 0],
    (requeuing c).QueueSound ∧ ((requeuing c).slot 0).lines.opensAndCloses = true ∧
      ((requeuing c).slot 0).override = none ∧ (requeuing c).pending.head? = some c := fun c h =>
  ⟨queueSound_of_check (by revert c; decide +kernel), by revert c; decide +kernel⟩

theorem witness_QueuesStaySound : (∃ t, step admitting = .next t) ∧ admitting.QueueSound ∧ admitting.ListSound :=
  ⟨admitting_next, queueSound_of_check (by decide +kernel), listSound_of_check (by decide +kernel)⟩

/-- Manager A's supervision timer about to expire, with slot 1 steered by it. -/
def lapsing : State := asked (.supervisionTimerExpiry .a)
  ((one { blade .live with steering := some .a }).modManager .a fun v => { v with timer := .running 1000 1000 })

theorem lapsing_steps : (after (step lapsing)).map (fun t => ((t.slot 0).steering, t.managerA.state)) =
    some (none, .lapsed) := by
  decide +kernel

theorem witness_SteeringStaysSound : (∃ t, step lapsing = .next t) ∧ lapsing.Steered := by
  refine ⟨?_, ?_, fun h => absurd h (by decide +kernel)⟩
  · have h := lapsing_steps
    cases hs : step lapsing with
    | next t => exact ⟨t, rfl⟩
    | fault e => rw [hs] at h; simp [after] at h
    | refused e => rw [hs] at h; simp [after] at h
  · intro i m h
    have k : ∀ i, (lapsing.slot i).steering = none ∨ (lapsing.slot i).steering = some .a := by decide +kernel
    rcases k i with e | e
    · rw [e] at h; cases h
    · rw [e] at h; cases h; rfl

theorem witness_ChannelsAndLanesStaySound : (∃ t, step admitting = .next t) ∧ admitting.SlotsSound ∧
    admitting.QueueSound ∧ admitting.ListSound ∧ admitting.ChannelSound ∧ admitting.LanesSound ∧
    admitting.AttemptsSound := by
  refine ⟨admitting_next, slotsSound_of_check (by decide +kernel), queueSound_of_check (by decide +kernel),
    listSound_of_check (by decide +kernel), ⟨fun z p h => ?_, ?_⟩, fun i m h => ?_, ?_⟩
  · have k : ∀ z, (admitting.zone z).precharge = none := fun z => by cases z <;> rfl
    rw [k] at h; cases h
  · intro i h
    exact absurd h (by revert i; decide +kernel)
  · have k : ∀ i, (admitting.slot i).state.laneMode = some (admitting.slot i).lane.commanded ∧
        (admitting.slot i).lane.transmit = 0 := by decide +kernel
    rw [(k i).1] at h; cases h; exact ⟨rfl, (k i).2⟩
  · unfold State.AttemptsSound; decide +kernel

theorem witness_AdmissionStaysWithinBudget : (∃ t, step admitting = .next t ∧ (t.slot 0).state = .precharge) ∧
    admitting.QueueSound ∧ admitting.Booked ∧ (admitting.slot 0).state ≠ .precharge := by
  refine ⟨?_, queueSound_of_check (by decide +kernel), booked_of_check (by decide +kernel), by decide +kernel⟩
  obtain ⟨t, e⟩ := admitting_next
  have h := admitting_steps
  rw [e] at h
  exact ⟨t, e, by simpa [after] using h⟩

/-! ## The manual's worked examples (sections 3.9, 5.8, 5.9 and 7.7) -/

theorem test_example_reservations : [(500, 26), (800, 26), (800, 0), (300, 26), (50, 26), (100, 26), (200, 26), (150, 26)].map
    (fun x : Nat × Nat => reservationFor x.1 x.2) = [551, 882, 800, 331, 56, 111, 221, 166] := by decide

theorem test_example_limits : prechargeLimit 60 8 = 11 ∧ prechargeLimit 100 8 = 16 ∧ inrushFor 8 = 216 := by decide

/-- Section 3.9.1: the declaration of slot 3, sent as P 500, c 520, n_g 2 and the groups 5, 40, 5, 7, 9. -/
theorem test_example_repair : declareContent ([1, 1, 244, 2, 8, 2] ++ List.replicate 10 0 ++ [5, 40, 5, 7, 9]) =
    .usable { wish with power := 500, bulk := 400, preferred := [4, 6] } true := by
  decide +kernel

/-- Section 5.9: slot 6 at its last sample, slot 8 behind it. -/
def timeout : State :=
  let first := blade .precharge
  let second := { blade .queued with decl := some { wish with power := 150 } }
  { shelf with
    slots := (shelf.slots.set 5 first).set 7 second
    zone1 := { shelf.zone1 with
      capA := 2400, capB := 2400, current := 8, reserved := 221, queue := [⟨7, 1⟩], wait := .channelBusy
      precharge := some ⟨5, 8, 216, 60, 11, 11⟩ } }

theorem test_example_timeout : (after (exec (.prechargeLimitExpiry .one) timeout)).map (fun t =>
    ((t.slot 5).state, (t.slot 5).cause, (t.slot 7).state, t.zone1.reserved, t.zone1.wait)) =
    some (.barred, some .prechargeTimeout, .precharge, 166, .none) := by
  decide +kernel

/-- Section 7.7.1: slot 5 LIVE on groups 3 and 4. -/
def carrying : State :=
  { shelf with
    slots := shelf.slots.set 4 { blade .live with lane := { (blade .live).lane with transmit := 0xC } }
    map := (shelf.map.set 2 (some 4)).set 3 (some 4) }

theorem test_example_regroup : (after (exec (.assignGroups (ask 5 [7])) carrying)).map (fun t =>
    (t.heldGroups 4, (t.slot 4).lane.pending, t.block.list, (t.port .a).reply.head?)) =
    some (0x4C, some 0x4C, [⟨4, .regroup⟩], some 1) := by
  decide +kernel

/-- Section 7.7.2: the holder of the window on groups 17 and 18, and what lane sense shows of it. -/
def shortfall (undone : Bool) : State :=
  let r := blade .joinObserve
  let s := one { r with
    cause := if undone then some .laneMismatch else none
    lane := { r.lane with
      commanded := if undone then .listen else .joined, transmit := if undone then 0 else 0x30000
      comparison := if undone then some .transmitOff else some .transmitOn } }
  { s with
    laneDue := true
    block := { s.block with opened := if undone then none else some (watch .join .observeChange 0) } }

/-- Every slot sensed OPEN, but for slot 1. -/
def senses (m : LaneMode) (d : GroupSet) : Vector LaneSense 16 := (Vector.replicate 16 ⟨.openMode, 0⟩).set 0 ⟨m, d⟩

theorem test_example_mismatch : (after (exec (.laneSenseSample (senses .joined 0x10000)) (shortfall false))).map (fun t =>
    ((t.slot 0).state, (t.slot 0).phase, (t.slot 0).cause)) =
    some (.joinObserve, some .revertPending, some .laneMismatch) := by
  decide +kernel

theorem test_example_undone : [(0 : GroupSet), 0x10000].map (fun d =>
    (after (exec (.laneSenseSample (senses .listen d)) (shortfall true))).map fun t =>
      ((t.slot 0).state, (t.slot 0).cause, (t.slot 0).reservation, t.zone1.reserved)) =
    [some (.barred, some .laneMismatch, 0, 0), some (.barred, some .stuckLane, 0, 0)] := by
  decide +kernel

end Sys2Proof.Tests
end

section

/-! # Zones and feeds: Table 4-2, and the headroom and deficit of R67 -/

namespace Sys2Proof.Machine

/-! ## The rows of Table 4-2 (R62) -/

section Table42
variable {v : Zone}

theorem Zone.protection_ceff_of_both_healthy (hA : v.healthA = true) (hB : v.healthB = true) :
    v.protection = .protectedState ∧ v.ceff = min v.capA v.capB := by
  simp only [Zone.protection, Zone.ceff, hA, hB, and_self]

theorem Zone.protection_ceff_of_only_a_healthy (hA : v.healthA = true) (hB : v.healthB = false) :
    v.protection = .exposed ∧ v.ceff = v.capA := by
  simp only [Zone.protection, Zone.ceff, hA, hB, and_self]

theorem Zone.protection_ceff_of_only_b_healthy (hA : v.healthA = false) (hB : v.healthB = true) :
    v.protection = .exposed ∧ v.ceff = v.capB := by
  simp only [Zone.protection, Zone.ceff, hA, hB, and_self]

theorem Zone.protection_ceff_of_both_failed (hA : v.healthA = false) (hB : v.healthB = false) :
    v.protection = .dark ∧ v.ceff = 0 := by
  simp only [Zone.protection, Zone.ceff, hA, hB, and_self]

end Table42

/-- Settles O22, row by row of Table 4-2. -/
theorem protectionFollowsFeeds : Obligations.ProtectionFollowsFeeds := fun _ =>
  ⟨Zone.protection_ceff_of_both_healthy, Zone.protection_ceff_of_only_a_healthy,
    Zone.protection_ceff_of_only_b_healthy, Zone.protection_ceff_of_both_failed⟩

/-! ## Headroom and deficit (R67)

The model subtracts on whole numbers, which stops at 0; the manual takes the positive part of a difference. -/

section HeadroomDeficit
variable (v : Zone)

theorem Zone.headroom_eq_positive_part : (v.headroom : Int) = max 0 ((v.ceff : Int) - v.reserved - v.inrush) := by
  unfold Zone.headroom
  omega

theorem Zone.deficit_eq_positive_part : (v.deficit : Int) = max 0 ((v.reserved : Int) + v.inrush - v.ceff) := by
  unfold Zone.deficit
  omega

theorem Zone.headroom_eq_zero_iff : v.headroom = 0 ↔ v.ceff ≤ v.reserved + v.inrush := by
  rw [Zone.headroom, Nat.sub_sub, Nat.sub_eq_zero_iff_le]

theorem Zone.deficit_eq_zero_iff : v.deficit = 0 ↔ v.reserved + v.inrush ≤ v.ceff := by
  rw [Zone.deficit, Nat.sub_eq_zero_iff_le]

theorem Zone.headroom_or_deficit_eq_zero : v.headroom = 0 ∨ v.deficit = 0 := by
  rw [v.headroom_eq_zero_iff, v.deficit_eq_zero_iff]
  exact Nat.le_total ..

theorem Zone.overcommitted_iff : v.overcommitted = true ↔ 0 < v.deficit := decide_eq_true_iff

end HeadroomDeficit

/-- Settles O23: each quantity is the positive part of its difference, and each is 0 on its side of S + I = Ceff. -/
theorem headroomAndDeficit : Obligations.HeadroomAndDeficit := by
  intro v
  have balanced (h : v.reserved + v.inrush = v.ceff) : v.headroom = 0 ∧ v.deficit = 0 :=
    ⟨v.headroom_eq_zero_iff.2 h.ge, v.deficit_eq_zero_iff.2 h.le⟩
  exact ⟨v.headroom_eq_positive_part, v.deficit_eq_positive_part, v.headroom_or_deficit_eq_zero, balanced,
    v.overcommitted_iff⟩

end Sys2Proof.Machine
end

section

/-! # The whole part, step by step

A step is a command (`step_cases`), and a command is a chain of effects around a reset, the survey's classification or
end, or the sampling of a tick (`exec_cases`). So a predicate is kept by every step once it is kept by each of these. -/

namespace Sys2Proof.Machine

/-- A step idles on an empty queue, or runs the command in front with the rest left waiting. -/
theorem step_cases {s t : State} (h : step s = .next t) :
    t = s ∨ ∃ c rest, s.pending = c :: rest ∧ exec c { s with pending := rest } = .next t := by
  unfold step at h
  split at h
  · exact Or.inl (Host.Outcome.next.inj h).symm
  · next c rest hp => exact Or.inr ⟨c, rest, hp, h⟩

/-- What is kept by each of the things that a command can do. -/
structure Invariant (P : State → Prop) : Prop where
  pending   : ∀ s l, P s → P { s with pending := l }
  effect    : ∀ {s t}, Effect s t → P s → P t
  powerUp   : ∀ s, P s → P s.powerUp
  restart   : ∀ s, P s → P s.restart
  classify  : ∀ s, s.survey.running = true → P s → P s.classifyAll
  surveyEnd : ∀ s, s.survey.running = true → P s → P s.surveyEnd
  stop      : ∀ s, P s → P s.stopSurvey
  sample    : ∀ s x, P s → P (s.sampleAndCount x)

@[simp] theorem giveSteering_survey (s : State) (i : SlotId) (m : ManagerId) :
    (s.giveSteering i m).survey = s.survey := modSlot_survey ..

@[simp] theorem setManagerState_survey (s : State) (m : ManagerId) (st : ManagerState) :
    (s.setManagerState m st).survey = s.survey := by
  unfold State.setManagerState; rw [postShelf_survey, modManager_survey]

@[simp] theorem dropSteerings_survey (s : State) (m : ManagerId) : (s.dropSteerings m).survey = s.survey := rfl

/-- No effect starts or ends the survey or its classification. -/
theorem Effect.survey {s t : State} (h : Effect s t) :
    t.survey.running = s.survey.running ∧ t.survey.classified = s.survey.classified := by
  induction h with
  | refl s => exact ⟨rfl, rfl⟩
  | trans _ _ h k => exact ⟨k.1.trans h.1, k.2.trans h.2⟩
  | move i st b =>
    rw [(calm_moveTo _ i st).survey]
    exact ⟨b.running, b.ended⟩
  | slot i f _ _ => rw [modSlot_survey]; exact ⟨rfl, rfl⟩
  | steer i m _ => rw [giveSteering_survey]; exact ⟨rfl, rfl⟩
  | reserve i z d _ _ => rw [(calm_setReservation ..).survey]; exact ⟨rfl, rfl⟩
  | free i gs => rw [freeSet_survey]; exact ⟨rfl, rfl⟩
  | claim i gs _ _ => rw [claimSet_survey]; exact ⟨rfl, rfl⟩
  | zone z f _ _ _ _ => rw [modZone_survey]; exact ⟨rfl, rfl⟩
  | hold i z d _ _ => rw [modZone_survey]; exact ⟨rfl, rfl⟩
  | @replace s i _ =>
    have e : (s.replace i).survey = s.survey := ((calm_leaveQueue s i).trans (calm_joinQueue _ i)).survey
    rw [e]; exact ⟨rfl, rfl⟩
  | regroup i f _ _ _ => exact ⟨rfl, rfl⟩
  | unlist i f _ _ _ => exact ⟨rfl, rfl⟩
  | lapse m st _ => rw [setManagerState_survey, dropSteerings_survey]; exact ⟨rfl, rfl⟩
  | activate m st _ _ => rw [setManagerState_survey]; exact ⟨rfl, rfl⟩
  | aside a => exact ⟨a.running, a.ended⟩

/-- Every step keeps an invariant. -/
theorem Invariant.step {P : State → Prop} (I : Invariant P) {s t : State} (h : step s = .next t) (hs : P s) : P t := by
  rcases step_cases h with rfl | ⟨c, rest, -, h⟩
  · exact hs
  have hs := I.pending s rest hs
  rcases exec_cases h with e | rfl | ⟨u, e, rfl⟩ | ⟨hr, rfl⟩ | ⟨hr, -, u, v, e, k, rfl⟩ | ⟨x, u, e, k⟩
  · exact I.effect e hs
  · exact I.powerUp _ hs
  · exact I.restart _ (I.effect e hs)
  · exact I.classify _ hr hs
  · exact I.stop _ (I.effect k (I.surveyEnd _ (e.survey.1.trans hr) (I.effect e hs)))
  · exact I.effect k (I.sample _ x (I.effect e hs))

end Sys2Proof.Machine
end

section

/-! # Slot records and groups (R8, R9, R11, R116) -/

namespace Sys2Proof.Machine

/-! ## What the soundness of a record speaks of -/

/-- The fields of a record that its soundness and its switches are about. -/
structure SameShape (r v : Slot) : Prop where
  state     : v.state = r.state
  mgmtPower : v.mgmtPower = r.mgmtPower ∧ v.latch.mgmt = r.latch.mgmt
  powerPath : v.powerPath = r.powerPath ∧ v.latch.power = r.latch.power
  phase     : v.phase = r.phase
  timers    : v.declareTimer = r.declareTimer ∧ v.drainTimer = r.drainTimer ∧
    v.dischargeTimer = r.dischargeTimer ∧ v.backoffTimer = r.backoffTimer

/-- A slot's record agrees with its state, and so do its power switches. -/
structure Slot.Switched (r : Slot) : Prop where
  power : r.latch.power = r.state.powerPath
  mgmt  : r.latch.mgmt = r.state.mgmtPower

theorem SameShape.sound {r v : Slot} (h : SameShape r v) (k : r.Sound) : v.Sound := by
  obtain ⟨hs, ⟨hm, -⟩, ⟨hp, -⟩, hf, hde, hdr, hdi, hb⟩ := h
  exact ⟨by rw [hp, hs]; exact k.powerPath, by rw [hm, hs]; exact k.mgmtPower, by rw [hf, hs]; exact k.phase,
    by rw [hf, hs]; exact k.leaving, by rw [hde, hs]; exact k.declareTimer, by rw [hdr, hs]; exact k.drainTimer,
    by rw [hdi, hs]; exact k.dischargeTimer, by rw [hb, hs]; exact k.backoffTimer⟩

theorem SameShape.switched {r v : Slot} (h : SameShape r v) (k : r.Switched) : v.Switched :=
  ⟨by rw [h.powerPath.2, h.state]; exact k.power, by rw [h.mgmtPower.2, h.state]; exact k.mgmt⟩

theorem firstPhase_isSome (st : SlotState) :
    st.firstPhase.isSome = (st = .joinObserve || st = .leaveObserve) := by cases st <;> rfl

theorem firstPhase_leaving (st : SlotState) : st.firstPhase = some .observeLeave ↔ st = .leaveObserve := by
  cases st <;> decide

/-- A record agrees with the state that the slot has just entered. -/
theorem Entered.sound {st : SlotState} {t : TimerSettings} {r v : Slot} (h : Entered st t r v) : v.Sound where
  powerPath := by rw [h.powerPath.1, h.state]
  mgmtPower := by rw [h.mgmtPower.1, h.state]
  phase := by rw [h.phase, h.state]; exact firstPhase_isSome st
  leaving := by rw [h.phase, h.state]; exact firstPhase_leaving st
  declareTimer k := by
    rw [h.declareTimer] at k; rw [h.state]
    by_contra hn; exact k (if_neg hn)
  drainTimer k := by
    rw [h.drainTimer] at k; rw [h.state]
    by_contra hn; exact k (if_neg hn)
  dischargeTimer k := by
    rw [h.dischargeTimer] at k; rw [h.state]
    by_contra hn; exact k (if_neg hn)
  backoffTimer k := by
    rw [h.backoffTimer] at k; rw [h.state]
    by_contra hn; exact k (if_neg fun e => hn e.1)

theorem Entered.switched {st : SlotState} {t : TimerSettings} {r v : Slot} (h : Entered st t r v) : v.Switched :=
  ⟨by rw [h.powerPath.2, h.state], by rw [h.mgmtPower.2, h.state]⟩

theorem Change.switched {r v : Slot} (h : Change r v) (k : r.Switched) : v.Switched :=
  ⟨by rw [h.latchPower, h.state]; exact k.power, by rw [h.latchMgmt, h.state]; exact k.mgmt⟩

/-- A change of a record that is no transition keeps its soundness. -/
theorem Change.sound {r v : Slot} (h : Change r v) (k : r.Sound) : v.Sound where
  powerPath := by rw [h.powerPath, h.state]; exact k.powerPath
  mgmtPower := by rw [h.mgmtPower, h.state]; exact k.mgmtPower
  phase := by
    rw [h.state]
    rcases h.phase with e | ⟨e, p, hp, -⟩
    · rw [e]; exact k.phase
    · rw [hp, e]; rfl
  leaving := by
    rw [h.state]
    rcases h.phase with e | ⟨e, p, hp, hn⟩
    · rw [e]; exact k.leaving
    · rw [hp, e]
      exact ⟨fun x => absurd (Option.some.inj x) hn, fun x => absurd x (by decide)⟩
  declareTimer n := by
    rw [h.state]
    rcases h.declare with e | e | e
    · exact k.declareTimer (e ▸ n)
    · exact absurd e n
    · exact k.declareTimer e
  drainTimer n := by
    rw [h.state]
    rcases h.drain with e | e | e
    · exact k.drainTimer (e ▸ n)
    · exact absurd e n
    · exact k.drainTimer e
  dischargeTimer n := by
    rw [h.state]
    rcases h.discharge with e | e | e
    · exact k.dischargeTimer (e ▸ n)
    · exact absurd e n
    · exact k.dischargeTimer e
  backoffTimer n := by
    rw [h.state]
    rcases h.backoff with e | e | e
    · exact k.backoffTimer (e ▸ n)
    · exact absurd e n
    · exact e

/-! ## What each effect does to a record -/

theorem sameShape_steering (r : Slot) (m : Option ManagerId) : SameShape r { r with steering := m } :=
  ⟨rfl, ⟨rfl, rfl⟩, ⟨rfl, rfl⟩, rfl, rfl, rfl, rfl, rfl⟩

theorem sameShape_reservation (r : Slot) (n : Nat) : SameShape r { r with reservation := n } :=
  ⟨rfl, ⟨rfl, rfl⟩, ⟨rfl, rfl⟩, rfl, rfl, rfl, rfl, rfl⟩

theorem dropSteerings_slot (s : State) (m : ManagerId) (j : SlotId) : (s.dropSteerings m).slot j =
    { s.slot j with steering := if (s.slot j).steering = some m then none else (s.slot j).steering } :=
  Vector.getElem_map ..

theorem setManagerState_slot (s : State) (m : ManagerId) (st : ManagerState) (j : SlotId) :
    (s.setManagerState m st).slot j = s.slot j := by
  unfold State.setManagerState; rw [postShelf_slot, modManager_slot]

/-- The predicates on a slot's record that every effect keeps: those that hold of the record of a slot which has just
entered a state, and that the other changes keep. -/
theorem Effect.record {Q : Slot → Prop} (hm : ∀ st t r, Q (Slot.moved st t r))
    (hc : ∀ {r v}, Change r v → Q r → Q v) (hs : ∀ {r v}, SameShape r v → Q r → Q v) {s t : State} (h : Effect s t) :
    (∀ i, Q (s.slot i)) → ∀ i, Q (t.slot i) := by
  have mod : ∀ (s : State) (i : SlotId) (f : Slot → Slot), (Q (s.slot i) → Q (f (s.slot i))) →
      (∀ j, Q (s.slot j)) → ∀ j, Q ((s.modSlot i f).slot j) := fun s i f hf hq j => by
    rw [modSlot_slot]; split
    · exact hf (hq i)
    · exact hq j
  induction h with
  | refl s => exact id
  | trans _ _ h k => exact fun hq => k (h hq)
  | @move s u i st b =>
    intro hq j
    by_cases hj : j = i
    · rw [hj, moveTo_slot_self]; exact hm ..
    · rw [(local_moveTo ..).slots j hj, b.slots j hj]; exact hq j
  | slot i f c _ => exact mod _ i f (hc c)
  | steer i m _ => exact mod _ i _ (hs (sameShape_steering _ _))
  | reserve i z d _ _ =>
    intro hq j
    by_cases hj : j = i
    · rw [hj, setReservation_slot_self]
      exact hs (sameShape_reservation _ _) (hq i)
    · rw [(local_setReservation ..).slots j hj]; exact hq j
  | free i gs => exact fun hq j => by rw [freeSet_slot]; exact hq j
  | claim i gs _ _ => exact fun hq j => by rw [claimSet_slot]; exact hq j
  | zone z f _ _ _ _ => exact fun hq j => by rw [modZone_slot]; exact hq j
  | hold i z d _ _ => exact fun hq j => by rw [modZone_slot]; exact hq j
  | replace i _ =>
    intro hq j
    unfold State.replace; rw [joinQueue_slot, leaveQueue_slot]; exact hq j
  | regroup i f c _ _ =>
    intro hq j
    rw [addChange_slot]; exact mod _ i f (hc c) hq j
  | unlist i f c _ _ =>
    intro hq j
    rw [dropChange_slot]; exact mod _ i f (hc c) hq j
  | lapse m st _ =>
    intro hq j
    rw [setManagerState_slot, dropSteerings_slot]
    exact hs (sameShape_steering _ _) (hq j)
  | activate m st _ _ => exact fun hq j => by rw [setManagerState_slot]; exact hq j
  | aside a =>
    intro hq j
    unfold State.slot; rw [a.slots]; exact hq j

theorem Effect.slotsSound {s t : State} (h : Effect s t) (k : s.SlotsSound) : t.SlotsSound where
  records := h.record (fun _ _ _ => (entered_moved ..).sound) Change.sound SameShape.sound k.records
  switches hc i := by
    have all := h.record (Q := Slot.Switched) (fun _ _ _ => (entered_moved ..).switched) Change.switched
      SameShape.switched (fun i => ⟨(k.switches (h.survey.2 ▸ hc) i).1, (k.switches (h.survey.2 ▸ hc) i).2⟩) i
    exact ⟨all.power, all.mgmt⟩

/-! ## Resets, the survey and the sampling -/

theorem reset_sound : Slot.reset.Sound := by
  constructor <;> simp [Slot.reset, SlotState.powerPath, SlotState.mgmtPower]

theorem tick_ne_stopped {x : SlotTimer} (h : x.tick ≠ .stopped) : x ≠ .stopped := by
  rintro rfl; exact h rfl

/-- A timer that counts runs in the state that it ran in. -/
theorem tick_sound {r : Slot} (h : r.Sound) (b : Bool) (x : LineSample) : (r.tick b x).Sound where
  powerPath := h.powerPath
  mgmtPower := h.mgmtPower
  phase := h.phase
  leaving := h.leaving
  declareTimer k := h.declareTimer (tick_ne_stopped k)
  drainTimer k := h.drainTimer (tick_ne_stopped k)
  dischargeTimer k := h.dischargeTimer (tick_ne_stopped k)
  backoffTimer k := h.backoffTimer (tick_ne_stopped k)

theorem endSurvey_sound {r : Slot} (h : r.Sound) (t : TimerSettings) : (r.endSurvey t).Sound where
  powerPath := h.powerPath
  mgmtPower := h.mgmtPower
  phase := h.phase
  leaving := h.leaving
  declareTimer k := by
    by_contra hn
    exact hn (h.declareTimer (by simpa [Slot.endSurvey, show r.state ≠ .present from hn] using k))
  drainTimer := h.drainTimer
  dischargeTimer := h.dischargeTimer
  backoffTimer := h.backoffTimer

/-- A slot enters the state of its classification as it enters any other, but for its declare timer. -/
theorem classify_sound (t : TimerSettings) (m : LaneMode) (d : GroupSet) (r : Slot) : (r.classify t m d).Sound where
  powerPath := rfl
  mgmtPower := rfl
  phase := firstPhase_isSome _
  leaving := firstPhase_leaving _
  declareTimer k := absurd rfl k
  drainTimer k := by_contra fun hn => k (if_neg hn)
  dischargeTimer k := by_contra fun hn => k (if_neg hn)
  backoffTimer k := by_contra fun hn => k (if_neg fun e => hn e.1)

theorem classifySlot_sound (s : State) (i : SlotId) : ((s.classifySlot i).slot i).Sound := by
  rw [classifySlot_slot_self]
  exact (sameShape_reservation _ _).sound (classify_sound ..)

theorem classifySlot_switched (s : State) (i : SlotId) : ((s.classifySlot i).slot i).Switched := by
  rw [classifySlot_slot_self]
  exact (sameShape_reservation _ _).switched ⟨rfl, rfl⟩

theorem slotsSound_invariant : Invariant State.SlotsSound where
  pending _ _ h := ⟨h.records, h.switches⟩
  effect := Effect.slotsSound
  powerUp s _ := ⟨fun i => by rw [powerUp_slot]; exact reset_sound, fun h => absurd h (by simp [State.powerUp, State.reset, Survey.start])⟩
  restart s _ := by
    refine ⟨fun i => ?_, fun h => absurd h (by simp [State.restart, State.powerUp, State.reset, Survey.start])⟩
    rw [restart_slot]
    have := reset_sound
    exact ⟨this.powerPath, this.mgmtPower, this.phase, this.leaving, this.declareTimer, this.drainTimer,
      this.dischargeTimer, this.backoffTimer⟩
  classify s _ _ := by
    refine ⟨fun i => classifyAll_all s i classifySlot_sound, fun _ i => ?_⟩
    have := classifyAll_all s i classifySlot_switched
    exact ⟨this.power, this.mgmt⟩
  surveyEnd s _ h := by
    refine ⟨fun i => ?_, fun hc i => ?_⟩
    · rw [surveyEnd_slot]; exact endSurvey_sound (h.records i) _
    · rw [surveyEnd_slot]; exact h.switches hc i
  stop _ h := ⟨h.records, h.switches⟩
  sample s x h := by
    refine ⟨fun i => ?_, fun hc i => ?_⟩
    · rw [sampleAndCount_slot]; exact tick_sound (h.records i) ..
    · rw [sampleAndCount_slot]
      exact h.switches (by simpa [State.sampleAndCount, Survey.tick, apply_ite Survey.classified] using hc) i

/-! ## Groups (R116) -/

/-- A slot that holds no group still holds none where only groups of its own are freed. -/
theorem heldGroups_eq_zero_iff (s : State) (i : SlotId) :
    s.heldGroups i = 0 ↔ ∀ g : GroupId, s.map[g.val] ≠ some i := by
  constructor
  · intro h g hg
    have := heldGroups_mem s i g
    rw [h, hg] at this
    simp [GroupSet.mem] at this
  · intro h
    exact mem_ext fun g => by rw [heldGroups_mem]; simp [h g, GroupSet.mem]

/-- No slot in a state without groups is given one by an effect (R116). -/
theorem Effect.groupsSound {s t : State} (h : Effect s t) : s.GroupsSound → t.GroupsSound := by
  have same : ∀ {s t : State}, t.map = s.map → (∀ j, (t.slot j).state = (s.slot j).state) → s.GroupsSound → t.GroupsSound :=
    fun hm hst h j hj => by rw [heldGroups_of_map hm]; exact h j (hst j ▸ hj)
  have modState : ∀ (s : State) (i : SlotId) (f : Slot → Slot), Change (s.slot i) (f (s.slot i)) →
      ∀ j, ((s.modSlot i f).slot j).state = (s.slot j).state := fun s i f c j => by
    rw [modSlot_slot]; split
    · next hj => rw [c.state, hj]
    · rfl
  induction h with
  | refl s => exact id
  | trans _ _ h k => exact fun hs => k (h hs)
  | @move s u i st b =>
    intro hs j hj
    by_cases hji : j = i
    · subst hji
      rw [moveTo_slot_self, moved_state] at hj
      exact moveTo_groupless u j hj
    · have l := local_moveTo u i st
      rw [l.held j hji]
      rw [l.slots j hji, b.slots j hji] at hj
      rw [heldGroups_eq_zero_iff]
      have h0 := (heldGroups_eq_zero_iff s j).1 (hs j hj)
      intro g
      rcases b.map g with e | ⟨-, e⟩
      · rw [e]; exact h0 g
      · rw [e]; exact nofun
  | slot i f c _ => exact same rfl (modState _ i f c)
  | steer i m _ =>
    refine same rfl fun j => ?_
    unfold State.giveSteering
    rw [modSlot_slot]; split <;> simp_all
  | reserve i z d _ _ =>
    refine same (by simp [State.setReservation]) fun j => ?_
    by_cases hj : j = i
    · rw [hj, setReservation_slot_self]
    · rw [(local_setReservation ..).slots j hj]
  | @free s i gs =>
    intro hs j hj
    rw [freeSet_slot] at hj
    rw [heldGroups_eq_zero_iff]
    intro g
    rw [freeSet_map]; split
    · exact nofun
    · exact (heldGroups_eq_zero_iff s j).1 (hs j hj) g
  | @claim s i gs hg ho =>
    intro hs j hj
    rw [claimSet_slot] at hj
    have hji : j ≠ i := fun e => by rw [e, hg] at hj; cases hj
    rw [(local_claimSet s i gs ho).held j hji]
    exact hs j hj
  | zone z f _ _ _ _ => exact same (modZone_map ..) fun j => by rw [modZone_slot]
  | hold i z d _ _ => exact same (modZone_map ..) fun j => by rw [modZone_slot]
  | @replace s i _ =>
    exact same (by simp [State.replace, State.joinQueue, State.leaveQueue]) fun j => by
      unfold State.replace; rw [joinQueue_slot, leaveQueue_slot]
  | regroup i f c _ _ => exact same rfl fun j => by rw [addChange_slot]; exact modState _ i f c j
  | unlist i f c _ _ => exact same rfl fun j => by rw [dropChange_slot]; exact modState _ i f c j
  | @lapse s m st _ =>
    exact same (by simp [State.setManagerState, State.dropSteerings]) fun j => by rw [setManagerState_slot, dropSteerings_slot]
  | activate m st _ _ => exact same (by simp [State.setManagerState]) fun j => by rw [setManagerState_slot]
  | aside a => exact same a.map fun j => by unfold State.slot; rw [a.slots]

end Sys2Proof.Machine
end

section

/-! # Groups in the survey, and O55 -/

namespace Sys2Proof.Machine

/-! ## What the classification of a slot does to the map -/

theorem vacated_classification (st : SlotState) (r : Slot) : (r.vacated st).classification = r.classification := by
  unfold Slot.vacated; split <;> rfl

theorem groupsFor_classification (st : SlotState) (r : Slot) : (r.groupsFor st).classification = r.classification := by
  unfold Slot.groupsFor; split <;> rfl


theorem vacate_map_of (s : State) (i : SlotId) {st : SlotState} (h : st ≠ .draining) : (s.vacate i st).map = s.map := by
  unfold State.vacate; extract_lets u
  rw [if_neg h]
  simp [u, State.dropChange, State.freeChannel, State.leaveQueue]

theorem classification_ne_draining (r : Slot) : r.classification ≠ .draining := by
  rcases classification_cases r with e | e | e | e | e <;> rw [e] <;> decide

@[simp] theorem classifySlot_state (s : State) (i : SlotId) :
    ((s.classifySlot i).slot i).state = (s.slot i).classification := by
  rw [classifySlot_slot_self]
  show (Slot.groupsFor ..).classification = _
  rw [groupsFor_classification, vacated_classification]

theorem groupsFor_map (s : State) (i : SlotId) (st : SlotState) (g : GroupId) : (s.groupsFor i st).map[g.val] =
    if st.groupless ∧ s.map[g.val] = some i then none else s.map[g.val] := by
  unfold State.groupsFor State.freeGroups
  split
  · next h => 
    have all : GroupSet.mem (BitVec.allOnes 32) g = true := BitVec.getLsbD_allOnes.trans (decide_eq_true g.isLt)
    simp only [modLane_map]
    rw [freeSet_map]; simp only [h, all, and_true, true_and]
  · next h => simp [h]

theorem markFault_map (s : State) (i : SlotId) (b : Bool) : (s.markFault i b).map = s.map := rfl

theorem classifySlot_map_eq (s : State) (i : SlotId) : (s.classifySlot i).map =
    (((s.vacate i (s.slot i).classification).groupsFor i (s.slot i).classification).claimSet i (s.orphanDrive i)).map := by
  unfold State.classifySlot State.setReservation State.claimSet
  simp only [count_map, modSlot_map, modZone_map, markFault_map, setMap_map]

/-- An orphan is given the groups of its drive set; a slot found in a state without groups gives up its own. -/
theorem classifySlot_map (s : State) (i : SlotId) (g : GroupId) : (s.classifySlot i).map[g.val] =
    if (s.orphanDrive i).mem g then some i
    else if (s.slot i).classification.groupless ∧ s.map[g.val] = some i then none else s.map[g.val] := by
  simp only [classifySlot_map_eq]
  rw [claimSet_map, groupsFor_map, vacate_map_of s i (classification_ne_draining _)]

/-- A drive set that the survey gives is of groups that no slot owns, and only of an orphan (R180). -/
theorem orphanDrive_mem {s : State} {i : SlotId} {g : GroupId} (h : (s.orphanDrive i).mem g = true) :
    (s.slot i).classification = .orphaned ∧ s.map[g.val] = none := by
  unfold State.orphanDrive at h
  split at h
  · next ho => 
    refine ⟨ho, ?_⟩
    unfold State.freeOf GroupSet.mem at h
    simp at h
    exact h.2
  · simp [GroupSet.mem] at h

theorem classifySlot_groupsSound (s : State) (i : SlotId) (h : s.GroupsSound) : (s.classifySlot i).GroupsSound := by
  intro j hj
  rw [heldGroups_eq_zero_iff]
  intro g
  rw [classifySlot_map]
  by_cases hji : j = i
  · subst hji
    rw [classifySlot_state] at hj
    split
    · next hm => rw [(orphanDrive_mem hm).1] at hj; cases hj
    · split
      · exact nofun
      · next hn => exact fun e => hn ⟨hj, e⟩
  · rw [classifySlot_slot_ne _ _ _ hji] at hj
    have h0 := (heldGroups_eq_zero_iff s j).1 (h j hj) g
    split
    · exact fun e => hji (Option.some.inj e).symm
    · split
      · exact nofun
      · exact h0

theorem noGroups_of_map {s : State} (h : ∀ g : GroupId, s.map[g.val] = none) : s.GroupsSound := fun i _ =>
  (heldGroups_eq_zero_iff s i).2 fun g => by rw [h g]; exact nofun

theorem groupsSound_of {s t : State} (hm : t.map = s.map) (hs : ∀ i, (t.slot i).state = (s.slot i).state)
    (h : s.GroupsSound) : t.GroupsSound := fun i hi => by rw [heldGroups_of_map hm]; exact h i (hs i ▸ hi)

theorem powerUp_map (s : State) (g : GroupId) : s.powerUp.map[g.val] = none := by
  unfold State.powerUp State.reset; exact Vector.getElem_replicate _

theorem restart_map (s : State) : s.restart.map = s.powerUp.map := by unfold State.restart; rw [setSlots_map]

theorem markClassified_map (s : State) : s.markClassified.map = s.map := rfl

theorem classifyAll_groupsSound (s : State) (h : s.GroupsSound) : s.classifyAll.GroupsSound := by
  unfold State.classifyAll
  refine groupsSound_of (markClassified_map _) (fun i => by rw [markClassified_slot]) ?_
  exact foldl_invariant _ _ (fun s i _ => classifySlot_groupsSound s i) s h

theorem groupsSound_invariant : Invariant State.GroupsSound where
  pending s l h := groupsSound_of (s := s) (t := { s with pending := l }) rfl (fun _ => rfl) h
  effect := Effect.groupsSound
  powerUp s _ := noGroups_of_map (powerUp_map s)
  restart s _ := noGroups_of_map fun g => by simp only [restart_map]; exact powerUp_map s g
  classify s _ := classifyAll_groupsSound s
  surveyEnd s _ h := groupsSound_of (s := s) rfl (fun i => by rw [surveyEnd_slot]; rfl) h
  stop s h := groupsSound_of (s := s) (t := s.stopSurvey) rfl (fun _ => rfl) h
  sample s x h := groupsSound_of (s := s) rfl (fun i => by rw [sampleAndCount_slot]; rfl) h

/-- Settles O55: both predicates hold once a slot has entered a state, and whatever else a command can do keeps them. -/
theorem slotRecordsStaySound : Obligations.SlotRecordsStaySound := fun _ _ h =>
  ⟨slotsSound_invariant.step h, groupsSound_invariant.step h⟩

end Sys2Proof.Machine
end

section

/-! # Accounts (R63 to R66, R72, R88) -/

namespace Sys2Proof.Machine

/-! ## The sum of the reservations -/

theorem mem_slotsOf {i : SlotId} {z : ZoneId} : i ∈ slotsOf z ↔ zoneOf i = z := by
  simp [slotsOf, allSlots]

theorem slotsOf_nodup (z : ZoneId) : (slotsOf z).Nodup := (List.nodup_finRange 16).filter _

theorem slotsOf_length (z : ZoneId) : (slotsOf z).length = 8 := by cases z <;> decide

/-- A sum over a list changes by what one of its members changes by. -/
theorem sum_map_update {l : List SlotId} (hl : l.Nodup) {f g : SlotId → Nat} {i : SlotId} (hi : i ∈ l)
    (h : ∀ j, j ≠ i → g j = f j) : (l.map g).sum + f i = (l.map f).sum + g i := by
  induction l with
  | nil => cases hi
  | cons a l ih =>
    obtain ⟨ha, hl⟩ := List.nodup_cons.1 hl
    simp only [List.map_cons, List.sum_cons]
    by_cases e : a = i
    · subst e
      have : l.map g = l.map f := List.map_congr_left fun j hj => h j fun e => ha (e ▸ hj)
      rw [this]; omega
    · have := ih hl ((List.mem_cons.1 hi).resolve_left fun e' => e e'.symm)
      rw [h a e]; omega

theorem reservations_congr {s t : State} {z : ZoneId}
    (h : ∀ j, zoneOf j = z → (t.slot j).reservation = (s.slot j).reservation) : t.reservations z = s.reservations z := by
  unfold State.reservations
  rw [List.map_congr_left fun j hj => h j (mem_slotsOf.1 hj)]

theorem reservations_update {s t : State} {i : SlotId}
    (h : ∀ j, j ≠ i → (t.slot j).reservation = (s.slot j).reservation) :
    t.reservations (zoneOf i) + (s.slot i).reservation = s.reservations (zoneOf i) + (t.slot i).reservation :=
  sum_map_update (slotsOf_nodup _) (f := fun j => (s.slot j).reservation) (g := fun j => (t.slot j).reservation)
    (mem_slotsOf.2 rfl) h

theorem reservation_le (s : State) (i : SlotId) : (s.slot i).reservation ≤ s.reservations (zoneOf i) :=
  List.le_sum_of_mem (List.mem_map.2 ⟨i, mem_slotsOf.2 rfl, rfl⟩)

/-! ## The reserved sum -/

/-- A field of the slots that a change of one slot keeps. -/
theorem modSlot_keeps {α : Type} {s : State} {i : SlotId} {f : Slot → Slot} (p : Slot → α)
    (h : p (f (s.slot i)) = p (s.slot i)) (j : SlotId) : p ((s.modSlot i f).slot j) = p (s.slot j) := by
  rw [modSlot_slot]; split
  · next e => rw [h, e]
  · rfl

@[simp] theorem dropChange_zone (s : State) (i : SlotId) (z : ZoneId) : (s.dropChange i).zone z = s.zone z :=
  modBlock_zone ..

/-- An account stays booked where neither the reserved sums nor the reservations change. -/
theorem booked_of {s t : State} (hz : ∀ z, (t.zone z).reserved = (s.zone z).reserved)
    (hr : ∀ i, (t.slot i).reservation = (s.slot i).reservation) (hs : ∀ i, (t.slot i).state = (s.slot i).state)
    (h : s.Booked) : t.Booked where
  sums z := by rw [hz, h.sums, reservations_congr fun j _ => (hr j).symm]
  unpowered i hi := by rw [hr]; exact h.unpowered i (hs i ▸ hi)

/-- A change of one slot that moves its zone's reserved sum with its reservation keeps the accounts booked. -/
theorem booked_slot {s t : State} (i : SlotId) (hn : ∀ j, j ≠ i → t.slot j = s.slot j)
    (hz : ∀ z, z ≠ zoneOf i → (t.zone z).reserved = (s.zone z).reserved)
    (hi : (t.zone (zoneOf i)).reserved + (s.slot i).reservation =
      (s.zone (zoneOf i)).reserved + (t.slot i).reservation)
    (hu : (t.slot i).state.isPowered = false → (t.slot i).reservation = 0) (h : s.Booked) : t.Booked where
  sums z := by
    by_cases e : z = zoneOf i
    · have hu := reservations_update (s := s) (t := t) (i := i) fun j hj => by rw [hn j hj]
      have hs := h.sums (zoneOf i)
      rw [e]; omega
    · rw [hz z e, h.sums, reservations_congr fun j hj => by rw [hn j fun x => e (x ▸ hj).symm]]
  unpowered j hj := by
    by_cases e : j = i
    · rw [e]; exact hu (e ▸ hj)
    · rw [hn j e]; exact h.unpowered j (hn j e ▸ hj)

/-- A slot that goes to a state keeps its reservation, or gives it back where the state has no power (Table 4-3). -/
theorem booked_moveTo {s u : State} {i : SlotId} (st : SlotState) (hn : ∀ j, j ≠ i → u.slot j = s.slot j)
    (hr : (u.slot i).reservation = (s.slot i).reservation) (hz : ∀ z, u.zone z = s.zone z) (h : s.Booked) :
    (u.moveTo i st).Booked := by
  have hle := h.sums (zoneOf i) ▸ reservation_le s i
  refine booked_slot (s := s) i (fun j hj => by rw [(local_moveTo ..).slots j hj, hn j hj]) (fun z hzi => ?_) ?_ ?_ h
  · rw [moveTo_reserved, if_neg fun e => hzi e.1, hz]
  · rw [moveTo_reserved, moveTo_slot_self, moved_reservation, hr, hz]
    cases st.isPowered with
    | true => simp
    | false => simp only [and_self, if_true, Bool.false_eq_true, if_false]; omega
  · rw [moveTo_slot_self, moved_state, moved_reservation]
    exact fun hp => if_neg (by rw [hp]; exact Bool.false_ne_true)

theorem booked_setReservation {s : State} (i : SlotId) (n : Nat) (hp : (s.slot i).state.isPowered = true ∨ n = 0)
    (h : s.Booked) : (s.setReservation i n).Booked := by
  have hle := h.sums (zoneOf i) ▸ reservation_le s i
  refine booked_slot (s := s) i (local_setReservation s i n).slots (fun z hz => ?_) ?_ ?_ h
  · rw [setReservation_zone, if_neg hz]
  · rw [setReservation_zone, if_pos rfl, setReservation_slot_self]
    show (s.zone (zoneOf i)).reserved + n - (s.slot i).reservation + (s.slot i).reservation = _ + n
    omega
  · rw [setReservation_slot_self]
    intro hf
    rcases hp with hp | hp
    · exact absurd hf (by rw [hp]; exact Bool.noConfusion)
    · exact hp

theorem Effect.booked {s t : State} (h : Effect s t) : s.Booked → t.Booked := by
  induction h with
  | refl s => exact id
  | trans _ _ h k => exact fun hs => k (h hs)
  | move i st b => exact booked_moveTo st b.slots b.reserve b.zones
  | slot i f c _ =>
    exact booked_of (fun z => by rw [modSlot_zone]) (modSlot_keeps Slot.reservation c.reservation)
      (modSlot_keeps Slot.state c.state)
  | steer i m _ =>
    unfold State.giveSteering
    exact booked_of (fun z => by rw [modSlot_zone]) (modSlot_keeps Slot.reservation rfl) (modSlot_keeps Slot.state rfl)
  | reserve i z d hp _ => exact booked_setReservation i _ (Or.inl hp)
  | free i gs => exact booked_of (fun z => by rw [freeSet_zone]) (fun _ => by rw [freeSet_slot]) fun _ => by rw [freeSet_slot]
  | claim i gs _ _ =>
    exact booked_of (fun z => by rw [claimSet_zone]) (fun _ => by rw [claimSet_slot]) fun _ => by rw [claimSet_slot]
  | zone z f _ hr _ _ =>
    refine booked_of (fun w => ?_) (fun _ => by rw [modZone_slot]) fun _ => by rw [modZone_slot]
    rw [modZone_zone]; split
    · next e => rw [hr, e]
    · rfl
  | hold i z d _ _ =>
    refine booked_of (fun w => ?_) (fun _ => by rw [modZone_slot]) fun _ => by rw [modZone_slot]
    rw [modZone_zone]; split
    · next e => rw [e]; rfl
    · rfl
  | replace i _ =>
    unfold State.replace
    refine booked_of (fun w => ?_) (fun _ => by rw [joinQueue_slot, leaveQueue_slot]) fun _ => by
      rw [joinQueue_slot, leaveQueue_slot]
    unfold State.joinQueue State.leaveQueue
    rw [modZone_zone, modZone_zone, modZone_zone]; split <;> simp_all
  | regroup i f c _ _ =>
    exact booked_of (fun z => by rw [addChange_zone, modSlot_zone])
      (fun j => by rw [addChange_slot]; exact modSlot_keeps Slot.reservation c.reservation j)
      (fun j => by rw [addChange_slot]; exact modSlot_keeps Slot.state c.state j)
  | unlist i f c _ _ =>
    exact booked_of (fun z => by rw [dropChange_zone, modSlot_zone])
      (fun j => by rw [dropChange_slot]; exact modSlot_keeps Slot.reservation c.reservation j)
      (fun j => by rw [dropChange_slot]; exact modSlot_keeps Slot.state c.state j)
  | lapse m st _ =>
    refine booked_of (fun z => ?_) (fun j => ?_) fun j => ?_
    · unfold State.setManagerState; rw [postShelf_zone, modManager_zone]; rfl
    · rw [setManagerState_slot, dropSteerings_slot]
    · rw [setManagerState_slot, dropSteerings_slot]
  | activate m st _ _ =>
    refine booked_of (fun z => ?_) (fun j => by rw [setManagerState_slot]) fun j => by rw [setManagerState_slot]
    unfold State.setManagerState; rw [postShelf_zone, modManager_zone]
  | aside a =>
    exact booked_of (fun z => by rw [a.zones]) (fun j => by unfold State.slot; rw [a.slots]) fun j => by
      unfold State.slot; rw [a.slots]

end Sys2Proof.Machine
end

section

/-! # Accounts at the resets and in the survey, and the ranges: O56 -/

namespace Sys2Proof.Machine

/-- What a slot gives up before a transition: its place in the queue and the channel of its own zone, and no more of a
zone (R84, R88). -/
theorem vacate_zone (s : State) (i : SlotId) (st : SlotState) (z : ZoneId) : (s.vacate i st).zone z =
    if z = zoneOf i then Zone.freeFrom i { s.zone z with queue := (s.zone z).queue.filter fun e => e.slot ≠ i }
    else s.zone z := by
  have h : ∀ u : State, (u.discardRegroup i).zone z = u.zone z := fun u => by
    unfold State.discardRegroup; split
    · rw [modLane_zone, freeSet_zone]
    · rfl
  unfold State.vacate; extract_lets u
  have hu : u.zone z = if z = zoneOf i then
      Zone.freeFrom i { s.zone z with queue := (s.zone z).queue.filter fun e => e.slot ≠ i } else s.zone z := by
    unfold u State.freeChannel State.leaveQueue
    rw [dropChange_zone]
    by_cases hz : z = zoneOf i
    · rw [hz, modZone_zone_self, modZone_zone_self, if_pos rfl]
    · rw [modZone_zone_ne _ _ _ hz, modZone_zone_ne _ _ _ hz, if_neg hz]
  split
  · rw [h, hu]
  · exact hu

@[simp] theorem freeFrom_reserved (v : Zone) (i : SlotId) : (v.freeFrom i).reserved = v.reserved := by
  unfold Zone.freeFrom; split
  · split <;> rfl
  · rfl

theorem orphaned_powered {st : SlotState} (h : st.isPowered = false) : st.surveyReservation = 0 := by
  cases st with
  | orphaned => cases h
  | _ => rfl

/-- What the survey classifies of a slot is booked: an orphan has the survey's reservation, any other slot none (R63). -/
theorem classifySlot_zone (s : State) (i : SlotId) (z : ZoneId) : ((s.classifySlot i).zone z).reserved =
    if z = zoneOf i then (s.zone z).reserved + (s.slot i).classification.surveyReservation - (s.slot i).reservation
    else (s.zone z).reserved := by
  have hv (z) : ((s.vacate i (s.slot i).classification).zone z).reserved = (s.zone z).reserved := by
    rw [vacate_zone]; split
    · rw [freeFrom_reserved]
    · rfl
  have hr : ((s.vacate i (s.slot i).classification).groupsFor i (s.slot i).classification |>.slot i).reservation =
      (s.slot i).reservation := by
    rw [groupsFor_slot_self, vacate_slot_self]
    unfold Slot.groupsFor Slot.vacated
    rw [if_neg (classification_ne_draining _)]
    split <;> rfl
  unfold State.classifySlot; extract_lets st drive v u
  have hu : ∀ z, u.zone z = (s.vacate i st).zone z := fun z => by
    show (v.claimSet i drive).zone z = _
    unfold v; rw [claimSet_zone, modSlot_zone, groupsFor_zone]
  have hur : (u.slot i).reservation = (s.slot i).reservation := by
    unfold u; rw [markFault_slot, claimSet_slot]; unfold v; rw [modSlot_slot_self]; exact hr
  rw [count_zone, setReservation_zone, hu]
  split
  · show _ + _ - _ = _
    rw [hv, hur]
  · exact hv z

theorem classifySlot_booked (s : State) (i : SlotId) (h : s.Booked) : (s.classifySlot i).Booked := by
  have hle := h.sums (zoneOf i) ▸ reservation_le s i
  have hr : ((s.classifySlot i).slot i).reservation = (s.slot i).classification.surveyReservation := by
    rw [classifySlot_slot_self]
  refine booked_slot (s := s) i (fun j hj => classifySlot_slot_ne s i j hj) (fun z hz => ?_) ?_ ?_ h
  · rw [classifySlot_zone, if_neg hz]
  · rw [classifySlot_zone, if_pos rfl, hr]; omega
  · rw [classifySlot_state, hr]; exact orphaned_powered

theorem sampleAndCount_reserved (s : State) (x : TickInputs) (z : ZoneId) :
    ((s.sampleAndCount x).zone z).reserved = (s.zone z).reserved := by
  rw [sampleAndCount_zone]; unfold Zone.tickPrecharge; split <;> rfl

/-- With no reservation and no reserved sum the accounts are booked. -/
theorem booked_of_zero {s : State} (hr : ∀ i, (s.slot i).reservation = 0) (hz : ∀ z, (s.zone z).reserved = 0) : s.Booked where
  sums z := by
    rw [hz]; unfold State.reservations
    rw [List.map_congr_left fun i _ => hr i]
    simp
  unpowered i _ := hr i

theorem powerUp_zone (s : State) (z : ZoneId) : s.powerUp.zone z = Zone.reset := by cases z <;> rfl

theorem restart_zone (s : State) (z : ZoneId) : s.restart.zone z = Zone.reset := by
  unfold State.restart; rw [setSlots_zone, powerUp_zone]

theorem markClassified_zone (s : State) (z : ZoneId) : s.markClassified.zone z = s.zone z := by cases z <;> rfl
theorem surveyEnd_zone (s : State) (z : ZoneId) : s.surveyEnd.zone z = s.zone z := by cases z <;> rfl
theorem stopSurvey_slot (s : State) (i : SlotId) : s.stopSurvey.slot i = s.slot i := rfl
theorem stopSurvey_zone (s : State) (z : ZoneId) : s.stopSurvey.zone z = s.zone z := by cases z <;> rfl
theorem pending_zone (s : State) (l : List Instr) (z : ZoneId) : ({ s with pending := l } : State).zone z = s.zone z := by
  cases z <;> rfl

theorem booked_invariant : Invariant State.Booked where
  pending s l h := booked_of (s := s) (fun z => by rw [pending_zone]) (fun _ => rfl) (fun _ => rfl) h
  effect := Effect.booked
  powerUp s _ := booked_of_zero (fun i => by rw [powerUp_slot]; rfl) fun z => by rw [powerUp_zone]; rfl
  restart s _ := booked_of_zero (fun i => by rw [restart_slot]; rfl) fun z => by rw [restart_zone]; rfl
  classify s _ h := by
    unfold State.classifyAll
    refine booked_of (fun z => congrArg Zone.reserved (markClassified_zone _ z)) (fun _ => by rw [markClassified_slot])
      (fun _ => by rw [markClassified_slot]) ?_
    exact foldl_invariant (P := State.Booked) _ _ (fun s i _ => classifySlot_booked s i) s h
  surveyEnd s _ h := booked_of (s := s) (fun z => by rw [surveyEnd_zone]) (fun i => by rw [surveyEnd_slot]; rfl)
    (fun i => by rw [surveyEnd_slot]; rfl) h
  stop s h := booked_of (s := s) (t := s.stopSurvey) (fun z => by rw [stopSurvey_zone]) (fun i => by rw [stopSurvey_slot])
    (fun i => by rw [stopSurvey_slot]) h
  sample s x h := booked_of (s := s) (sampleAndCount_reserved s x) (fun i => by rw [sampleAndCount_slot]; rfl)
    (fun i => by rw [sampleAndCount_slot]; rfl) h

/-! ## Ranges (R66, R72, R88, Table 3-1) -/

/-- A reservation lies in 0 to 1000 for every power and margin in their ranges (R63). -/
theorem reservationFor_le {p m : Nat} (hp : p ≤ 800) (hm : m ≤ 64) : reservationFor p m ≤ 1000 := by
  unfold reservationFor
  have : p * (256 + m) ≤ 800 * 320 := Nat.mul_le_mul hp (by omega)
  omega

theorem prechargeFor_ranged {i : SlotId} {d : Declaration} {v : Zone} (hd : d.Ranged) (hv : v.Ranged) :
    (prechargeFor i d.bulk v.current).Ranged := ⟨hv.current, hd.bulk, rfl, rfl, Nat.zero_le _⟩

/-- The four fields of a zone that R72 limits. -/
theorem Zone.Ranged.of {v w : Zone} (h : v.Ranged) (ha : w.capA = v.capA) (hb : w.capB = v.capB)
    (hm : w.margin = v.margin) (hq : w.current = v.current) : w.Ranged :=
  ⟨ha ▸ h.capA, hb ▸ h.capB, hm ▸ h.margin, hq ▸ h.current⟩

theorem Zone.Ranged.quiet {v w : Zone} (e : w.quiet = v.quiet) (h : v.Ranged) : w.Ranged :=
  h.of (congrArg Zone.capA e :) (congrArg Zone.capB e :) (congrArg Zone.margin e :) (congrArg Zone.current e :)

theorem Calm.zone {s t : State} (h : Calm s t) (z : ZoneId) : (t.zone z).quiet = (s.zone z).quiet := by
  cases z
  · exact h.zone1
  · exact h.zone2

/-- A zone's ranges are those of its configuration, and its precharge record's. -/
theorem ranged_of {s t : State} (hd : ∀ i d, (t.slot i).decl = some d → (s.slot i).decl = some d ∨ d.Ranged)
    (hr : s.Ranged → ∀ i, (t.slot i).reservation ≤ 1000) (hz : ∀ z, (s.zone z).Ranged → (t.zone z).Ranged)
    (hp : s.Ranged → ∀ z p, (t.zone z).precharge = some p → (s.zone z).precharge = some p ∨ p.Ranged) (h : s.Ranged) :
    t.Ranged where
  decl i d e := (hd i d e).elim (h.decl i d) id
  reservation := hr h
  zone z := hz z (h.zone z)
  precharge z p e := (hp h z p e).elim (h.precharge z p) id

/-- What keeps the declarations and reservations of the slots and the zones keeps the ranges. -/
theorem ranged_congr {s t : State} (hd : ∀ i, (t.slot i).decl = (s.slot i).decl)
    (hr : ∀ i, (t.slot i).reservation = (s.slot i).reservation) (hz : ∀ z, t.zone z = s.zone z) (h : s.Ranged) : t.Ranged :=
  ranged_of (fun i _ e => Or.inl (hd i ▸ e)) (fun h i => hr i ▸ h.reservation i) (fun z h => hz z ▸ h)
    (fun _ z _ e => Or.inl (hz z ▸ e)) h

theorem freeFrom_precharge {v : Zone} {i : SlotId} {p : Precharge} (h : (v.freeFrom i).precharge = some p) :
    v.precharge = some p := by
  unfold Zone.freeFrom at h
  split at h
  · split at h
    · cases h
    · exact h
  · exact h

theorem ranged_moveTo {s u : State} {i : SlotId} (st : SlotState) (hn : ∀ j, j ≠ i → u.slot j = s.slot j)
    (hd : (u.slot i).decl = (s.slot i).decl) (hr : (u.slot i).reservation = (s.slot i).reservation)
    (hz : ∀ z, u.zone z = s.zone z) (h : s.Ranged) : (u.moveTo i st).Ranged := by
  have others : ∀ j, j ≠ i → (u.moveTo i st).slot j = s.slot j := fun j hj => by rw [(local_moveTo ..).slots j hj, hn j hj]
  refine ranged_of (fun j d e => Or.inl ?_) (fun h j => ?_) (fun z => ?_) (fun _ z p e => Or.inl ?_) h
  · by_cases hj : j = i
    · subst hj
      rw [moveTo_slot_self, moved_decl, hd] at e
      split at e
      · cases e
      · exact e
    · rw [others j hj] at e; exact e
  · by_cases hj : j = i
    · subst hj
      rw [moveTo_slot_self, moved_reservation, hr]
      split
      · exact h.reservation j
      · exact Nat.zero_le _
    · rw [others j hj]; exact h.reservation j
  · exact Zone.Ranged.quiet (by rw [(calm_moveTo u i st).zone z, hz])
  · rw [moveTo_precharge] at e
    split at e
    · rw [← hz]; exact freeFrom_precharge e
    · rw [← hz]; exact e

theorem modSlot_decl {s : State} {i : SlotId} {f : Slot → Slot} (h : Change (s.slot i) (f (s.slot i))) (j : SlotId)
    (d : Declaration) (e : ((s.modSlot i f).slot j).decl = some d) : (s.slot j).decl = some d ∨ d.Ranged := by
  rw [modSlot_slot] at e
  split at e
  · next hj =>
    subst hj
    rcases h.decl with k | k | ⟨x, k, hx⟩ <;> rw [k] at e
    · exact Or.inl e
    · cases e
    · exact Or.inr (Option.some.inj e ▸ hx)
  · exact Or.inl e

/-- A change of one slot that is no transition keeps the ranges. -/
theorem ranged_change {s t : State} {i : SlotId} {f : Slot → Slot} (c : Change (s.slot i) (f (s.slot i)))
    (hs : ∀ j, t.slot j = (s.modSlot i f).slot j) (hz : ∀ z, t.zone z = s.zone z) : s.Ranged → t.Ranged :=
  ranged_of (fun j d e => modSlot_decl c j d (hs j ▸ e))
    (fun h j => by rw [hs, modSlot_keeps Slot.reservation c.reservation]; exact h.reservation j)
    (fun z h => hz z ▸ h) (fun _ z p e => Or.inl (hz z ▸ e))

theorem Effect.ranged {s t : State} (h : Effect s t) : s.Ranged → t.Ranged := by
  induction h with
  | refl s => exact id
  | trans _ _ h k => exact fun hs => k (h hs)
  | move i st b => exact ranged_moveTo st b.slots b.decl b.reserve b.zones
  | slot i f c _ => exact ranged_change c (fun _ => rfl) fun _ => modSlot_zone ..
  | steer i m _ =>
    unfold State.giveSteering
    exact ranged_congr (modSlot_keeps Slot.decl rfl) (modSlot_keeps Slot.reservation rfl) fun _ => modSlot_zone ..
  | @reserve s i z d hp hd =>
    intro h
    refine ranged_of (fun j x e => Or.inl ?_) (fun h j => ?_) (fun w => ?_) (fun _ w p e => Or.inl ?_) h
    · by_cases hj : j = i
      · rw [hj, setReservation_slot_self] at e; rw [hj]; exact e
      · rw [(local_setReservation ..).slots j hj] at e; exact e
    · by_cases hj : j = i
      · rw [hj, setReservation_slot_self]
        exact reservationFor_le (hd.elim (h.decl i d) id).power.2 (h.zone z).margin
      · rw [(local_setReservation ..).slots j hj]; exact h.reservation j
    · exact Zone.Ranged.quiet ((calm_setReservation ..).zone w)
    · rw [setReservation_zone] at e
      split at e <;> exact e
  | free i gs => exact ranged_congr (fun _ => by rw [freeSet_slot]) (fun _ => by rw [freeSet_slot]) fun _ => freeSet_zone ..
  | claim i gs _ _ =>
    exact ranged_congr (fun _ => by rw [claimSet_slot]) (fun _ => by rw [claimSet_slot]) fun _ => claimSet_zone ..
  | @zone s z f _ _ hp hr =>
    refine ranged_of (fun j d e => Or.inl ?_) (fun h j => ?_) (fun w hw => ?_) (fun _ w p e => Or.inl ?_)
    · rw [modZone_slot] at e; exact e
    · rw [modZone_slot]; exact h.reservation j
    · rw [modZone_zone]; split
      · next e => exact hr (e ▸ hw)
      · exact hw
    · rw [modZone_zone] at e; split at e
      · next k => rw [k, ← hp]; exact e
      · exact e
  | @hold s i z d _ hd =>
    intro h
    refine ranged_of (fun j d e => Or.inl ?_) (fun h j => ?_) (fun w hw => ?_) (fun h w p e => ?_) h
    · rw [modZone_slot] at e; exact e
    · rw [modZone_slot]; exact h.reservation j
    · rw [modZone_zone]; split
      · next e => exact (e ▸ hw).of rfl rfl rfl rfl
      · exact hw
    · rw [modZone_zone] at e; split at e
      · right
        rw [← Option.some.inj e]
        exact prechargeFor_ranged (h.decl i d hd) (h.zone z)
      · exact Or.inl e
  | @replace s i _ =>
    refine ranged_of (fun j d e => Or.inl ?_) (fun h j => ?_) (fun z => ?_) (fun _ z p e => Or.inl ?_)
    · unfold State.replace at e; rw [joinQueue_slot, leaveQueue_slot] at e; exact e
    · unfold State.replace; rw [joinQueue_slot, leaveQueue_slot]; exact h.reservation j
    · exact Zone.Ranged.quiet (((calm_leaveQueue s i).trans (calm_joinQueue _ i)).zone z)
    · unfold State.replace State.joinQueue State.leaveQueue at e
      rw [modZone_zone, modZone_zone, modZone_zone] at e
      split at e
      · next k => rw [if_pos rfl] at e; rw [k]; exact e
      · exact e
  | regroup i f c _ _ =>
    exact ranged_change c (fun _ => addChange_slot ..) fun _ => by rw [addChange_zone, modSlot_zone]
  | unlist i f c _ _ =>
    exact ranged_change c (fun _ => dropChange_slot ..) fun _ => by rw [dropChange_zone, modSlot_zone]
  | lapse m st _ =>
    refine ranged_congr (fun j => ?_) (fun j => ?_) fun z => ?_
    · rw [setManagerState_slot, dropSteerings_slot]
    · rw [setManagerState_slot, dropSteerings_slot]
    · unfold State.setManagerState; rw [postShelf_zone, modManager_zone]; rfl
  | activate m st _ _ =>
    refine ranged_congr (fun j => by rw [setManagerState_slot]) (fun j => by rw [setManagerState_slot]) fun z => ?_
    unfold State.setManagerState; rw [postShelf_zone, modManager_zone]
  | aside a =>
    exact ranged_congr (fun j => by unfold State.slot; rw [a.slots]) (fun j => by unfold State.slot; rw [a.slots]) a.zones

end Sys2Proof.Machine
end

section

/-! # The ranges over every step, and O56 -/

namespace Sys2Proof.Machine

theorem zoneReset_ranged : Zone.reset.Ranged := by
  constructor <;> decide

theorem ranged_reset {s : State} (hd : ∀ i, (s.slot i).decl = none) (hr : ∀ i, (s.slot i).reservation = 0)
    (hz : ∀ z, s.zone z = Zone.reset) : s.Ranged where
  decl i d e := absurd e (by rw [hd i]; exact nofun)
  reservation i := by rw [hr i]; exact Nat.zero_le _
  zone z := hz z ▸ zoneReset_ranged
  precharge z p e := absurd e (by rw [hz z]; exact nofun)

/-- The survey's classification keeps a zone's configuration and takes no declaration (R179). -/
theorem classifySlot_ranged (s : State) (i : SlotId) (h : s.Ranged) : (s.classifySlot i).Ranged := by
  have hslot : ∀ j, ((s.classifySlot i).slot j).decl = none ∨ (s.classifySlot i).slot j = s.slot j := fun j => by
    by_cases hj : j = i
    · rw [hj, classifySlot_slot_self]; exact Or.inl rfl
    · exact Or.inr (classifySlot_slot_ne s i j hj)
  have hzone : ∀ z, ((s.classifySlot i).zone z).quiet = (s.zone z).quiet ∧
      ∀ p, ((s.classifySlot i).zone z).precharge = some p → (s.zone z).precharge = some p := fun z => by
    unfold State.classifySlot; extract_lets st drive v u
    have hu : u.zone z = (s.vacate i st).zone z := by
      show (v.claimSet i drive).zone z = _
      unfold v; rw [claimSet_zone, modSlot_zone, groupsFor_zone]
    rw [count_zone, (calm_setReservation ..).zone, hu, (calm_vacate ..).zone]
    refine ⟨rfl, fun p hp => ?_⟩
    rw [setReservation_zone, hu] at hp
    have hp : ((s.vacate i st).zone z).precharge = some p := by
      split at hp <;> exact hp
    rw [vacate_zone] at hp
    split at hp
    · exact (freeFrom_precharge hp :)
    · exact hp
  refine ranged_of (fun j d e => ?_) (fun h j => ?_) (fun z => Zone.Ranged.quiet (hzone z).1)
    (fun _ z p e => Or.inl ((hzone z).2 p e)) h
  · rcases hslot j with k | k <;> rw [k] at e
    · cases e
    · exact Or.inl e
  · by_cases hj : j = i
    · rw [hj, classifySlot_slot_self]
      show SlotState.surveyReservation _ ≤ 1000
      unfold SlotState.surveyReservation; split <;> simp
    · rw [classifySlot_slot_ne _ _ _ hj]; exact h.reservation j

theorem tickPrecharge_ranged {v : Zone} (h : ∀ p, v.precharge = some p → p.Ranged) {p : Precharge}
    (e : v.tickPrecharge.precharge = some p) : p.Ranged := by
  unfold Zone.tickPrecharge at e
  split at e
  · next q hq =>
    have k := h q hq
    rw [← Option.some.inj e]
    exact ⟨k.current, k.bulk, k.inrush, k.limit, Nat.min_le_right _ _⟩
  · exact h p e

theorem tickPrecharge_quiet (v : Zone) : v.tickPrecharge.quiet = v.quiet := by
  unfold Zone.tickPrecharge; split <;> rfl

theorem sampleAndCount_ranged (s : State) (x : TickInputs) (h : s.Ranged) : (s.sampleAndCount x).Ranged where
  decl i d e := h.decl i d (by rw [sampleAndCount_slot] at e; exact e)
  reservation i := by rw [sampleAndCount_slot]; exact h.reservation i
  zone z := by
    rw [sampleAndCount_zone]
    exact ((h.zone z).of (w := (s.zone z).sampleFeeds _ _ _) rfl rfl rfl rfl).quiet (tickPrecharge_quiet _)
  precharge z p e := by
    rw [sampleAndCount_zone] at e
    refine tickPrecharge_ranged (fun q hq => ?_) e
    exact h.precharge z q hq

theorem ranged_invariant : Invariant State.Ranged where
  pending s l := ranged_congr (s := s) (fun _ => rfl) (fun _ => rfl) fun z => pending_zone s l z
  effect := Effect.ranged
  powerUp s _ := ranged_reset (fun i => by rw [powerUp_slot]; rfl) (fun i => by rw [powerUp_slot]; rfl) (powerUp_zone s)
  restart s _ := ranged_reset (fun i => by rw [restart_slot]; rfl) (fun i => by rw [restart_slot]; rfl) (restart_zone s)
  classify s _ h := by
    unfold State.classifyAll
    refine ranged_congr (fun _ => by rw [markClassified_slot]) (fun _ => by rw [markClassified_slot])
      (markClassified_zone _) ?_
    exact foldl_invariant (P := State.Ranged) _ _ (fun s i _ => classifySlot_ranged s i) s h
  surveyEnd s _ := ranged_congr (fun i => by rw [surveyEnd_slot]; rfl) (fun i => by rw [surveyEnd_slot]; rfl)
    (surveyEnd_zone s)
  stop s := ranged_congr (fun i => by rw [stopSurvey_slot]) (fun i => by rw [stopSurvey_slot]) (stopSurvey_zone s)
  sample := sampleAndCount_ranged

/-! ## The bounds (R66) -/

theorem reserved_le {s : State} (b : s.Booked) (r : s.Ranged) (z : ZoneId) : (s.zone z).reserved ≤ 8000 := by
  have hle : ((slotsOf z).map fun i => (s.slot i).reservation).sum ≤
      ((slotsOf z).map fun i => (s.slot i).reservation).length • 1000 :=
    List.sum_le_card_nsmul _ _ fun n hn => by
      obtain ⟨i, -, rfl⟩ := List.mem_map.1 hn
      exact r.reservation i
  rw [List.length_map, slotsOf_length] at hle
  rw [b.sums z]
  exact hle

theorem inrush_le {s : State} (r : s.Ranged) (z : ZoneId) : (s.zone z).inrush ≤ 432 := by
  unfold Zone.inrush
  split
  · next p hp =>
    have k := r.precharge z p hp
    have := k.current.2
    rw [k.inrush]; unfold inrushFor; omega
  · exact Nat.zero_le _

/-- Settles O56: the sums move with the reservations, and the bounds follow from the ranges of eight slots. -/
theorem accountsStaySound : Obligations.AccountsStaySound := fun _ _ h =>
  ⟨booked_invariant.step h, ranged_invariant.step h, fun b r z => by
    have b' := booked_invariant.step h b
    have r' := ranged_invariant.step h r
    have h1 := reserved_le b' r' z
    have h2 := inrush_le r' z
    exact ⟨h1, by omega⟩⟩

end Sys2Proof.Machine
end

section

/-! # Steering (R155 to R157, R159): O58 -/

namespace Sys2Proof.Machine

theorem Calm.manager {s t : State} (h : Calm s t) (m : ManagerId) : (t.manager m).quiet = (s.manager m).quiet := by
  cases m
  · exact h.managerA
  · exact h.managerB

theorem Calm.managerState {s t : State} (h : Calm s t) (m : ManagerId) : (t.manager m).state = (s.manager m).state :=
  (congrArg Manager.state (h.manager m) :)

theorem setManagerState_manager (s : State) (m : ManagerId) (st : ManagerState) (n : ManagerId) :
    ((s.setManagerState m st).manager n).state = if n = m then st else (s.manager n).state := by
  unfold State.setManagerState
  rw [postShelf_manager, modManager_manager]
  split <;> rfl

theorem dropSteerings_manager (s : State) (m n : ManagerId) : (s.dropSteerings m).manager n = s.manager n := by
  unfold State.dropSteerings; rw [setSlots_manager]

/-- What keeps the managers' states and gives no slot a steering keeps the steerings sound. -/
theorem steered_of {s t : State} (hi : ∀ i m, (t.slot i).steering = some m → (s.slot i).steering = some m)
    (hm : ∀ m, (t.manager m).state = (s.manager m).state) (hr : t.survey.running = s.survey.running) (h : s.Steered) :
    t.Steered where
  active i m e := by rw [hm]; exact h.active i m (hi i m e)
  survey e m := by rw [hm]; exact h.survey (hr ▸ e) m

theorem Effect.steered {s t : State} (h : Effect s t) : s.Steered → t.Steered := by
  induction h with
  | refl s => exact id
  | trans _ _ h k => exact fun hs => k (h hs)
  | @move s u i st b =>
    refine steered_of (fun j m e => ?_) (fun m => ((calm_moveTo u i st).managerState m).trans (b.manager m))
      ((congrArg Survey.running (calm_moveTo u i st).survey).trans b.running)
    by_cases hj : j = i
    · subst hj
      rw [moveTo_slot_self, moved_steering, b.steer] at e
      split at e
      · cases e
      · exact e
    · rw [(local_moveTo ..).slots j hj, b.slots j hj] at e; exact e
  | slot i f c _ =>
    exact steered_of (fun j m e => modSlot_keeps Slot.steering c.steering j ▸ e) (fun m => by rw [modSlot_manager])
      (by rw [modSlot_survey])
  | @steer s i m hm =>
    intro h
    refine ⟨fun j n e => ?_, fun e n => ?_⟩
    · unfold State.giveSteering at e ⊢
      rw [modSlot_manager]
      rw [modSlot_slot] at e
      split at e
      · cases hs : (s.slot i).steering with
        | none => rw [hs] at e; exact Option.some.inj e ▸ hm
        | some k => rw [hs] at e; exact h.active i n (hs.trans e)
      · exact h.active j n e
    · unfold State.giveSteering at e ⊢
      rw [modSlot_manager]
      rw [modSlot_survey] at e
      exact h.survey e n
  | @reserve s i z d _ _ =>
    refine steered_of (fun j m e => ?_) (fun m => (calm_setReservation ..).managerState m)
      (congrArg Survey.running (calm_setReservation ..).survey)
    by_cases hj : j = i
    · rw [hj, setReservation_slot_self] at e; rw [hj]; exact e
    · rw [(local_setReservation ..).slots j hj] at e; exact e
  | free i gs =>
    exact steered_of (fun j m e => by rwa [freeSet_slot] at e) (fun m => by rw [freeSet_manager]) (by rw [freeSet_survey])
  | claim i gs _ _ =>
    exact steered_of (fun j m e => by rwa [claimSet_slot] at e) (fun m => by rw [claimSet_manager]) (by rw [claimSet_survey])
  | zone z f _ _ _ _ =>
    exact steered_of (fun j m e => by rwa [modZone_slot] at e) (fun m => by rw [modZone_manager]) (by rw [modZone_survey])
  | hold i z d _ _ =>
    exact steered_of (fun j m e => by rwa [modZone_slot] at e) (fun m => by rw [modZone_manager]) (by rw [modZone_survey])
  | @replace s i _ =>
    have c : Calm s (s.replace i) := (calm_leaveQueue s i).trans (calm_joinQueue _ i)
    refine steered_of (fun j m e => ?_) c.managerState (congrArg Survey.running c.survey)
    unfold State.replace at e; rwa [joinQueue_slot, leaveQueue_slot] at e
  | regroup i f c _ _ =>
    exact steered_of (fun j m e => by rw [addChange_slot, modSlot_keeps Slot.steering c.steering] at e; exact e)
      (fun m => by rw [(calm_addChange ..).managerState, modSlot_manager]) rfl
  | unlist i f c _ _ =>
    exact steered_of (fun j m e => by rw [dropChange_slot, modSlot_keeps Slot.steering c.steering] at e; exact e)
      (fun m => by rw [(calm_dropChange ..).managerState, modSlot_manager]) rfl
  | @lapse s m st hst =>
    intro h
    refine ⟨fun j n e => ?_, fun e n => ?_⟩
    · rw [setManagerState_slot, dropSteerings_slot] at e
      have hn : n ≠ m ∧ (s.slot j).steering = some n := by
        by_cases k : (s.slot j).steering = some m
        · simp [k] at e
        · simp only [k, if_false] at e
          exact ⟨fun hnm => k (hnm ▸ e), e⟩
      rw [setManagerState_manager, if_neg hn.1, dropSteerings_manager]
      exact h.active j n hn.2
    · rw [setManagerState_survey, dropSteerings_survey] at e
      rw [setManagerState_manager]; split
      · exact hst
      · rw [dropSteerings_manager]; exact h.survey e n
  | @activate s m st hm hr =>
    intro h
    refine ⟨fun j n e => ?_, fun e n => ?_⟩
    · rw [setManagerState_slot] at e
      have ha := h.active j n e
      rw [setManagerState_manager]; split
      · next hnm => exact hm.resolve_left fun k => k (hnm ▸ ha)
      · exact ha
    · rw [setManagerState_survey, hr] at e; cases e
  | aside a =>
    exact steered_of (fun j m e => by unfold State.slot at e; rw [a.slots] at e; exact e) a.manager a.running

/-! ## Resets and the survey -/

theorem steered_unsteered {s : State} (hs : ∀ i, (s.slot i).steering = none) (hm : ∀ m, (s.manager m).state ≠ .active) :
    s.Steered :=
  ⟨fun i m e => absurd e (by rw [hs i]; exact nofun), fun _ m => hm m⟩

/-- While the survey runs no slot has a steering. -/
theorem State.Steered.none_of_survey {s : State} (h : s.Steered) (hr : s.survey.running = true) (i : SlotId) :
    (s.slot i).steering = none :=
  Option.eq_none_iff_forall_ne_some.2 fun m e => h.survey hr m (h.active i m e)

theorem classifySlot_managers (s : State) (i : SlotId) (m : ManagerId) : (s.classifySlot i).manager m = s.manager m := by
  have hv : ∀ st, (s.vacate i st).manager m = s.manager m := fun st => by
    unfold State.vacate State.discardRegroup State.freeSet State.modLane State.dropChange State.freeChannel State.leaveQueue
    extract_lets u
    split
    · split <;> simp [u]
    · simp [u]
  have hg : ∀ (u : State) st, (u.groupsFor i st).manager m = u.manager m := fun u st => by
    unfold State.groupsFor State.freeGroups; split <;> simp
  have hf : ∀ (u : State) b, (u.markFault i b).manager m = u.manager m := fun u b => by cases m <;> rfl
  unfold State.classifySlot State.setReservation; extract_lets st drive v u
  rw [count_manager, modSlot_manager, modZone_manager]
  unfold u; rw [hf, claimSet_manager]
  unfold v; rw [modSlot_manager, hg, hv]

theorem classifyAll_manager (s : State) (m : ManagerId) : s.classifyAll.manager m = s.manager m := by
  have h : ∀ u : State, u.markClassified.manager m = u.manager m := fun u => by cases m <;> rfl
  unfold State.classifyAll; rw [h]
  exact foldl_invariant (P := fun t => t.manager m = s.manager m) _ _
    (fun u i _ e => (classifySlot_managers u i m).trans e) s rfl

theorem classifySlot_steering (s : State) (i : SlotId) : ((s.classifySlot i).slot i).steering = none := by
  rw [classifySlot_slot_self]; rfl

theorem powerUp_manager (s : State) (m : ManagerId) : s.powerUp.manager m = Manager.reset := by cases m <;> rfl

theorem restart_manager (s : State) (m : ManagerId) : s.restart.manager m = Manager.reset := by
  unfold State.restart; rw [setSlots_manager, powerUp_manager]

theorem surveyEnd_manager (s : State) (m : ManagerId) : s.surveyEnd.manager m = (s.manager m).setFromStrap := by
  cases m <;> rfl

theorem stopSurvey_manager (s : State) (m : ManagerId) : s.stopSurvey.manager m = s.manager m := by cases m <;> rfl

theorem sampleAndCount_manager (s : State) (x : TickInputs) (m : ManagerId) : (s.sampleAndCount x).manager m =
    (s.manager m).tick (s.survey.running && s.survey.ticks = 0) (match m with | .a => x.strapA | .b => x.strapB) := by
  cases m <;> rfl

theorem setFromStrap_not_active (v : Manager) : v.setFromStrap.state ≠ .active := by
  unfold Manager.setFromStrap; cases v.strap <;> exact nofun

/-- A tick leaves a manager's state, but for the survey's first, which makes none ACTIVE (R155). -/
theorem tick_managerState (v : Manager) (first b : Bool) :
    (v.tick first b).state = v.state ∧ first = false ∨ (v.tick first b).state ≠ .active ∧ first = true := by
  cases first with
  | false => exact Or.inl ⟨rfl, rfl⟩
  | true => right; cases b <;> exact ⟨nofun, rfl⟩

theorem sampleAndCount_steered (s : State) (x : TickInputs) (h : s.Steered) : (s.sampleAndCount x).Steered := by
  have hs : ∀ i, ((s.sampleAndCount x).slot i).steering = (s.slot i).steering := fun i => by
    rw [sampleAndCount_slot]; rfl
  have hrun : (s.sampleAndCount x).survey.running = s.survey.running := by
    show s.survey.tick.running = _
    unfold Survey.tick; split <;> rfl
  refine ⟨fun i m e => ?_, fun e m => ?_⟩ <;> rw [sampleAndCount_manager]
  · have ha := h.active i m (hs i ▸ e)
    rcases tick_managerState (s.manager m) (s.survey.running && s.survey.ticks = 0) _ with k | k
    · exact k.1.trans ha
    · exact absurd ha (h.survey (Bool.and_eq_true_iff.1 k.2).1 m)
  · have hn := h.survey (hrun ▸ e) m
    rcases tick_managerState (s.manager m) (s.survey.running && s.survey.ticks = 0) _ with k | k
    · exact fun ha => hn (k.1.symm.trans ha)
    · exact k.1

theorem steered_invariant : Invariant State.Steered where
  pending s l := steered_of (s := s) (fun _ _ e => e) (fun m => by cases m <;> rfl) rfl
  effect := Effect.steered
  powerUp s _ := steered_unsteered (fun i => by rw [powerUp_slot]; rfl) fun m => by rw [powerUp_manager]; decide
  restart s _ := steered_unsteered (fun i => by rw [restart_slot]; rfl) fun m => by rw [restart_manager]; decide
  classify s hr h := steered_unsteered (fun i => classifyAll_all (P := fun r => r.steering = none) s i classifySlot_steering)
    fun m => by rw [classifyAll_manager]; exact h.survey hr m
  surveyEnd s hr h := steered_unsteered (fun i => by rw [surveyEnd_slot]; exact h.none_of_survey hr i) fun m => by
    rw [surveyEnd_manager]; exact setFromStrap_not_active _
  stop s h := ⟨fun i m e => by rw [stopSurvey_manager]; exact h.active i m e, fun e => absurd e Bool.false_ne_true⟩
  sample := sampleAndCount_steered

/-- Settles O58: a steering is given to an ACTIVE manager, and dropped as one leaves ACTIVE. -/
theorem steeringStaysSound : Obligations.SteeringStaysSound := fun _ _ h => steered_invariant.step h

end Sys2Proof.Machine
end

section

/-! # The change list over every step (R114, R127, R128) -/

namespace Sys2Proof.Machine

/-- Whether a slot with this record stands in the change list for a change of this kind (R114, R127). -/
def Slot.Awaits (r : Slot) : ChangeKind → Prop
  | .join => r.state = .joinWait
  | .leave => r.state = .leaveWait
  | .regroup => r.lane.pending.isSome = true

/-- A slot that waits for no change is listed for none. -/
theorem Slot.not_awaits {r : Slot} (h : r.state ≠ .joinWait ∧ r.state ≠ .leaveWait) (hp : r.lane.pending = none) :
    ∀ k, ¬ r.Awaits k
  | .join => h.1
  | .leave => h.2
  | .regroup => fun e => by unfold Slot.Awaits at e; rw [hp] at e; cases e

/-- The change list is sound for slot `i`: its entries are those its record awaits, and a regroup waits in LIVE alone. -/
structure State.Listed (s : State) (i : SlotId) : Prop where
  entry : ∀ k, ⟨i, k⟩ ∈ s.block.list ↔ (s.slot i).Awaits k
  live  : (s.slot i).lane.pending.isSome = true → (s.slot i).state = .live

/-- The shape of the change list: each slot at most once, LEAVE entries first (R127, R128). -/
structure Shaped (l : List ChangeEntry) : Prop where
  once  : (l.map (·.slot)).Nodup
  order : l.Pairwise fun x y => y.kind = .leave → x.kind = .leave

theorem listSound_iff {s : State} : s.ListSound ↔ Shaped s.block.list ∧ ∀ i, s.Listed i := by
  constructor
  · exact fun h => ⟨⟨h.once, h.order⟩, fun i => ⟨fun k => by
      cases k
      · exact h.join i
      · exact h.leave i
      · exact h.regroup i, h.live i⟩⟩
  · exact fun ⟨hs, hl⟩ => ⟨hs.once, fun i => (hl i).entry .join, fun i => (hl i).entry .leave,
      fun i => (hl i).entry .regroup, fun i => (hl i).live, hs.order⟩

theorem Shaped.filter {l : List ChangeEntry} (h : Shaped l) (p : ChangeEntry → Bool) : Shaped (l.filter p) :=
  ⟨h.once.sublist (List.filter_sublist.map _), h.order.sublist List.filter_sublist⟩

theorem not_mem_filter_slot (i : SlotId) (l : List ChangeEntry) :
    i ∉ (l.filter fun x => decide (x.slot ≠ i)).map (·.slot) := by
  rw [List.mem_map]
  rintro ⟨x, hx, rfl⟩
  simpa using (List.mem_filter.1 hx).2

/-- An entry of a new slot is inserted in the shape of the list (R128). -/
theorem Shaped.insert {l : List ChangeEntry} (h : Shaped l) {e : ChangeEntry} (he : e.slot ∉ l.map (·.slot)) :
    Shaped (insertChange e l) := by
  have last : e.kind ≠ .leave → Shaped (l ++ [e]) := fun hk => by
    constructor
    · rw [List.map_append, List.map_singleton, List.nodup_append]
      refine ⟨h.once, List.nodup_singleton _, fun a ha b hb => ?_⟩
      rw [List.mem_singleton.1 hb]
      exact fun e' => he (e' ▸ ha)
    · rw [List.pairwise_append]
      refine ⟨h.order, List.pairwise_singleton _ _, fun a _ b hb k => ?_⟩
      rw [List.mem_singleton.1 hb] at k; exact absurd k hk
  unfold insertChange
  split
  · next hk =>
    constructor
    · have hp : (l.filter (fun x => x.kind = .leave) ++ e :: l.filter (fun x => x.kind ≠ .leave)).Perm (e :: l) := by
        refine List.perm_middle.trans (List.Perm.cons _ ?_)
        simpa using List.filter_append_perm (fun x : ChangeEntry => decide (x.kind = .leave)) l
      rw [(hp.map _).nodup_iff, List.map_cons, List.nodup_cons]
      exact ⟨he, h.once⟩
    · rw [List.pairwise_append, List.pairwise_cons]
      have hl : ∀ x ∈ l.filter (fun x => x.kind = .leave), x.kind = .leave := fun x hx => by
        simpa using (List.mem_filter.1 hx).2
      refine ⟨h.order.sublist List.filter_sublist, ⟨fun x hx k => hk, h.order.sublist List.filter_sublist⟩,
        fun a ha _ _ _ => hl a ha⟩
  · next hk => exact last (by rw [hk]; decide)
  · next hk => exact last (by rw [hk]; decide)

/-- A state with the list, the states and the pending regroups of a sound one is sound. -/
theorem listSound_of {s t : State} (hl : t.block.list = s.block.list) (hs : ∀ i, (t.slot i).state = (s.slot i).state)
    (hp : ∀ i, (t.slot i).lane.pending.isSome = (s.slot i).lane.pending.isSome) (h : s.ListSound) : t.ListSound where
  once := hl ▸ h.once
  join i := by rw [hl, hs]; exact h.join i
  leave i := by rw [hl, hs]; exact h.leave i
  regroup i := by rw [hl, hp]; exact h.regroup i
  live i := by rw [hs, hp]; exact h.live i
  order := hl ▸ h.order

/-- A change of slot `i` and of its own entries keeps the list sound where it is sound for that slot. -/
theorem listSound_slot {s t : State} (i : SlotId) (hn : ∀ j, j ≠ i → t.slot j = s.slot j)
    (hl : ∀ x : ChangeEntry, x.slot ≠ i → (x ∈ t.block.list ↔ x ∈ s.block.list)) (hsh : Shaped t.block.list)
    (hi : t.Listed i) (h : s.ListSound) : t.ListSound := by
  refine listSound_iff.2 ⟨hsh, fun j => ?_⟩
  by_cases hj : j = i
  · exact hj ▸ hi
  · have k := (listSound_iff.1 h).2 j
    exact ⟨fun m => by rw [hn j hj, hl _ hj]; exact k.entry m, by rw [hn j hj]; exact k.live⟩

theorem moveTo_list (s : State) (i : SlotId) (st : SlotState) : (s.moveTo i st).block.list =
    match st with
    | .joinWait => insertChange ⟨i, .join⟩ (s.block.list.filter fun x => x.slot ≠ i)
    | .leaveWait => insertChange ⟨i, .leave⟩ (s.block.list.filter fun x => x.slot ≠ i)
    | _ => s.block.list.filter fun x => x.slot ≠ i :=
  (congrArg WindowBlock.list (moveTo_block s i st)).trans (by cases st <;> rfl)

theorem moveTo_shaped {s : State} {i : SlotId} (h : Shaped (s.block.list.filter fun x => x.slot ≠ i)) (st : SlotState) :
    Shaped (s.moveTo i st).block.list := by
  rw [moveTo_list]
  split
  · exact h.insert (not_mem_filter_slot i _)
  · exact h.insert (not_mem_filter_slot i _)
  · exact h

/-- A slot that has gone to a state stands in the list as its new state has it. -/
theorem moveTo_listedFor (s : State) (i : SlotId) (st : SlotState) : (s.moveTo i st).Listed i where
  entry k := by
    rw [moveTo_listed s i st ⟨i, k⟩ rfl, moveTo_slot_self]
    cases k <;> simp [Slot.Awaits]
  live h := by rw [moveTo_slot_self, moved_pending] at h; cases h

theorem mem_of_filter_eq {l m : List ChangeEntry} {i : SlotId}
    (h : l.filter (fun e => e.slot ≠ i) = m.filter (fun e => e.slot ≠ i)) {x : ChangeEntry} (hx : x.slot ≠ i) :
    x ∈ l ↔ x ∈ m := by
  have e := congrArg (x ∈ ·) h
  simpa [hx] using e

theorem modSlot_pending_isSome {s : State} {i : SlotId} {f : Slot → Slot}
    (h : (f (s.slot i)).lane.pending.isSome = (s.slot i).lane.pending.isSome) (j : SlotId) :
    ((s.modSlot i f).slot j).lane.pending.isSome = (s.slot j).lane.pending.isSome :=
  modSlot_keeps (fun r => r.lane.pending.isSome) h j

theorem addChange_list (s : State) (i : SlotId) (k : ChangeKind) : (s.addChange i k).block.list =
    insertChange ⟨i, k⟩ (s.block.list.filter fun e => e.slot ≠ i) := rfl

theorem dropChange_list (s : State) (i : SlotId) :
    (s.dropChange i).block.list = s.block.list.filter fun e => e.slot ≠ i := rfl

theorem Effect.listSound {s t : State} (h : Effect s t) : s.ListSound → t.ListSound := by
  induction h with
  | refl s => exact id
  | trans _ _ h k => exact fun hs => k (h hs)
  | @move s u i st b =>
    intro h
    refine listSound_slot (s := s) i (fun j hj => by rw [(local_moveTo ..).slots j hj, b.slots j hj]) (fun x hx => ?_)
      (moveTo_shaped (b.list ▸ (listSound_iff.1 h).1.filter _) st) (moveTo_listedFor ..) h
    exact ((local_moveTo u i st).listed x hx).trans (mem_of_filter_eq b.list hx)
  | slot i f c hp =>
    exact listSound_of (by rw [modSlot_block]) (modSlot_keeps Slot.state c.state) (modSlot_pending_isSome hp)
  | steer i m _ =>
    unfold State.giveSteering
    exact listSound_of (by rw [modSlot_block]) (modSlot_keeps Slot.state rfl) (modSlot_pending_isSome rfl)
  | reserve i z d _ _ =>
    unfold State.setReservation
    exact listSound_of (by rw [modSlot_block, modZone_block])
      (fun j => by rw [modSlot_keeps Slot.state rfl, modZone_slot])
      fun j => by rw [modSlot_pending_isSome rfl, modZone_slot]
  | free i gs => exact listSound_of (by rw [freeSet_block]) (fun _ => by rw [freeSet_slot]) fun _ => by rw [freeSet_slot]
  | claim i gs _ _ =>
    exact listSound_of (by rw [claimSet_block]) (fun _ => by rw [claimSet_slot]) fun _ => by rw [claimSet_slot]
  | zone z f _ _ _ _ =>
    exact listSound_of (by rw [modZone_block]) (fun _ => by rw [modZone_slot]) fun _ => by rw [modZone_slot]
  | hold i z d _ _ =>
    exact listSound_of (by rw [modZone_block]) (fun _ => by rw [modZone_slot]) fun _ => by rw [modZone_slot]
  | @replace s i _ =>
    refine listSound_of (s := s) ?_ (fun _ => ?_) fun _ => ?_
    · unfold State.replace State.joinQueue State.leaveQueue; rw [modZone_block, modZone_block]
    · unfold State.replace; rw [joinQueue_slot, leaveQueue_slot]
    · unfold State.replace; rw [joinQueue_slot, leaveQueue_slot]
  | @regroup s i f c hlive hpend =>
    intro h
    have hl := local_addChange (s.modSlot i f) i .regroup
    have hs : ((s.modSlot i f).addChange i .regroup).slot i = f (s.slot i) := by rw [addChange_slot, modSlot_slot_self]
    refine listSound_slot (s := s) i (fun j hj => by rw [addChange_slot, modSlot_slot_ne _ _ _ hj]) (fun x hx => ?_) ?_ ?_ h
    · rw [hl.listed x hx, modSlot_block]
    · rw [addChange_list, modSlot_block]
      exact ((listSound_iff.1 h).1.filter _).insert (not_mem_filter_slot i _)
    · refine ⟨fun k => ?_, fun _ => by rw [hs, c.state]; exact hlive⟩
      have hn : (⟨i, k⟩ : ChangeEntry) ∉ s.block.list.filter fun e => e.slot ≠ i := fun hm => by
        simpa using (List.mem_filter.1 hm).2
      rw [addChange_list, modSlot_block, mem_insertChange, hs]
      cases k <;> simp [Slot.Awaits, c.state, hlive, hpend]
  | @unlist s i f c hk hpend =>
    intro h
    have hs : ((s.modSlot i f).dropChange i).slot i = f (s.slot i) := by rw [dropChange_slot, modSlot_slot_self]
    have other : ∀ k, k ≠ .regroup → ¬ (s.slot i).Awaits k := fun k hkr ha => by
      rcases hk with hk | hk
      · cases k <;> simp [Slot.Awaits, hk] at ha hkr
      · exact hkr (hk h.once ⟨i, k⟩ (((listSound_iff.1 h).2 i).entry k |>.2 ha) rfl)
    refine listSound_slot (s := s) i (fun j hj => by rw [dropChange_slot, modSlot_slot_ne _ _ _ hj]) (fun x hx => ?_) ?_ ?_ h
    · rw [(local_dropChange ..).listed x hx, modSlot_block]
    · rw [dropChange_list, modSlot_block]
      exact (listSound_iff.1 h).1.filter _
    · refine ⟨fun k => ?_, fun e => by rw [hs, hpend] at e; cases e⟩
      have hn : (⟨i, k⟩ : ChangeEntry) ∉ s.block.list.filter fun e => e.slot ≠ i := fun hm => by
        simpa using (List.mem_filter.1 hm).2
      rw [dropChange_list, modSlot_block, hs]
      refine iff_of_false hn fun ha => ?_
      cases k with
      | regroup => simp [Slot.Awaits, hpend] at ha
      | join => exact other .join (by decide) (c.state.symm.trans ha)
      | leave => exact other .leave (by decide) (c.state.symm.trans ha)
  | lapse m st _ =>
    refine listSound_of ?_ (fun j => ?_) fun j => ?_
    · unfold State.setManagerState; rw [postShelf_block, modManager_block]; rfl
    · rw [setManagerState_slot, dropSteerings_slot]
    · rw [setManagerState_slot, dropSteerings_slot]
  | activate m st _ _ =>
    refine listSound_of ?_ (fun j => by rw [setManagerState_slot]) fun j => by rw [setManagerState_slot]
    unfold State.setManagerState; rw [postShelf_block, modManager_block]
  | aside a =>
    exact listSound_of a.list (fun j => by unfold State.slot; rw [a.slots]) fun j => by unfold State.slot; rw [a.slots]

/-! ## Resets and the survey -/

theorem listSound_empty {s : State} (hl : s.block.list = [])
    (hs : ∀ i, (s.slot i).state ≠ .joinWait ∧ (s.slot i).state ≠ .leaveWait) (hp : ∀ i, (s.slot i).lane.pending = none) :
    s.ListSound :=
  listSound_iff.2 ⟨by rw [hl]; exact ⟨List.nodup_nil, .nil⟩, fun i => ⟨fun k => by
    rw [hl]
    exact iff_of_false (by simp) (Slot.not_awaits (hs i) (hp i) k), fun h => by rw [hp i] at h; cases h⟩⟩

/-- The survey finds no slot in a state that waits in the change list, and drops what one might hold there. -/
theorem classifySlot_list (s : State) (i : SlotId) :
    (s.classifySlot i).block.list = s.block.list.filter fun e => e.slot ≠ i := by
  have hv : (s.vacate i (s.slot i).classification).block.list = s.block.list.filter fun e => e.slot ≠ i := by
    unfold State.vacate; extract_lets u
    rw [if_neg (classification_ne_draining _), dropChange_list]
    unfold State.freeChannel State.leaveQueue; rw [modZone_block, modZone_block]
  have hg : ∀ (u : State) st, (u.groupsFor i st).block = u.block := fun u st => by
    unfold State.groupsFor State.freeGroups; split <;> simp
  unfold State.classifySlot State.setReservation; extract_lets st drive v u
  rw [count_block, modSlot_block, modZone_block]
  show (v.claimSet i drive).block.list = _
  unfold v; rw [claimSet_block, modSlot_block, hg, hv]

theorem classifySlot_pending (s : State) (i : SlotId) : ((s.classifySlot i).slot i).lane.pending = none := by
  rw [classifySlot_slot_self]; rfl

theorem classifySlot_listSound (s : State) (i : SlotId) (h : s.ListSound) : (s.classifySlot i).ListSound := by
  refine listSound_slot (s := s) i (fun j hj => classifySlot_slot_ne s i j hj) (fun x hx => ?_) ?_ ?_ h
  · rw [classifySlot_list]; simp [hx]
  · rw [classifySlot_list]; exact (listSound_iff.1 h).1.filter _
  · refine ⟨fun k => ?_, fun e => by rw [classifySlot_pending] at e; cases e⟩
    rw [classifySlot_list]
    refine iff_of_false (fun hm => by simpa using (List.mem_filter.1 hm).2)
      (Slot.not_awaits ?_ (classifySlot_pending s i) k)
    rw [classifySlot_state]
    rcases classification_cases (s.slot i) with e | e | e | e | e <;> rw [e] <;> decide

theorem markClassified_block (s : State) : s.markClassified.block = s.block := rfl

theorem listSound_invariant : Invariant State.ListSound where
  pending s l := listSound_of (s := s) (t := { s with pending := l }) rfl (fun _ => rfl) fun _ => rfl
  effect := Effect.listSound
  powerUp s _ := by
    refine listSound_empty rfl (fun i => ?_) fun i => ?_ <;> rw [powerUp_slot]
    · exact ⟨by decide, by decide⟩
    · rfl
  restart s _ := by
    refine listSound_empty rfl (fun i => ?_) fun i => ?_ <;> rw [restart_slot]
    · exact ⟨nofun, nofun⟩
    · rfl
  classify s _ h := by
    unfold State.classifyAll
    refine listSound_of (s := allSlots.foldl (fun s i => s.classifySlot i) s) (by rw [markClassified_block]) (fun _ => by rw [markClassified_slot])
      (fun _ => by rw [markClassified_slot]) ?_
    exact foldl_invariant (P := State.ListSound) _ _ (fun s i _ => classifySlot_listSound s i) s h
  surveyEnd s _ := listSound_of (s := s) (t := s.surveyEnd) rfl (fun i => by rw [surveyEnd_slot]; rfl) fun i => by
    rw [surveyEnd_slot]; rfl
  stop s := listSound_of (s := s) (t := s.stopSurvey) rfl (fun i => by rw [stopSurvey_slot]) fun i => by rw [stopSurvey_slot]
  sample s x := listSound_of (s := s) (t := s.sampleAndCount x) rfl (fun i => by rw [sampleAndCount_slot]; rfl) fun i => by
    rw [sampleAndCount_slot]; rfl

end Sys2Proof.Machine
end

section

/-! # What an event does before its heads are examined: the slots that leave their queues and those that are placed

`Deeds a L s t`: an event leads from `s` to `t`, with no admission, and has placed the slots of `L` in their queues, in
that order. The proposition `a` says whether the lanes and the attempt counts are followed too: two of the commands keep
those by the soundness of the timers and the change list alone. -/

namespace Sys2Proof.Machine

/-! ## The relation -/

/-- The holder of a zone's precharge channel. -/
def Zone.held (z : Zone) : Option SlotId := z.precharge.map (·.holder)

/-- The lanes stand in the mode that the state brings with it, with nothing to transmit (Table 1-3). -/
def Slot.LanesOk (r : Slot) : Prop := ∀ m, r.state.laneMode = some m → r.lane.commanded = m ∧ r.lane.transmit = 0

/-- The attempt count is below 3, but for a slot that the third attempt has barred (R5). -/
def Slot.AttemptsOk (r : Slot) : Prop := r.attempts ≤ 3 ∧ (r.attempts = 3 → r.state = .barred)

/-- A change of a record that keeps its lanes and its attempt count sound, where `a` holds. -/
structure Follows (a : Prop) (r v : Slot) : Prop where
  lanes    : a → r.LanesOk → v.LanesOk
  attempts : a → r.AttemptsOk → v.AttemptsOk

/-- A change of a record in its state, with its effective priority and its override kept while it is QUEUED. -/
structure Mild (a : Prop) (r v : Slot) : Prop extends Follows a r v where
  state  : v.state = r.state
  queued : r.state = .queued → v.effectivePriority = r.effectivePriority ∧ v.override = r.override

/-- The queues and the holders of the channels are kept, and the slots in their states. -/
structure Keeps (a : Prop) (s t : State) : Prop where
  slots : ∀ i, Mild a (s.slot i) (t.slot i)
  queue : ∀ z, (t.zone z).queue = (s.zone z).queue
  held  : ∀ z, (t.zone z).held = (s.zone z).held

/-- Slot `i` alone changes; it goes to no PRECHARGE, and gives up the channel of its zone unless it is in no PRECHARGE
before either. -/
structure Turns (a : Prop) (i : SlotId) (s t : State) : Prop extends Follows a (s.slot i) (t.slot i) where
  others : ∀ j, j ≠ i → t.slot j = s.slot j
  state  : (t.slot i).state ≠ .precharge
  held   : ∀ z, (t.zone z).held = (if z = zoneOf i ∧ (s.zone z).held = some i then none else (s.zone z).held) ∨
    ((s.slot i).state ≠ .precharge ∧ (t.zone z).held = (s.zone z).held)

/-- Slot `i` leaves its zone's queue, or stands in none, and the rest close up (R84). -/
structure Leaves (a : Prop) (i : SlotId) (s t : State) : Prop extends Turns a i s t where
  unqueued : (t.slot i).state ≠ .queued
  queue    : ∀ z, (t.zone z).queue =
    if z = zoneOf i then (s.zone z).queue.filter (fun e => e.slot ≠ i) else (s.zone z).queue

/-- Slot `i` takes a place in its zone's queue, behind its equals (R82). -/
structure Places (a : Prop) (i : SlotId) (s t : State) : Prop extends Turns a i s t where
  queued : (t.slot i).state = .queued
  queue  : ∀ z, (t.zone z).queue =
    if z = zoneOf i then placeEntry ⟨i, (t.slot i).effectivePriority⟩ ((s.zone z).queue.filter (fun e => e.slot ≠ i))
    else (s.zone z).queue

/-- What an event does before its heads are examined, with the slots it places. -/
inductive Deeds (a : Prop) : List SlotId → State → State → Prop
  | keep {s t} : Keeps a s t → Deeds a [] s t
  | leave {s t} (i) : Leaves a i s t → Deeds a [] s t
  | place {s t} (i) : Places a i s t → Deeds a [i] s t
  | trans {L M s t u} : Deeds a L s t → Deeds a M t u → Deeds a (L ++ M) s u

/-! ## What it keeps -/

section
variable {a : Prop} {L : List SlotId} {s t : State}

/-- No slot is admitted. -/
theorem Deeds.precharge (h : Deeds a L s t) : ∀ i, (t.slot i).state = .precharge → (s.slot i).state = .precharge := by
  have turn : ∀ {i s t}, Turns a i s t → ∀ j, (t.slot j).state = .precharge → (s.slot j).state = .precharge :=
    fun {i s t} k j hj => by
      by_cases hji : j = i
      · subst hji; exact absurd hj k.state
      · rwa [← k.others j hji]
  induction h with
  | keep k => exact fun i hi => (k.slots i).state ▸ hi
  | leave i k => exact turn k.toTurns
  | place i k => exact turn k.toTurns
  | trans _ _ h k => exact fun i hi => h i (k i hi)

/-- A slot that is not placed is QUEUED after the event only if it was before, with the same override. -/
theorem Deeds.unplaced (h : Deeds a L s t) : ∀ i, i ∉ L → (t.slot i).state = .queued →
    (s.slot i).state = .queued ∧ (t.slot i).override = (s.slot i).override := by
  induction h with
  | keep k =>
    intro i _ hi
    have hs := (k.slots i).state ▸ hi
    exact ⟨hs, ((k.slots i).queued hs).2⟩
  | leave i k =>
    intro j _ hj
    by_cases hji : j = i
    · subst hji; exact absurd hj k.unqueued
    · rw [← k.others j hji]; exact ⟨hj, rfl⟩
  | place i k =>
    intro j hn hj
    rw [← k.others j fun e => hn (by simp [e])]; exact ⟨hj, rfl⟩
  | trans _ _ h k =>
    intro i hn hi
    rw [List.mem_append, not_or] at hn
    obtain ⟨ht, ho⟩ := k i hn.2 hi
    obtain ⟨hs, hp⟩ := h i hn.1 ht
    exact ⟨hs, ho.trans hp⟩

/-- The queues less the placed slots only close up (R84). -/
theorem Deeds.queue (h : Deeds a L s t) : ∀ M : List SlotId, L ⊆ M → ∀ z,
    ((t.zone z).queue.filter fun e => decide (e.slot ∉ M)).Sublist
      ((s.zone z).queue.filter fun e => decide (e.slot ∉ M)) := by
  induction h with
  | keep k => exact fun M _ z => k.queue z ▸ List.Sublist.refl _
  | leave i k =>
    intro M _ z
    rw [k.queue]; split
    · exact List.filter_sublist.filter _
    · exact List.Sublist.refl _
  | place i k =>
    intro M hM z
    rw [k.queue]; split
    · rw [placeEntry_filter _ _ _ (by simpa using hM (List.mem_singleton_self i))]
      exact List.filter_sublist.filter _
    · exact List.Sublist.refl _
  | trans _ _ h k =>
    intro M hM z
    obtain ⟨h1, h2⟩ := List.append_subset.1 hM
    exact (k M h2 z).trans (h M h1 z)

theorem Deeds.lanes (h : Deeds a L s t) (ha : a) : s.LanesSound → t.LanesSound := by
  have turn : ∀ {i s t}, Turns a i s t → s.LanesSound → t.LanesSound := fun {i s t} k hs j => by
    by_cases hji : j = i
    · subst hji; exact k.lanes ha (hs j)
    · rw [k.others j hji]; exact hs j
  induction h with
  | keep k => exact fun hs i => (k.slots i).lanes ha (hs i)
  | leave i k => exact turn k.toTurns
  | place i k => exact turn k.toTurns
  | trans _ _ h k => exact fun hs => k (h hs)

theorem Deeds.attempts (h : Deeds a L s t) (ha : a) : s.AttemptsSound → t.AttemptsSound := by
  have turn : ∀ {i s t}, Turns a i s t → s.AttemptsSound → t.AttemptsSound := fun {i s t} k hs j => by
    by_cases hji : j = i
    · subst hji; exact k.attempts ha (hs j)
    · rw [k.others j hji]; exact hs j
  induction h with
  | keep k => exact fun hs i => (k.slots i).attempts ha (hs i)
  | leave i k => exact turn k.toTurns
  | place i k => exact turn k.toTurns
  | trans _ _ h k => exact fun hs => k (h hs)

end

/-! ## The channel (R88) -/

theorem held_eq_some {z : Zone} {i : SlotId} : z.held = some i ↔ ∃ p, z.precharge = some p ∧ p.holder = i := by
  unfold Zone.held; rw [Option.map_eq_some_iff]

theorem channelSound_iff {s : State} : s.ChannelSound ↔
    ∀ z i, (s.zone z).held = some i ↔ zoneOf i = z ∧ (s.slot i).state = .precharge := by
  constructor
  · intro h z i
    rw [held_eq_some]
    constructor
    · rintro ⟨p, hp, rfl⟩; exact h.holder z p hp
    · rintro ⟨rfl, hi⟩; exact h.held i hi
  · intro h
    refine ⟨fun z p hp => (h z p.holder).1 (held_eq_some.2 ⟨p, hp, rfl⟩), fun i hi => held_eq_some.1 ((h _ i).2 ⟨rfl, hi⟩)⟩

theorem Turns.channel {a : Prop} {i : SlotId} {s t : State} (k : Turns a i s t) (h : s.ChannelSound) :
    t.ChannelSound := by
  rw [channelSound_iff] at h ⊢
  intro z j
  have hz := h z j
  have hi := h z i
  by_cases hj : j = i
  · subst hj
    refine iff_of_false (fun e => ?_) fun e => k.state e.2
    rcases k.held z with e' | ⟨hp, e'⟩ <;> rw [e'] at e
    · split at e
      · cases e
      · next hn => exact hn ⟨(hz.1 e).1.symm, e⟩
    · exact hp (hz.1 e).2
  · rw [k.others j hj, ← hz]
    rcases k.held z with e' | ⟨-, e'⟩ <;> rw [e']
    split
    · next hn => rw [hn.2]; simp [Ne.symm hj]
    · exact Iff.rfl

theorem Deeds.channel {a : Prop} {L : List SlotId} {s t : State} (h : Deeds a L s t) :
    s.ChannelSound → t.ChannelSound := by
  induction h with
  | keep k =>
    intro hs
    rw [channelSound_iff] at hs ⊢
    exact fun z i => by rw [k.held, (k.slots i).state]; exact hs z i
  | leave i k => exact k.toTurns.channel
  | place i k => exact k.toTurns.channel
  | trans _ _ h k => exact fun hs => k (h hs)

/-! ## The queue (R81 to R84) -/

theorem mem_placeEntry {e x : QueueEntry} {l : List QueueEntry} : x ∈ placeEntry e l ↔ x = e ∨ x ∈ l := by
  induction l with
  | nil => simp [placeEntry]
  | cons y ys ih =>
    unfold placeEntry; split
    · rw [List.mem_cons, ih, List.mem_cons]; tauto
    · rw [List.mem_cons]

theorem placeEntry_perm (e : QueueEntry) (l : List QueueEntry) : (placeEntry e l).Perm (e :: l) := by
  induction l with
  | nil => exact List.Perm.refl _
  | cons y ys ih =>
    unfold placeEntry; split
    · exact (ih.cons y).trans (List.Perm.swap ..)
    · exact List.Perm.refl _

/-- A relation between the entries of a queue in its order is kept by the placing of an entry that stands in it with the
entries of its own or a lower priority number before it and the others behind it. -/
theorem placeEntry_pairwise {R : QueueEntry → QueueEntry → Prop} {e : QueueEntry} {l : List QueueEntry}
    (hl : l.Pairwise R) (ho : l.Pairwise fun x y => x.priority ≤ y.priority)
    (hb : ∀ x ∈ l, x.priority ≤ e.priority → R x e) (ha : ∀ x ∈ l, e.priority < x.priority → R e x) :
    (placeEntry e l).Pairwise R := by
  induction l with
  | nil => exact List.pairwise_singleton _ _
  | cons y ys ih =>
    rw [List.pairwise_cons] at hl ho
    unfold placeEntry; split
    · next hy =>
      rw [List.pairwise_cons]
      refine ⟨fun x hx => ?_, ih hl.2 ho.2 (fun x hx => hb x (List.mem_cons_of_mem _ hx))
        fun x hx => ha x (List.mem_cons_of_mem _ hx)⟩
      rcases mem_placeEntry.1 hx with rfl | hx
      · exact hb y List.mem_cons_self hy
      · exact hl.1 x hx
    · next hy =>
      rw [List.pairwise_cons]
      refine ⟨fun x hx => ha x hx ?_, List.pairwise_cons.2 hl⟩
      rcases List.mem_cons.1 hx with rfl | hx
      · exact not_le.1 hy
      · exact (not_le.1 hy).trans_le (ho.1 x hx)

theorem State.QueueSound.sorted {s : State} (h : s.QueueSound) (z : ZoneId) :
    (s.zone z).queue.Pairwise fun x y => x.priority ≤ y.priority := List.pairwise_map.1 (h.order z)

/-- A sound queue stays so when slots close up in it: those that leave are no longer QUEUED, and the rest keep their
states and effective priorities. -/
theorem queueSound_of_sublist {s t : State} (h : s.QueueSound) (hq : ∀ z, (t.zone z).queue.Sublist (s.zone z).queue)
    (hm : ∀ z, ∀ e ∈ (s.zone z).queue, e ∈ (t.zone z).queue ↔ (t.slot e.slot).state = .queued)
    (hs : ∀ i, (t.slot i).state = .queued → (s.slot i).state = .queued ∧
      (t.slot i).effectivePriority = (s.slot i).effectivePriority) : t.QueueSound where
  member z i := by
    constructor
    · rintro ⟨e, he, rfl⟩
      have hz := (hq z).mem he
      exact ⟨(hm z e hz).1 he, ((h.member z _).1 ⟨e, hz, rfl⟩).2⟩
    · rintro ⟨hi, hz⟩
      obtain ⟨e, he, rfl⟩ := (h.member z i).2 ⟨(hs i hi).1, hz⟩
      exact ⟨e, (hm z e he).2 hi, rfl⟩
  once z := (h.once z).sublist ((hq z).map _)
  priority z e he := by
    have hz := (hq z).mem he
    rw [(hs e.slot ((hm z e hz).1 he)).2]; exact h.priority z e hz
  order z := (h.order z).sublist ((hq z).map _)

/-- The queues once slot `i` has left its own. -/
theorem mem_left {s : State} (h : s.QueueSound) {i : SlotId} {z : ZoneId} {e : QueueEntry}
    (he : e ∈ (s.zone z).queue) :
    e ∈ (if z = zoneOf i then (s.zone z).queue.filter (fun e => e.slot ≠ i) else (s.zone z).queue) ↔ e.slot ≠ i := by
  have hz := ((h.member z e.slot).1 ⟨e, he, rfl⟩).2
  split
  · simp [he]
  · next hn =>
    refine iff_of_true he ?_
    rintro rfl; exact hn hz.symm

theorem Leaves.queueSound {a : Prop} {i : SlotId} {s t : State} (k : Leaves a i s t) (h : s.QueueSound) :
    t.QueueSound := by
  refine queueSound_of_sublist h (fun z => ?_) (fun z e he => ?_) fun j hj => ?_
  · rw [k.queue]; split
    · exact List.filter_sublist
    · exact List.Sublist.refl _
  · rw [k.queue, mem_left h he]
    constructor
    · intro hn; rw [k.others _ hn]; exact ((h.member z _).1 ⟨e, he, rfl⟩).1
    · rintro hq rfl; exact k.unqueued hq
  · have hn : j ≠ i := fun e => k.unqueued (e ▸ hj)
    rw [k.others j hn] at hj ⊢; exact ⟨hj, rfl⟩

theorem Places.queueSound {a : Prop} {i : SlotId} {s t : State} (k : Places a i s t) (h : s.QueueSound) :
    t.QueueSound := by
  have old : ∀ z, ∀ e ∈ (s.zone z).queue.filter (fun e => decide (e.slot ≠ i)), e.slot ≠ i ∧ e ∈ (s.zone z).queue :=
    fun z e he => by simpa [and_comm] using he
  have mem : ∀ z e, e ∈ (t.zone z).queue ↔
      (z = zoneOf i ∧ e = ⟨i, (t.slot i).effectivePriority⟩) ∨ (e.slot ≠ i ∧ e ∈ (s.zone z).queue) := by
    intro z e
    rw [k.queue]; split
    · next hz => simp [mem_placeEntry, hz, and_comm]
    · next hz =>
      simp only [hz, false_and, false_or, iff_and_self]
      exact fun he e' => hz ((h.member z i).1 ⟨e, he, e'⟩).2.symm
  constructor
  · intro z j
    constructor
    · rintro ⟨e, he, rfl⟩
      rcases (mem z e).1 he with ⟨rfl, rfl⟩ | ⟨hn, he⟩
      · exact ⟨k.queued, rfl⟩
      · rw [k.others _ hn]; exact (h.member z _).1 ⟨e, he, rfl⟩
    · rintro ⟨hj, rfl⟩
      by_cases hji : j = i
      · subst hji; exact ⟨_, (mem _ _).2 (Or.inl ⟨rfl, rfl⟩), rfl⟩
      · rw [k.others j hji] at hj
        obtain ⟨e, he, rfl⟩ := (h.member _ j).2 ⟨hj, rfl⟩
        exact ⟨e, (mem _ e).2 (Or.inr ⟨hji, he⟩), rfl⟩
  · intro z
    rw [k.queue]; split
    · rw [((placeEntry_perm _ _).map _).nodup_iff, List.map_cons, List.nodup_cons]
      refine ⟨fun hm => ?_, (h.once z).sublist (List.filter_sublist.map _)⟩
      obtain ⟨e, he, hi⟩ := List.mem_map.1 hm
      exact (old z e he).1 hi
    · exact h.once z
  · intro z e he
    rcases (mem z e).1 he with ⟨-, rfl⟩ | ⟨hn, he⟩
    · rfl
    · rw [k.others _ hn]; exact h.priority z e he
  · intro z
    rw [List.pairwise_map, k.queue]; split
    · have hs := (h.sorted z).sublist (List.filter_sublist (p := fun e => decide (e.slot ≠ i)))
      exact placeEntry_pairwise hs hs (fun _ _ hx => hx) fun _ _ hx => hx.le
    · exact h.sorted z

theorem Keeps.queueSound {a : Prop} {s t : State} (k : Keeps a s t) (h : s.QueueSound) : t.QueueSound where
  member z i := by rw [k.queue, (k.slots i).state]; exact h.member z i
  once z := k.queue z ▸ h.once z
  priority z e he := by
    rw [k.queue] at he
    rw [((k.slots _).queued ((h.member z _).1 ⟨e, he, rfl⟩).1).1]
    exact h.priority z e he
  order z := k.queue z ▸ h.order z

theorem Deeds.queueSound {a : Prop} {L : List SlotId} {s t : State} (h : Deeds a L s t) :
    s.QueueSound → t.QueueSound := by
  induction h with
  | keep k => exact k.queueSound
  | leave i k => exact k.queueSound
  | place i k => exact k.queueSound
  | trans _ _ h k => exact fun hs => k (h hs)

/-- The order of a queue in which the slots of `L` have been placed, in the order of their numbers: by the priorities, and
among equals a placed slot has only placed ones of higher numbers behind it. -/
def PlacedOrder (L : List SlotId) (x y : QueueEntry) : Prop :=
  x.priority < y.priority ∨ (x.priority = y.priority ∧ (x.slot ∈ L → y.slot ∈ L ∧ x.slot < y.slot))

theorem placedOrder_nil {x y : QueueEntry} (h : x.priority ≤ y.priority) : PlacedOrder [] x y :=
  (lt_or_eq_of_le h).imp id fun e => ⟨e, fun hx => absurd hx (by simp)⟩

/-- Slots placed in the order of their numbers stand so. -/
theorem Deeds.placed {a : Prop} {L : List SlotId} {s t : State} (h : Deeds a L s t) : ∀ M : List SlotId,
    (M ++ L).Pairwise (· < ·) → s.QueueSound → (∀ z, (s.zone z).queue.Pairwise (PlacedOrder M)) →
    ∀ z, (t.zone z).queue.Pairwise (PlacedOrder (M ++ L)) := by
  induction h with
  | keep k => exact fun M _ _ hs z => by rw [List.append_nil, k.queue]; exact hs z
  | leave i k =>
    intro M _ _ hs z
    rw [List.append_nil, k.queue]; split
    · exact (hs z).sublist List.filter_sublist
    · exact hs z
  | @place s t i k =>
    intro M hM hq hs z
    have below : ∀ j ∈ M, j < i := fun j hj => (List.pairwise_append.1 hM).2.2 j hj i (List.mem_singleton_self i)
    have other : ∀ l : List QueueEntry, (∀ e ∈ l, e.slot ≠ i) → l.Pairwise (PlacedOrder M) →
        l.Pairwise (PlacedOrder (M ++ [i])) := fun l hl h => h.imp_of_mem fun {x y} hx _ hxy =>
      hxy.imp id fun ⟨e, f⟩ => ⟨e, fun hm => by
        rcases List.mem_append.1 hm with hm | hm
        · exact ⟨List.mem_append_left _ (f hm).1, (f hm).2⟩
        · exact absurd (List.mem_singleton.1 hm) (hl x hx)⟩
    rw [k.queue]; split
    · have hn : ∀ e ∈ (s.zone z).queue.filter (fun e => decide (e.slot ≠ i)), e.slot ≠ i := fun e he => by
        simpa using (List.mem_filter.1 he).2
      refine placeEntry_pairwise (other _ hn ((hs z).sublist List.filter_sublist))
        ((hq.sorted z).sublist List.filter_sublist) (fun x hx hp => ?_) fun x _ hp => Or.inl hp
      refine (lt_or_eq_of_le hp).imp id fun e => ⟨e, fun hm => ⟨by simp, ?_⟩⟩
      rcases List.mem_append.1 hm with hm | hm
      · exact below _ hm
      · exact absurd (List.mem_singleton.1 hm) (hn x hx)
    · next hz => exact other _ (fun e he => QueueSound.apart hq i z hz e he) (hs z)
  | @trans L1 L2 _ _ _ h1 _ h k =>
    intro M hM hq hs z
    rw [← List.append_assoc] at hM ⊢
    exact k (M ++ L1) hM (h1.queueSound hq) (h M (List.pairwise_append.1 hM).1 hq hs) z

end Sys2Proof.Machine
end

section

/-! # A transition among the deeds of an event, and the examination of the heads

`Examines s t` says what the end of an event does: slots are swept from their queues to DECLARED, and heads whose three
findings hold are admitted (R85, R86). -/

namespace Sys2Proof.Machine

variable {a : Prop} {i : SlotId} {s t u : State}

theorem Follows.refl (r : Slot) : Follows a r r := ⟨fun _ h => h, fun _ h => h⟩

/-! ## Transitions -/

theorem freeFrom_held (v : Zone) (i : SlotId) : (v.freeFrom i).held = if v.held = some i then none else v.held := by
  unfold Zone.freeFrom
  split
  · next p hp =>
    have e : v.held = some p.holder := by unfold Zone.held; rw [hp]; rfl
    rw [e]
    split
    · next h => rw [if_pos (by rw [h])]; rfl
    · next h => rw [if_neg fun e' => h (Option.some.inj e')]; exact e
  · next hp =>
    have e : v.held = none := by unfold Zone.held; rw [hp]; rfl
    rw [e, if_neg nofun]

theorem moveTo_holder (s : State) (i : SlotId) (st : SlotState) (z : ZoneId) : ((s.moveTo i st).zone z).held =
    if z = zoneOf i ∧ (s.zone z).held = some i then none else (s.zone z).held := by
  have e : ((s.moveTo i st).zone z).held = if z = zoneOf i then ((s.zone z).freeFrom i).held else (s.zone z).held := by
    unfold Zone.held; rw [moveTo_precharge]; split <;> rfl
  rw [e]
  by_cases hz : z = zoneOf i <;> simp only [hz, if_true, true_and, if_false, false_and]
  exact freeFrom_held ..

/-- A slot that goes to QUEUED takes its place in its zone's queue (R82). -/
theorem moveTo_queued (s : State) (i : SlotId) (z : ZoneId) : ((s.moveTo i .queued).zone z).queue =
    if z = zoneOf i then placeEntry ⟨i, ((s.moveTo i .queued).slot i).effectivePriority⟩
      ((s.zone z).queue.filter (fun e => e.slot ≠ i)) else (s.zone z).queue := by
  have hs : ∀ u : State, ((u.takePlace i .queued).zone z).queue = if z = zoneOf i then
      placeEntry ⟨i, ((u.takePlace i .queued).slot i).effectivePriority⟩ (u.zone z).queue else (u.zone z).queue := fun u => by
    rw [takePlace_slot]
    unfold State.takePlace State.joinQueue
    dsimp only
    rw [modZone_zone]
    split
    · next h => rw [h]
    · rfl
  unfold State.moveTo; extract_lets v
  have hv : (v.zone z).queue =
      if z = zoneOf i then (s.zone z).queue.filter (fun e => e.slot ≠ i) else (s.zone z).queue := by
    unfold v; rw [groupsFor_zone, powerFor_queue, lanesFor_zone, vacate_queue]
  rw [hs, countMove_zone, postSlot_zone, modSlot_zone, hv]
  split
  · rfl
  · rfl

/-- The attempt count lets a slot go to a state: it is below 3, unless the state is BARRED or clears it. -/
def AttemptsFit (n : Nat) (st : SlotState) : Prop := n ≤ 3 ∧ (n = 3 → st = .barred ∨ st = .empty ∨ st = .seating)

theorem Slot.AttemptsOk.fit {r : Slot} (h : r.AttemptsOk) (hs : r.state ≠ .barred) (st : SlotState) :
    AttemptsFit r.attempts st := ⟨h.1, fun e => absurd (h.2 e) hs⟩

/-- A slot goes to a state other than PRECHARGE, with what was done to it before within the event. -/
theorem turns_moveTo (b : Before i s u) {st : SlotState} (hp : st ≠ .precharge)
    (ha : a → (s.slot i).AttemptsOk → AttemptsFit (u.slot i).attempts st) : Turns a i s (u.moveTo i st) where
  lanes _ _ m hm := by
    rw [moveTo_slot_self, moved_state] at hm
    rw [moveTo_slot_self, moved_commanded, moved_transmit, hm]
    exact ⟨rfl, rfl⟩
  attempts h k := by
    obtain ⟨hle, h3⟩ := ha h k
    rw [moveTo_slot_self, Slot.AttemptsOk, moved_attempts, moved_state]
    split
    · exact ⟨by omega, by omega⟩
    · next hn =>
      refine ⟨hle, fun e => ?_⟩
      rcases h3 e with e | e | e
      · exact e
      · exact absurd (Or.inr (Or.inl e)) hn
      · exact absurd (Or.inr (Or.inr (Or.inl e))) hn
  others j hj := by rw [(local_moveTo u i st).slots j hj, b.slots j hj]
  state := by rw [moveTo_slot_self, moved_state]; exact hp
  held z := Or.inl (by rw [moveTo_holder, b.zones])

theorem leaves_moveTo (b : Before i s u) {st : SlotState} (hp : st ≠ .precharge) (hq : st ≠ .queued)
    (ha : a → (s.slot i).AttemptsOk → AttemptsFit (u.slot i).attempts st) : Leaves a i s (u.moveTo i st) where
  toTurns := turns_moveTo b hp ha
  unqueued := by rw [moveTo_slot_self, moved_state]; exact hq
  queue z := by rw [moveTo_queue _ _ _ hq, b.zones]

theorem places_moveTo (b : Before i s u) (ha : a → (s.slot i).AttemptsOk → AttemptsFit (u.slot i).attempts .queued) :
    Places a i s (u.moveTo i .queued) where
  toTurns := turns_moveTo b (by decide) ha
  queued := by rw [moveTo_slot_self, moved_state]
  queue z := by rw [moveTo_queued, b.zones]

/-- A slot that is not BARRED goes to a state of its own. -/
theorem leaves_self {st : SlotState} (hb : a → (s.slot i).state ≠ .barred) (hp : st ≠ .precharge) (hq : st ≠ .queued) :
    Leaves a i s (s.moveTo i st) := leaves_moveTo (Before.refl i s) hp hq fun h k => k.fit (hb h) st

/-! ## The grant (R89) -/

/-- The record of a slot that has been granted its zone's channel, with its reservation. -/
def Slot.granted (t : TimerSettings) (reservation : Nat) (r : Slot) : Slot :=
  { r.moved .precharge t with reservation := reservation }

section
variable (t : TimerSettings) (n : Nat) (r : Slot)

@[simp] theorem granted_state : (r.granted t n).state = .precharge := moved_state .precharge t r
@[simp] theorem granted_powerPath : (r.granted t n).powerPath = .limited := moved_powerPath .precharge t r
@[simp] theorem granted_override : (r.granted t n).override = r.override := moved_override .precharge t r
@[simp] theorem granted_commanded : (r.granted t n).lane.commanded = .biased := moved_commanded .precharge t r
@[simp] theorem granted_transmit : (r.granted t n).lane.transmit = 0 := moved_transmit .precharge t r
@[simp] theorem granted_attempts : (r.granted t n).attempts = r.attempts :=
  (moved_attempts .precharge t r).trans (if_neg (by simp))

end

section
variable {z : ZoneId} {d : Declaration}

theorem grantTo_eq (hd : (s.slot i).decl = some d) : s.grantTo z i =
    ((s.moveTo i .precharge).setReservation i (reservationFor d.power (s.zone z).margin)).modZone z
      (Zone.hold (prechargeFor i d.bulk (s.zone z).current)) := by
  unfold State.grantTo; rw [hd]

theorem grantTo_slot_self (hd : (s.slot i).decl = some d) : (s.grantTo z i).slot i =
    (s.slot i).granted s.timers (reservationFor d.power (s.zone z).margin) := by
  rw [grantTo_eq hd, modZone_slot, setReservation_slot_self, moveTo_slot_self]; rfl

theorem grantTo_slot_ne (s : State) (z : ZoneId) {i j : SlotId} (hj : j ≠ i) : (s.grantTo z i).slot j = s.slot j := by
  unfold State.grantTo; split
  · rfl
  · rw [modZone_slot, (local_setReservation ..).slots j hj, (local_moveTo ..).slots j hj]

theorem grantTo_queue (hd : (s.slot i).decl = some d) (w : ZoneId) : ((s.grantTo z i).zone w).queue =
    if w = zoneOf i then (s.zone w).queue.filter (fun e => e.slot ≠ i) else (s.zone w).queue := by
  rw [grantTo_eq hd, modZone_zone]
  have e : ∀ w, (((s.moveTo i .precharge).setReservation i (reservationFor d.power (s.zone z).margin)).zone w).queue =
      if w = zoneOf i then (s.zone w).queue.filter (fun e => e.slot ≠ i) else (s.zone w).queue := fun w => by
    rw [setReservation_queue, moveTo_queue _ _ _ (by decide)]
  split
  · next hw => subst hw; exact e w
  · exact e w

/-- The other zone is no part of a grant. -/
theorem grantTo_zone_ne (s : State) {w : ZoneId} (hz : zoneOf i = z) (hw : w ≠ z) :
    (s.grantTo z i).zone w = s.zone w := by
  unfold State.grantTo; split
  · rfl
  · rw [modZone_zone_ne _ _ _ hw, setReservation_zone, if_neg (by rwa [hz]), (local_moveTo ..).zone w (by rwa [hz])]

/-- The channel a grant gives, and the account it leaves. -/
theorem grantTo_account (hd : (s.slot i).decl = some d) (hz : zoneOf i = z) :
    ((s.grantTo z i).zone z).precharge = some (prechargeFor i d.bulk (s.zone z).current) ∧
    ((s.grantTo z i).zone z).reserved =
      (s.zone z).reserved + reservationFor d.power (s.zone z).margin - (s.slot i).reservation := by
  rw [grantTo_eq hd, modZone_zone_self, setReservation_zone, if_pos hz.symm]
  refine ⟨rfl, ?_⟩
  show ((s.moveTo i .precharge).zone z).reserved + _ - ((s.moveTo i .precharge).slot i).reservation = _
  rw [moveTo_reserved, if_neg (by simp [SlotState.isPowered]), moveTo_slot_self, moved_reservation]
  rfl

/-- A head that can be granted: the channel is free, the zone admits, and the budget has room (R86). -/
theorem headWait_none {e : QueueEntry} {l : List QueueEntry} (hq : (s.zone z).queue = e :: l) (h : s.headWait z = .none) :
    (s.zone z).precharge = none ∧ (s.zone z).admits = true ∧ (s.zone z).hasRoom (s.demand e.slot) = true := by
  unfold State.headWait at h; rw [hq] at h
  dsimp only at h
  split at h
  · cases h
  · next hc =>
    split at h
    · cases h
    · next hadm =>
      split at h
      · cases h
      · next hr => simpa using ⟨by simpa using hc, by simpa using hadm, by simpa using hr⟩

/-- A slot that the budget has room for has a declaration, and its reservation and inrush fit. -/
theorem hasRoom_decl (h : (s.zone z).hasRoom (s.demand i) = true) (hz : zoneOf i = z) : ∃ d, (s.slot i).decl = some d ∧
    (s.zone z).reserved + reservationFor d.power (s.zone z).margin + inrushFor (s.zone z).current ≤ (s.zone z).ceff := by
  unfold State.demand at h
  cases hd : (s.slot i).decl with
  | none => rw [hd] at h; cases h
  | some d => rw [hd, hz] at h; exact ⟨d, rfl, by simpa [Zone.hasRoom] using h⟩

end

/-! ## The examination of the heads -/

/-- What the examination of the heads does: the sweep of OVERSIZE slots, the grants, and what touches no slot and of the
zones their wait reasons alone. -/
inductive Examines : State → State → Prop
  | rest {s t : State} : t.slots = s.slots → (∀ z, ∃ w, t.zone z = { s.zone z with wait := w }) → Examines s t
  | sweep {s : State} (i : SlotId) : (s.slot i).state = .queued ∨ (s.slot i).state = .declared → Examines s (s.moveTo i .declared)
  | grant {s : State} (z : ZoneId) (e : QueueEntry) (l : List QueueEntry) : (s.zone z).queue = e :: l → s.headWait z = .none → Examines s (s.grantTo z e.slot)
  | trans {s t u : State} : Examines s t → Examines t u → Examines s u

theorem Examines.same (hs : t.slots = s.slots) (hz : ∀ z, t.zone z = s.zone z) : Examines s t :=
  .rest hs fun z => ⟨(s.zone z).wait, hz z⟩

theorem leaves_sweep (h : (s.slot i).state = .queued ∨ (s.slot i).state = .declared) :
    Leaves a i s (s.moveTo i .declared) :=
  leaves_self (fun _ e => by rw [e] at h; rcases h with h | h <;> cases h) (by decide) (by decide)

theorem keeps_same (hs : t.slots = s.slots) (hz : ∀ z, ∃ w, t.zone z = { s.zone z with wait := w }) : Keeps a s t where
  slots i := by
    unfold State.slot; rw [hs]
    exact ⟨Follows.refl _, rfl, fun _ => ⟨rfl, rfl⟩⟩
  queue z := by obtain ⟨w, e⟩ := hz z; rw [e]
  held z := by obtain ⟨w, e⟩ := hz z; rw [e]; rfl

/-- What a grant to the head of a sound queue meets: a QUEUED slot of the zone with a declaration and room for it. -/
structure Grantable (s : State) (z : ZoneId) (e : QueueEntry) (d : Declaration) : Prop where
  zone   : zoneOf e.slot = z
  queued : (s.slot e.slot).state = .queued
  decl   : (s.slot e.slot).decl = some d
  free   : (s.zone z).precharge = none
  admits : (s.zone z).admits = true
  room   : (s.zone z).reserved + reservationFor d.power (s.zone z).margin + inrushFor (s.zone z).current ≤ (s.zone z).ceff

theorem State.QueueSound.grantable (h : s.QueueSound) {z : ZoneId} {e : QueueEntry} {l : List QueueEntry}
    (hq : (s.zone z).queue = e :: l) (hw : s.headWait z = .none) : ∃ d, Grantable s z e d := by
  obtain ⟨hf, ha, hr⟩ := headWait_none hq hw
  obtain ⟨hs, hz⟩ := (h.member z e.slot).1 ⟨e, by simp [hq], rfl⟩
  obtain ⟨d, hd, hroom⟩ := hasRoom_decl hr hz
  exact ⟨d, hz, hs, hd, hf, ha, hroom⟩

section
variable {z : ZoneId} {e : QueueEntry} {d : Declaration}

theorem Grantable.state (g : Grantable s z e d) : ((s.grantTo z e.slot).slot e.slot).state = .precharge := by
  rw [grantTo_slot_self g.decl, granted_state]

theorem Grantable.held (g : Grantable s z e d) (w : ZoneId) : ((s.grantTo z e.slot).zone w).held =
    if w = z then some e.slot else (s.zone w).held := by
  split
  · next hw => subst hw; unfold Zone.held; rw [(grantTo_account g.decl g.zone).1]; rfl
  · next hw => rw [grantTo_zone_ne s g.zone hw]

theorem Grantable.queueSound (g : Grantable s z e d) (h : s.QueueSound) : (s.grantTo z e.slot).QueueSound := by
  refine queueSound_of_sublist h (fun w => ?_) (fun w x hx => ?_) fun j hj => ?_
  · rw [grantTo_queue g.decl]; split
    · exact List.filter_sublist
    · exact List.Sublist.refl _
  · rw [grantTo_queue g.decl, mem_left h hx]
    constructor
    · intro hn; rw [grantTo_slot_ne _ _ hn]; exact ((h.member w _).1 ⟨x, hx, rfl⟩).1
    · intro hq hn; rw [hn, g.state] at hq; cases hq
  · have hn : j ≠ e.slot := fun hn => by rw [hn, g.state] at hj; cases hj
    rw [grantTo_slot_ne _ _ hn] at hj ⊢; exact ⟨hj, rfl⟩

theorem Grantable.channel (g : Grantable s z e d) (h : s.ChannelSound) : (s.grantTo z e.slot).ChannelSound := by
  rw [channelSound_iff] at h ⊢
  intro w j
  rw [g.held]
  by_cases hj : j = e.slot
  · subst hj
    rw [g.state, g.zone]
    split
    · next hw => simp [hw]
    · next hw =>
      refine iff_of_false (fun k => ?_) fun k => hw k.1.symm
      have k := ((h w _).1 k).2
      rw [g.queued] at k; cases k
  · rw [grantTo_slot_ne _ _ hj, ← h]
    split
    · next hw =>
      subst hw
      refine iff_of_false (fun k => hj (Option.some.inj k).symm) fun k => ?_
      unfold Zone.held at k; rw [g.free] at k; cases k
    · exact Iff.rfl

theorem Grantable.follows (g : Grantable s z e d) : Follows a (s.slot e.slot) ((s.grantTo z e.slot).slot e.slot) where
  lanes _ _ m hm := by
    rw [g.state] at hm
    rw [grantTo_slot_self g.decl, granted_commanded, granted_transmit]
    exact ⟨Option.some.inj hm, rfl⟩
  attempts _ k := by
    have k3 : (s.slot e.slot).attempts < 3 := by
      refine lt_of_le_of_ne k.1 fun h => ?_
      have := k.2 h
      rw [g.queued] at this; cases this
    rw [grantTo_slot_self g.decl, Slot.AttemptsOk, granted_attempts]
    exact ⟨k3.le, fun h => absurd h k3.ne⟩

end

theorem Examines.queueSound (h : Examines s t) : s.QueueSound → t.QueueSound := by
  induction h with
  | rest hs hz => exact (keeps_same (a := True) hs hz).queueSound
  | sweep i h => exact (leaves_sweep (a := True) h).queueSound
  | grant z e l hq hw => exact fun h => (h.grantable hq hw).elim fun d g => g.queueSound h
  | trans _ _ h k => exact fun hs => k (h hs)

theorem Examines.channel (h : Examines s t) : s.QueueSound → s.ChannelSound → t.ChannelSound := by
  induction h with
  | rest hs hz => exact fun _ => (Deeds.keep (keeps_same (a := True) hs hz)).channel
  | sweep i h => exact fun _ => (leaves_sweep (a := True) h).channel
  | grant z e l hq hw => exact fun h => (h.grantable hq hw).elim fun d g => g.channel
  | trans h1 _ h k => exact fun hq hs => k (h1.queueSound hq) (h hq hs)

theorem Examines.lanes (h : Examines s t) : s.QueueSound → s.LanesSound → t.LanesSound := by
  induction h with
  | rest hs hz => exact fun _ => (Deeds.keep (keeps_same (a := True) hs hz)).lanes trivial
  | sweep i h => exact fun _ => (Deeds.leave i (leaves_sweep (a := True) h)).lanes trivial
  | @grant s z e l hq hw =>
    refine fun h => (h.grantable hq hw).elim fun d g hs j => ?_
    by_cases hj : j = e.slot
    · subst hj; exact g.follows.lanes trivial (hs _)
    · rw [grantTo_slot_ne _ _ hj]; exact hs j
  | trans h1 _ h k => exact fun hq hs => k (h1.queueSound hq) (h hq hs)

theorem Examines.attempts (h : Examines s t) : s.QueueSound → s.AttemptsSound → t.AttemptsSound := by
  induction h with
  | rest hs hz => exact fun _ => (Deeds.keep (keeps_same (a := True) hs hz)).attempts trivial
  | sweep i h => exact fun _ => (Deeds.leave i (leaves_sweep (a := True) h)).attempts trivial
  | @grant s z e l hq hw =>
    refine fun h => (h.grantable hq hw).elim fun d g hs j => ?_
    by_cases hj : j = e.slot
    · subst hj; exact g.follows.attempts trivial (hs _)
    · rw [grantTo_slot_ne _ _ hj]; exact hs j
  | trans h1 _ h k => exact fun hq hs => k (h1.queueSound hq) (h hq hs)

/-- The examination lets a queue only close up, makes no slot QUEUED, and keeps the overrides. -/
theorem Examines.queue (h : Examines s t) : s.QueueSound → (∀ z, (t.zone z).queue.Sublist (s.zone z).queue) ∧
    ∀ i, (t.slot i).override = (s.slot i).override ∧ ((t.slot i).state = .queued → (s.slot i).state = .queued) := by
  induction h with
  | @rest s t hs hz =>
    refine fun _ => ⟨fun z => ?_, fun i => ?_⟩
    · obtain ⟨w, e⟩ := hz z; rw [e]
    · unfold State.slot; rw [hs]; exact ⟨rfl, id⟩
  | @sweep s i h =>
    refine fun _ => ⟨fun z => ?_, fun j => ?_⟩
    · rw [moveTo_queue _ _ _ (by decide)]; split
      · exact List.filter_sublist
      · exact List.Sublist.refl _
    · by_cases hj : j = i
      · subst hj; rw [moveTo_slot_self, moved_override, moved_state]; exact ⟨rfl, nofun⟩
      · rw [(local_moveTo ..).slots j hj]; exact ⟨rfl, id⟩
  | @grant s z e l hq hw =>
    refine fun h => (h.grantable hq hw).elim fun d g => ⟨fun w => ?_, fun j => ?_⟩
    · rw [grantTo_queue g.decl]; split
      · exact List.filter_sublist
      · exact List.Sublist.refl _
    · by_cases hj : j = e.slot
      · subst hj; rw [g.state, grantTo_slot_self g.decl]; exact ⟨granted_override .., nofun⟩
      · rw [grantTo_slot_ne _ _ hj]; exact ⟨rfl, id⟩
  | trans h1 _ h k =>
    intro hq
    obtain ⟨q1, o1⟩ := h hq
    obtain ⟨q2, o2⟩ := k (h1.queueSound hq)
    exact ⟨fun z => (q2 z).trans (q1 z), fun i => ⟨(o2 i).1.trans (o1 i).1, fun e => (o1 i).2 ((o2 i).2 e)⟩⟩

/-! ## Admission (R69) -/

/-- Slot `i` holds its zone's channel within the zone's effective capacity, and the protection state allows it. -/
structure State.Admitted (s : State) (i : SlotId) : Prop where
  held    : (s.zone (zoneOf i)).held = some i
  fits    : (s.zone (zoneOf i)).reserved + (s.zone (zoneOf i)).inrush ≤ (s.zone (zoneOf i)).ceff
  dark    : (s.zone (zoneOf i)).protection ≠ .dark
  exposed : (s.zone (zoneOf i)).protection = .exposed → (s.zone (zoneOf i)).exposedFlag = true
  path    : (s.slot i).powerPath = .limited

/-- A zone with the configuration and the feeds of another has its capacity, protection and flag. -/
theorem quiet_budget {v w : Zone} (h : w.quiet = v.quiet) :
    w.ceff = v.ceff ∧ w.protection = v.protection ∧ w.exposedFlag = v.exposedFlag := by
  have ha : w.healthA = v.healthA := (congrArg Zone.healthA h :)
  have hb : w.healthB = v.healthB := (congrArg Zone.healthB h :)
  have ca : w.capA = v.capA := (congrArg Zone.capA h :)
  have cb : w.capB = v.capB := (congrArg Zone.capB h :)
  exact ⟨by unfold Zone.ceff; rw [ha, hb, ca, cb], by unfold Zone.protection; rw [ha, hb], (congrArg Zone.exposedFlag h :)⟩

theorem admits_iff {v : Zone} : v.admits = true ↔ v.protection ≠ .dark ∧ (v.protection = .exposed → v.exposedFlag = true) := by
  unfold Zone.admits; split <;> rename_i h <;> simp [h]

/-- A head that is granted is admitted within the budget (R69, R86). -/
theorem Grantable.admitted {z : ZoneId} {e : QueueEntry} {d : Declaration} (g : Grantable s z e d) :
    (s.grantTo z e.slot).Admitted e.slot := by
  obtain ⟨hp, hr⟩ := grantTo_account g.decl g.zone
  obtain ⟨hc, hd, hf⟩ := quiet_budget ((calm_grantTo s z e.slot).zone z)
  obtain ⟨ha, hx⟩ := admits_iff.1 g.admits
  constructor
  · rw [g.held, if_pos g.zone]
  · rw [g.zone, hr, hc]
    have : ((s.grantTo z e.slot).zone z).inrush = inrushFor (s.zone z).current := by unfold Zone.inrush; rw [hp]; rfl
    have := g.room
    omega
  · rw [g.zone, hd]; exact ha
  · rw [g.zone, hd, hf]; exact hx
  · rw [grantTo_slot_self g.decl, granted_powerPath]

/-- A sweep leaves an admission within the budget. -/
theorem State.Admitted.sweep {j : SlotId} (h : s.Admitted j) (hj : j ≠ i) : (s.moveTo i .declared).Admitted j := by
  by_cases hz : zoneOf j = zoneOf i
  · have hp : ((s.moveTo i .declared).zone (zoneOf j)).precharge = (s.zone (zoneOf j)).precharge := by
      obtain ⟨p, hp, rfl⟩ := held_eq_some.1 h.held
      rw [moveTo_precharge, if_pos hz, Zone.freeFrom, hp]
      dsimp only
      rw [if_neg hj, hp]
    obtain ⟨hc, hd, hf⟩ := quiet_budget ((calm_moveTo s i .declared).zone (zoneOf j))
    refine ⟨?_, ?_, hd ▸ h.dark, by rw [hd, hf]; exact h.exposed, ?_⟩
    · unfold Zone.held; rw [hp]; exact h.held
    · have hi : ((s.moveTo i .declared).zone (zoneOf j)).inrush = (s.zone (zoneOf j)).inrush := by
        unfold Zone.inrush; rw [hp]
      rw [hi, hc, moveTo_reserved, if_pos ⟨hz, rfl⟩]
      have := h.fits
      omega
    · rw [(local_moveTo ..).slots j hj]; exact h.path
  · have e := (local_moveTo s i .declared).zone (zoneOf j) hz
    exact ⟨e ▸ h.held, e ▸ h.fits, e ▸ h.dark, e ▸ h.exposed, by rw [(local_moveTo ..).slots j hj]; exact h.path⟩

/-- Every slot that an examination brings to PRECHARGE is admitted within its zone's budget. -/
theorem Examines.admitted (h : Examines s t) : s.QueueSound → ∀ i,
    ((s.slot i).state = .precharge → s.Admitted i) → (t.slot i).state = .precharge → t.Admitted i := by
  induction h with
  | @rest s t hs hz =>
    intro _ i h
    have e : t.slot i = s.slot i := by unfold State.slot; rw [hs]
    obtain ⟨w, ez⟩ := hz (zoneOf i)
    intro hi
    have k := h (e ▸ hi)
    exact ⟨by rw [ez]; exact k.held, by rw [ez]; exact k.fits, by rw [ez]; exact k.dark, by rw [ez]; exact k.exposed,
      e ▸ k.path⟩
  | @sweep s i _ =>
    intro _ j h hj
    have hn : j ≠ i := fun e => by rw [e, moveTo_slot_self, moved_state] at hj; cases hj
    rw [(local_moveTo ..).slots j hn] at hj
    exact (h hj).sweep hn
  | @grant s z e l hq hw =>
    intro hs j h hj
    obtain ⟨d, g⟩ := hs.grantable hq hw
    by_cases hn : j = e.slot
    · subst hn; exact g.admitted
    · rw [grantTo_slot_ne _ _ hn] at hj
      have k := h hj
      have hz : zoneOf j ≠ z := fun hz => by
        have e' := k.held
        unfold Zone.held at e'; rw [hz, g.free] at e'; cases e'
      have e := grantTo_zone_ne s g.zone hz
      exact ⟨e ▸ k.held, e ▸ k.fits, e ▸ k.dark, e ▸ k.exposed, by rw [grantTo_slot_ne _ _ hn]; exact k.path⟩
  | trans h1 _ h k => exact fun hq i h0 => k (h1.queueSound hq) i (h hq i h0)

/-! ## The end of an event -/

theorem examines_note (s : State) (i : SlotId) : Examines s (s.noteCheckpoint i) := by
  unfold State.noteCheckpoint; split
  · exact .same (by rw [postSlot_slots]) fun z => by rw [postSlot_zone]
  · exact .same rfl fun _ => rfl

theorem examines_sweepQueue (h : s.QueueSound) (z : ZoneId) : Examines s (s.sweepQueue z) := by
  have key : ∀ (l : List QueueEntry) (u : State),
      (∀ e ∈ l, (u.slot e.slot).state = .queued ∨ (u.slot e.slot).state = .declared) →
      Examines u (l.foldl (fun s e => (s.moveTo e.slot .declared).noteCheckpoint e.slot) u) := by
    intro l
    induction l with
    | nil => exact fun u _ => .same rfl fun _ => rfl
    | cons e l ih =>
      intro u hu
      refine (Examines.sweep e.slot (hu e List.mem_cons_self)).trans ((examines_note ..).trans (ih _ fun x hx => ?_))
      rw [noteCheckpoint_slot]
      by_cases hj : x.slot = e.slot
      · rw [hj, moveTo_slot_self, moved_state]; exact Or.inr rfl
      · rw [(local_moveTo ..).slots _ hj]; exact hu x (List.mem_cons_of_mem _ hx)
  refine key _ s fun e he => Or.inl ?_
  exact ((h.member z e.slot).1 ⟨e, (List.mem_filter.1 he).1, rfl⟩).1

theorem examines_setWait (s : State) (z : ZoneId) (w : WaitReason) : Examines s (s.setWait z w) := by
  refine .rest (by unfold State.setWait; rw [modZone_slots]) fun v => ?_
  unfold State.setWait; rw [modZone_zone]
  split
  · next h => subst h; exact ⟨w, rfl⟩
  · exact ⟨_, rfl⟩

theorem examines_examine (h : s.QueueSound) (z : ZoneId) : Examines s (s.examine z) := by
  refine (examines_sweepQueue h z).trans ?_
  unfold State.examine State.testHead; split
  · next e l hq hw => exact .grant z e l hq hw
  · exact examines_setWait ..

theorem examines_settle (before : State) (h : u.QueueSound) : Examines u (before.settle u) := by
  have one : ∀ z v, State.QueueSound v → Examines v (v.examineAfter z before) := fun z v hv => by
    unfold State.examineAfter; split
    · exact examines_examine hv z
    · exact .same rfl fun _ => rfl
  unfold State.settle; extract_lets v
  have hv : Examines u v := (one .one u h).trans (one .two _ ((one .one u h).queueSound h))
  split
  · exact hv.trans (.same (by rw [postShelf_slots]) fun z => by rw [postShelf_zone])
  · exact hv

end Sys2Proof.Machine
end

section

/-! # The slot operations as deeds

Each operation on a slot is a chain of deeds: most place no slot (`Deeds a []`), and those that take a slot to QUEUED place
that slot alone (`DeedsAt a [i]`). -/

namespace Sys2Proof.Machine

variable {a : Prop} {i : SlotId} {s t u : State}

/-! ## Deeds that place slots of a list which were not QUEUED -/

/-- An event places, in their order, some of the slots of `l`, none of which was QUEUED. -/
def DeedsAt (a : Prop) (l : List SlotId) (s t : State) : Prop :=
  ∃ L : List SlotId, L.Sublist l ∧ Deeds a L s t ∧ ∀ i ∈ L, (s.slot i).state ≠ .queued

theorem Deeds.at (h : Deeds a [] s t) (l : List SlotId) : DeedsAt a l s t := ⟨[], List.nil_sublist l, h, nofun⟩

theorem DeedsAt.after {l : List SlotId} (h : DeedsAt a l s t) (k : Deeds a [] t u) : DeedsAt a l s u := by
  obtain ⟨L, hl, h, hq⟩ := h
  exact ⟨L, hl, by simpa using h.trans k, hq⟩

/-- Deeds that place no slot, one after the other. -/
theorem Deeds.and (h : Deeds a [] s t) (k : Deeds a [] t u) : Deeds a [] s u := h.trans k

/-- Deeds that place no slot may come first, when they take no slot of the list from its queue. -/
theorem Deeds.before {l : List SlotId} (h : Deeds a [] s t) (k : DeedsAt a l t u)
    (hs : ∀ i ∈ l, (s.slot i).state = .queued → (t.slot i).state = .queued) : DeedsAt a l s u := by
  obtain ⟨L, hl, k, hq⟩ := k
  exact ⟨L, hl, h.trans k, fun i hi e => hq i hi (hs i (hl.mem hi) e)⟩

theorem Places.at (h : Places a i s t) (hq : (s.slot i).state ≠ .queued) : DeedsAt a [i] s t :=
  ⟨[i], List.Sublist.refl _, .place i h, fun _ hj => List.mem_singleton.1 hj ▸ hq⟩

/-- Slot by slot, in the order of a list without repeats. -/
theorem deedsAt_foldl (f : State → SlotId → State) (hf : ∀ s i, DeedsAt a [i] s (f s i))
    (hl : ∀ s i j, j ≠ i → (f s i).slot j = s.slot j) (l : List SlotId) (hn : l.Nodup) (s : State) :
    DeedsAt a l s (l.foldl f s) := by
  induction l generalizing s with
  | nil => exact Deeds.at (.keep (keeps_same rfl fun z => ⟨(s.zone z).wait, rfl⟩)) []
  | cons i l ih =>
    rw [List.nodup_cons] at hn
    obtain ⟨L, hL, h, hq⟩ := hf s i
    obtain ⟨M, hM, k, hr⟩ := ih hn.2 (f s i)
    refine ⟨L ++ M, hL.append hM, h.trans k, fun j hj => ?_⟩
    rcases List.mem_append.1 hj with hj | hj
    · exact hq j hj
    · have e := hl s i j fun e => hn.1 (e ▸ hM.mem hj)
      rw [← e]; exact hr j hj

/-! ## Changes that keep the queues -/

theorem deeds_refl (s : State) : Deeds a [] s s := .keep (keeps_same rfl fun z => ⟨(s.zone z).wait, rfl⟩)

/-- A change of the rest of the part. -/
theorem Aside.deeds (h : Aside s t) : Deeds a [] s t :=
  .keep (keeps_same h.slots fun z => ⟨(s.zone z).wait, by rw [h.zones]⟩)

/-- A change of a record that keeps its state, its effective priority, its lanes and its attempt count. -/
theorem Mild.of {r v : Slot} (hs : v.state = r.state) (ho : v.override = r.override) (hd : v.decl = r.decl)
    (hc : v.lane.commanded = r.lane.commanded) (ht : v.lane.transmit = r.lane.transmit)
    (hn : v.attempts = r.attempts) : Mild a r v where
  lanes _ h m hm := by rw [hc, ht]; exact h m (hs ▸ hm)
  attempts _ h := by unfold Slot.AttemptsOk; rw [hn, hs]; exact h
  state := hs
  queued _ := ⟨by unfold Slot.effectivePriority; rw [ho, hd], ho⟩

theorem Mild.refl (r : Slot) : Mild a r r := .of rfl rfl rfl rfl rfl rfl

theorem keeps_modSlot {f : Slot → Slot} (h : Mild a (s.slot i) (f (s.slot i))) : Keeps a s (s.modSlot i f) where
  slots j := by
    by_cases hj : j = i
    · subst hj; rw [modSlot_slot_self]; exact h
    · rw [modSlot_slot_ne _ _ _ hj]; exact Mild.refl _
  queue z := by rw [modSlot_zone]
  held z := by rw [modSlot_zone]

theorem deeds_modSlot {f : Slot → Slot} (h : Mild a (s.slot i) (f (s.slot i))) : Deeds a [] s (s.modSlot i f) :=
  .keep (keeps_modSlot h)

/-- A change of a slot's lane record that keeps the command. -/
theorem deeds_modLane (f : LaneRecord → LaneRecord) (hc : (f (s.slot i).lane).commanded = (s.slot i).lane.commanded)
    (ht : (f (s.slot i).lane).transmit = (s.slot i).lane.transmit) : Deeds a [] s (s.modLane i f) :=
  deeds_modSlot (.of rfl rfl rfl hc ht rfl)

/-- A switching in a state that brings no lane mode with it. -/
theorem deeds_switchLanes (m : LaneMode) (g : GroupSet) (k : SwitchKind) (b : Bool)
    (h : (s.slot i).state.laneMode = none) : Deeds a [] s (s.switchLanes i m g k b) :=
  deeds_modSlot ⟨⟨fun _ _ _ hm => absurd (h.symm.trans hm) nofun, fun _ k => k⟩, rfl, fun _ => ⟨rfl, rfl⟩⟩

theorem deeds_map (m : Vector (Option SlotId) 32) : Deeds a [] s (s.setMap m) :=
  .keep (keeps_same rfl fun z => ⟨(s.zone z).wait, setMap_zone ..⟩)

theorem deeds_postSlot (s : State) (k : SlotNotice) (i : SlotId) : Deeds a [] s (s.postSlot k i) := (aside_postSlot ..).deeds

theorem deeds_postShelf (s : State) (k : ShelfNotice) : Deeds a [] s (s.postShelf k) := (aside_postShelf ..).deeds

theorem deeds_count (s : State) (k : EventKind) (n : Nat) : Deeds a [] s (s.count k n) := (aside_count ..).deeds

/-- A change of the window block. -/
theorem deeds_modBlock (s : State) (f : WindowBlock → WindowBlock) : Deeds a [] s (s.modBlock f) :=
  .keep (keeps_same rfl fun z => ⟨(s.zone z).wait, modBlock_zone ..⟩)

/-- A change of a zone that keeps its queue and its channel. -/
theorem deeds_modZone (s : State) (z : ZoneId) (f : Zone → Zone) (hq : (f (s.zone z)).queue = (s.zone z).queue)
    (hh : (f (s.zone z)).held = (s.zone z).held) : Deeds a [] s (s.modZone z f) := by
  refine .keep ⟨fun i => by rw [modZone_slot]; exact Mild.refl _, fun w => ?_, fun w => ?_⟩ <;> rw [modZone_zone] <;> split
  · next h => rw [hq, h]
  · rfl
  · next h => rw [hh, h]
  · rfl

theorem deeds_setReservation (s : State) (i : SlotId) (n : Nat) : Deeds a [] s (s.setReservation i n) :=
  (deeds_modZone s (zoneOf i) _ rfl rfl).trans (deeds_modSlot (.of rfl rfl rfl rfl rfl rfl))

theorem deeds_noteCheckpoint (s : State) (i : SlotId) : Deeds a [] s (s.noteCheckpoint i) := by
  unfold State.noteCheckpoint; split
  · exact deeds_postSlot ..
  · exact deeds_refl s

theorem deeds_oversizeTest (s : State) (i : SlotId) : Deeds a [] s (s.oversizeTest i) := by
  unfold State.oversizeTest; extract_lets z; split
  · exact deeds_modSlot (.of rfl rfl rfl rfl rfl rfl)
  · exact deeds_refl s

theorem deeds_freeSet (s : State) (i : SlotId) (g : GroupSet) : Deeds a [] s (s.freeSet i g) := deeds_map _

theorem deeds_claimSet (s : State) (i : SlotId) (g : GroupSet) : Deeds a [] s (s.claimSet i g) := deeds_map _

theorem deeds_autoAssign (s : State) (i : SlotId) : Deeds a [] s (s.autoAssign i) := by
  unfold State.autoAssign; extract_lets p g; split
  · exact deeds_refl s
  · exact (deeds_claimSet ..).trans (deeds_postSlot ..)

theorem deeds_giveSteering (s : State) (i : SlotId) (m : ManagerId) : Deeds a [] s (s.giveSteering i m) :=
  deeds_modSlot (.of rfl rfl rfl rfl rfl rfl)

theorem deeds_setRetirePending (s : State) (i : SlotId) (o : DrainOrigin) : Deeds a [] s (s.setRetirePending i o) := by
  unfold State.setRetirePending; split
  · exact deeds_refl s
  · exact deeds_modSlot (.of rfl rfl rfl rfl rfl rfl)

theorem deeds_setPhase (s : State) (i : SlotId) (p : SlotPhase) : Deeds a [] s (s.setPhase i p) :=
  (deeds_modSlot (.of rfl rfl rfl rfl rfl rfl)).trans (deeds_postSlot ..)

/-! ## Transitions that place no slot -/

/-- A slot that is not BARRED goes to a state, with what was done to it before within the event. -/
theorem deeds_moved (b : Before i s u) (hn : (u.slot i).attempts = (s.slot i).attempts)
    (hb : a → (s.slot i).state ≠ .barred) {st : SlotState} (hp : st ≠ .precharge) (hq : st ≠ .queued) :
    Deeds a [] s (u.moveTo i st) :=
  .leave i (leaves_moveTo b hp hq fun h k => by rw [hn]; exact k.fit (hb h) st)

/-- A slot that is not BARRED goes to a state. -/
theorem deeds_move {st : SlotState} (hb : (s.slot i).state ≠ .barred) (hp : st ≠ .precharge) (hq : st ≠ .queued) :
    Deeds a [] s (s.moveTo i st) := .leave i (leaves_self (fun _ => hb) hp hq)

/-- A slot goes to a state that clears its attempt count, or to BARRED. -/
theorem deeds_moveAny {st : SlotState} (h : st = .barred ∨ st = .empty ∨ st = .seating) :
    Deeds a [] s (s.moveTo i st) := by
  refine .leave i (leaves_moveTo (Before.refl i s) ?_ ?_ fun _ k => ⟨k.1, fun _ => h⟩) <;> rcases h with h | h | h <;>
    rw [h] <;> decide

theorem deeds_bar (s : State) (i : SlotId) (c : FaultCause) : Deeds a [] s (s.bar i c) :=
  ((deeds_moveAny (Or.inl rfl)).trans (deeds_modSlot (.of rfl rfl rfl rfl rfl rfl))).trans (deeds_postSlot ..)

theorem deeds_startDrain (o : Option DrainOrigin) (hb : (s.slot i).state ≠ .barred) :
    Deeds a [] s (s.startDrain i o) :=
  ((deeds_modSlot (.of rfl rfl rfl rfl rfl rfl)).trans
    (deeds_move (by rw [modSlot_slot_self]; exact hb) (by decide) (by decide))).trans (deeds_noteCheckpoint ..)

theorem deeds_advanceListen (hb : (s.slot i).state ≠ .barred) : Deeds a [] s (s.advanceListen i) := by
  unfold State.advanceListen; split
  · extract_lets u
    have hu : Deeds a [] s u ∧ u.slot i = s.slot i := by
      unfold u; split
      · exact ⟨deeds_autoAssign .., autoAssign_slot ..⟩
      · exact ⟨deeds_refl s, rfl⟩
    split
    · exact hu.1
    · exact hu.1.trans (deeds_move (by rw [hu.2]; exact hb) (by decide) (by decide))
  · exact deeds_refl s

/-- A slot goes to LISTEN, and on from there. -/
theorem deeds_onListen (hb : (s.slot i).state ≠ .barred) : Deeds a [] s ((s.moveTo i .listen).advanceListen i) :=
  (deeds_move hb (by decide) (by decide)).trans (deeds_advanceListen (by rw [moveTo_slot_self, moved_state]; decide))

theorem deeds_advancePowered (hb : (s.slot i).state ≠ .barred) : Deeds a [] s (s.advancePowered i) := by
  unfold State.advancePowered; split
  · exact deeds_onListen hb
  · exact deeds_refl s

theorem deeds_atListen (hb : (s.slot i).state ≠ .barred) : Deeds a [] s (s.atListen i) :=
  (deeds_advanceListen hb).trans (deeds_noteCheckpoint ..)

theorem deeds_toListen (hb : (s.slot i).state ≠ .barred) : Deeds a [] s ((s.moveTo i .listen).atListen i) :=
  (deeds_onListen hb).trans (deeds_noteCheckpoint ..)

theorem deeds_atPowered (hb : (s.slot i).state ≠ .barred) : Deeds a [] s (s.atPowered i) :=
  (deeds_advancePowered hb).trans (deeds_noteCheckpoint ..)

theorem deeds_handleOpened (s : State) (i : SlotId) : Deeds a [] s (s.handleOpened i) := by
  have move : ∀ st, (s.slot i).state ≠ .barred → st = .released ∨ st = .poweringDown → Deeds a [] s (s.moveTo i st) :=
    fun st hb h => deeds_move hb (by rcases h with h | h <;> rw [h] <;> decide)
      (by rcases h with h | h <;> rw [h] <;> decide)
  unfold State.handleOpened
  repeat' split
  all_goals first
    | exact deeds_refl s
    | exact deeds_setRetirePending ..
    | exact deeds_modSlot (.of rfl rfl rfl rfl rfl rfl)
    | exact move _ (by simp [*]) (by simp)
    | exact deeds_startDrain _ (by simp [*])

/-! ## To DECLARED -/

/-- The AUTO advance places a DECLARED slot (R19). -/
theorem deedsAt_autoAdvance (s : State) (i : SlotId) : DeedsAt a [i] s (s.autoAdvance i) := by
  unfold State.autoAdvance; extract_lets r; split
  · next h =>
    have hs : (s.slot i).state = .declared := h.1
    exact (places_moveTo (Before.refl i s) fun _ k => k.fit (by rw [hs]; decide) _).at (by rw [hs]; decide)
  · exact (deeds_refl s).at _

theorem deedsAt_atDeclared (s : State) (i : SlotId) : DeedsAt a [i] s (s.atDeclared i) := by
  unfold State.atDeclared; extract_lets u; split
  · exact (deedsAt_autoAdvance s i).after (deeds_noteCheckpoint ..)
  · exact deedsAt_autoAdvance s i

/-- A slot that has the HELD mark, or the cause ZONE_DARK in a DARK zone, stays in DECLARED (R19). -/
theorem autoAdvance_blocked (h : (s.slot i).heldMark = true ∨
    ((s.slot i).cause = some .zoneDark ∧ (s.zone (zoneOf i)).protection = .dark)) : s.autoAdvance i = s := by
  unfold State.autoAdvance; extract_lets r
  refine if_neg ?_
  rintro ⟨-, -, -, hh, hc⟩
  rcases h with h | h
  · rw [h] at hh; cases hh
  · exact hc h

theorem deeds_atDeclared_blocked (h : (s.slot i).heldMark = true ∨
    ((s.slot i).cause = some .zoneDark ∧ (s.zone (zoneOf i)).protection = .dark)) : Deeds a [] s (s.atDeclared i) := by
  unfold State.atDeclared; extract_lets u
  have hu : u = s := autoAdvance_blocked h
  rw [hu]; split
  · exact deeds_noteCheckpoint ..
  · exact deeds_refl s

theorem oversizeTest_slot (s : State) (i : SlotId) : ∃ b, (s.oversizeTest i).slot i = { s.slot i with oversize := b } := by
  unfold State.oversizeTest; extract_lets z; split
  · exact ⟨_, modSlot_slot_self ..⟩
  · exact ⟨(s.slot i).oversize, rfl⟩

theorem protection_of_calm (h : Calm s t) (z : ZoneId) : (t.zone z).protection = (s.zone z).protection :=
  (quiet_budget (h.zone z)).2.1

/-- A slot that is not BARRED goes to DECLARED with a mark or a cause that blocks it there. -/
theorem deeds_toDeclared_blocked (b : Before i s u) (hn : (u.slot i).attempts = (s.slot i).attempts)
    (hb : a → (s.slot i).state ≠ .barred) {held : Bool} {c : Option FaultCause}
    (h : held = true ∨ (c = some .zoneDark ∧ (s.zone (zoneOf i)).protection = .dark)) :
    Deeds a [] s (u.toDeclared i held c) := by
  unfold State.toDeclared; split
  · refine (((deeds_moved b hn hb (by decide) (by decide)).trans (deeds_modSlot (.of rfl rfl rfl rfl rfl rfl))).trans
      (deeds_oversizeTest ..)).trans (deeds_atDeclared_blocked ?_)
    obtain ⟨o, e⟩ := oversizeTest_slot ((u.moveTo i .declared).modSlot i fun r => { r with heldMark := held, cause := c }) i
    rw [e, modSlot_slot_self, protection_of_calm (((calm_moveTo u i .declared).trans (calm_modSlot ..)).trans
      (calm_oversizeTest ..)), b.zones]
    exact h
  · exact deeds_moved b hn hb (by decide) (by decide)

/-- A slot that is neither QUEUED nor BARRED goes to DECLARED, and on to QUEUED where nothing blocks it. -/
theorem deedsAt_toDeclared (held : Bool) (c : Option FaultCause) (hq : (s.slot i).state ≠ .queued)
    (hb : (s.slot i).state ≠ .barred) : DeedsAt a [i] s (s.toDeclared i held c) := by
  unfold State.toDeclared; split
  · refine (((deeds_move hb (by decide) (by decide)).trans (deeds_modSlot (.of rfl rfl rfl rfl rfl rfl))).trans
      (deeds_oversizeTest ..)).before (deedsAt_atDeclared ..) fun j hj e => ?_
    rw [List.mem_singleton.1 hj] at e; exact absurd e hq
  · exact (deeds_move hb (by decide) (by decide)).at _

theorem deedsAt_handleClosed (s : State) (i : SlotId) : DeedsAt a [i] s (s.handleClosed i) := by
  unfold State.handleClosed; extract_lets r
  repeat' split
  all_goals first
    | exact (deeds_refl s).at _
    | exact (deeds_modSlot (.of rfl rfl rfl rfl rfl rfl)).at _
    | exact (deeds_move (by rename_i h _; rw [h]; decide) (by decide) (by decide)).at _
    | exact deedsAt_toDeclared _ _ (by rename_i h; rw [h]; decide) (by rename_i h; rw [h]; decide)

/-! ## Isolation -/

/-- The destinations of an isolation: no admission and no queue. -/
theorem isolation_destination (c : IsolationCause) (r : Slot) :
    c.destination r ≠ .precharge ∧ c.destination r ≠ .queued := by
  unfold IsolationCause.destination Slot.darkDestination
  repeat' split
  all_goals exact ⟨by decide, by decide⟩

theorem isolation_declared {c : IsolationCause} {r : Slot} (h : c.destination r = .declared) : c = .zoneDark := by
  cases c with
  | presenceLost p => cases p <;> exact absurd h (by simp [IsolationCause.destination])
  | zoneDark => rfl
  | overcurrent => exact absurd h (by simp [IsolationCause.destination])
  | stuckLane => exact absurd h (by simp [IsolationCause.destination])
  | revertDisturbed => exact absurd h (by simp [IsolationCause.destination])

/-- The isolation of a slot that is not BARRED places none, a zone's that is DARK included. -/
theorem deeds_isolate (c : IsolationCause) (hb : (s.slot i).state ≠ .barred)
    (hd : c = .zoneDark → (s.zone (zoneOf i)).protection = .dark) : Deeds a [] s (s.isolate i c) := by
  unfold State.isolate State.isolateLanes; extract_lets u
  have b : Before i s u :=
    (((before_switchLanes ..).trans (before_freeGroups ..)).trans (before_isolateWindow ..)).trans
      (before_modSlot _ _ _ rfl rfl rfl)
  have hn : (u.slot i).attempts = (s.slot i).attempts := by
    unfold u
    rw [modSlot_slot_self, isolateWindow_slot, freeGroups_slot_self, switchLanes_slot_self]; rfl
  have hs : Deeds a [] s (u.sendIsolated i (c.destination (s.slot i)) c) := by
    obtain ⟨hp, hq⟩ := isolation_destination c (s.slot i)
    unfold State.sendIsolated; split
    · next h => exact deeds_toDeclared_blocked b hn (fun _ => hb) (Or.inr ⟨rfl, hd (isolation_declared h)⟩)
    · exact (deeds_moved b hn (fun _ => hb) hp hq).trans (deeds_modSlot (.of rfl rfl rfl rfl rfl rfl))
  have hc : ∀ u : State, Deeds a [] u (u.countIsolation c) := fun u => by
    unfold State.countIsolation; split
    · exact deeds_count ..
    · exact deeds_count ..
    · exact deeds_refl u
    · exact deeds_refl u
    · exact deeds_refl u
  exact (hs.trans (deeds_postSlot ..)).trans (hc _)

theorem powered_ne_barred {st : SlotState} (h : st.isPowered = true) : st ≠ .barred := by rintro rfl; cases h

end Sys2Proof.Machine
end

section

/-! # What each request does, and the examination at its end -/

namespace Sys2Proof.Machine

variable {a : Prop} {i : SlotId} {s t u : State}

/-! ## The event as a whole -/

/-- An event leads from `s` to `t`: its deeds first, with the slots placed in the order of their numbers, and then the
examination of the heads. A slot is placed where it was not QUEUED, where its override changed, or where `why` says so,
which says too that the slot would stand in no queue without it. -/
def RunFor (a : Prop) (why : SlotId → Prop) (s t : State) : Prop :=
  ∃ L u, Deeds a L s u ∧ Examines u t ∧ L.Pairwise (· < ·) ∧
    (∀ i ∈ L, (s.slot i).state ≠ .queued ∨ (u.slot i).override ≠ (s.slot i).override ∨ why i) ∧
    ∀ i, i ∉ L → why i → (u.slot i).state ≠ .queued

/-- An event that places no slot but for the two common reasons. -/
abbrev Run (a : Prop) (s t : State) : Prop := RunFor a (fun _ => False) s t

theorem Examines.refl (s : State) : Examines s s := .same rfl fun _ => rfl

theorem Deeds.run (h : Deeds a [] s t) : Run a s t := ⟨[], t, h, .refl t, .nil, nofun, fun _ _ => False.elim⟩

theorem DeedsAt.run {l : List SlotId} (h : DeedsAt a l s t) (hl : l.Pairwise (· < ·)) : Run a s t := by
  obtain ⟨L, hL, h, hq⟩ := h
  exact ⟨L, t, h, .refl t, hl.sublist hL, fun i hi => Or.inl (hq i hi), fun _ _ => False.elim⟩

theorem DeedsAt.run_one (h : DeedsAt a [i] s t) : Run a s t := h.run (List.pairwise_singleton _ _)

theorem run_refl (s : State) : Run a s s := (deeds_refl s).run

theorem RunFor.queueSound {why : SlotId → Prop} (h : RunFor a why s t) (hq : s.QueueSound) : t.QueueSound := by
  obtain ⟨L, u, h, k, -⟩ := h
  exact k.queueSound (h.queueSound hq)

theorem RunFor.examines {why : SlotId → Prop} (h : RunFor a why s t) (k : Examines t u) : RunFor a why s u := by
  obtain ⟨L, v, h, e, hr⟩ := h
  exact ⟨L, v, h, e.trans k, hr⟩

/-- The end of an event examines the heads. -/
theorem RunFor.settle {why : SlotId → Prop} (h : RunFor a why s t) (hq : s.QueueSound) (before : State) :
    RunFor a why s (before.settle t) := h.examines (examines_settle before (h.queueSound hq))

theorem Aside.examines (h : Aside s t) : Examines s t := .same h.slots h.zones

theorem Aside.run (h : Aside s t) : Run a s t := h.deeds.run

/-- An event with its own effect run, and then settled. -/
theorem run_event {why : SlotId → Prop} {f : State → State} (h : RunFor a why s (f s)) (hq : s.QueueSound)
    (k : event f s = .next t) : RunFor a why s t := by cases k; exact h.settle hq s

/-! ## What holds of the state that a request's body leads to -/

section
variable {P : State → Prop} {r : Request}

theorem fromManager_post {b : Bool} {k : ManagerId → Body} (hs : P s) (h : ∀ m, P (k m s).1) :
    P (fromManager b r k s).1 := by
  unfold fromManager; split
  · exact hs
  · split
    · exact h _
    · exact hs
    · exact hs

theorem fromBlade_post {k : SlotId → Body} (hs : P s) (h : ∀ i, P (k i s).1) : P (fromBlade r k s).1 := by
  unfold fromBlade; split
  · exact hs
  · split
    · split
      · exact h _
      · exact hs
    · exact hs
    · exact hs

theorem fromActive_post {k : ManagerId → Body} (hs : P s) (h : ∀ m, P (k m s).1) : P (fromActive r k s).1 :=
  fromManager_post hs fun m => by
    split
    · exact h m
    · exact hs

theorem onSlot_post {k : ManagerId → SlotId → Body} (hs : P s) (h : ∀ m i, P (k m i s).1) : P (onSlot r k s).1 :=
  fromActive_post hs fun m => by
    split
    · exact hs
    · split
      · exact h m _
      · exact hs

theorem onShelf_post {k : Body} (hs : P s) (h : P (k s).1) : P (onShelf r k s).1 :=
  fromActive_post hs fun m => by
    split
    · exact h
    · exact hs

theorem readShelfOf_post {k : ManagerId → Body} (hs : P s) (h : ∀ m, P (k m s).1) : P (readShelfOf r k s).1 :=
  fromManager_post hs fun m => by
    split
    · exact h m
    · exact hs

theorem respond_post {c : Byte} {permits : List SlotState} {k : ManagerId → SlotId → Body} (hs : P s)
    (h : ∀ m i, (s.slot i).state ∈ permits → P (k m i s).1) : P (respond c permits r k s).1 :=
  onSlot_post hs fun m i => by
    split
    · exact hs
    · split
      · exact hs
      · split
        · exact hs
        · next hp => exact h m i (not_not.1 hp)

theorem changeGroups_post {k : SlotId → GroupSet → Body} (hs : P s)
    (h : ∀ i gs, (s.slot i).state.takesGroups = true → P (k i gs s).1) : P (changeGroups r k s).1 :=
  onSlot_post hs fun m i => by
    split
    · exact hs
    · next hg =>
      split
      · exact hs
      · split
        · exact hs
        · exact h _ _ (by
            by_contra hn
            exact hg (Or.inl (by simpa using hn)))

end

/-! ## Ports -/

theorem aside_busEvent (s : State) (p : Port) (e : BusEvent) : Aside s (s.busEvent p e) := by
  have trans : ∀ {s t u}, Aside s t → Aside t u → Aside s u := fun h k =>
    ⟨k.slots.trans h.slots, fun z => (k.zones z).trans (h.zones z), k.map.trans h.map, k.list.trans h.list,
      fun m => (k.manager m).trans (h.manager m), k.running.trans h.running, k.ended.trans h.ended⟩
  unfold State.busEvent; split
  · split
    · exact aside_modPort ..
    · exact trans (aside_modPort ..) (aside_count ..)
  · exact aside_modPort ..
  · exact aside_modPort ..
  · exact aside_modPort ..
  · exact .refl s

theorem examines_elsewhere (s : State) (p : Port) (e : BusEvent) : Examines s (s.elsewhere p e) :=
  (aside_busEvent s p .startOther).examines.trans (aside_busEvent _ p e).examines

/-- A request that comes in: its body, the end of the event, and the answer; or another device's transaction. -/
theorem run_request {r : Request} {b : Body} (h : Run a s (b s).1) (hq : s.QueueSound) (k : request r b s = .next t) :
    Run a s t := by
  cases k
  unfold atAddress; split
  · unfold State.serve; split
    · exact (h.settle hq s).examines (aside_modPort ..).examines
    · exact run_refl s
  · exact (run_refl s).examines (examines_elsewhere ..)

theorem run_responseCommand {c : Byte} {r : Request} {b : Body} (h : Run a s (b s).1) (hq : s.QueueSound)
    (k : responseCommand c r b s = .next t) : Run a s t := by
  unfold responseCommand at k; split at k
  · exact run_request h hq k
  · cases k; exact run_refl s

/-! ## Responses -/

section
variable (r : Request)

/-- A response that moves its slot. -/
theorem run_respondMove {c : Byte} {permits : List SlotState} {p : Completion} {f : SlotId → State → State}
    (h : ∀ i u, (u.slot i).state ∈ permits → DeedsAt a [i] u (f i u)) :
    Run a s (respond c permits r (respondMove p f) s).1 :=
  respond_post (run_refl s) fun m i hp => by
    refine ((deeds_giveSteering s i m).before (h i _ ?_) fun j hj e => ?_).run_one
    · unfold State.giveSteering; rw [modSlot_slot_self]; exact hp
    · rw [List.mem_singleton.1 hj] at e ⊢
      unfold State.giveSteering; rw [modSlot_slot_self]; exact e

theorem run_continue : Run a s (continueBody r s).1 :=
  respond_post (run_refl s) fun m i hp => by
    split
    · exact run_refl s
    · have hu : ((s.giveSteering i m).slot i).state = (s.slot i).state := by
        unfold State.giveSteering; rw [modSlot_slot_self]
      refine ((deeds_giveSteering s i m).before (t := s.giveSteering i m) ?_ fun j hj e => ?_).run_one (i := i)
      · show DeedsAt a [i] _ (State.goOn i _)
        unfold State.goOn; split
        · next h =>
          exact (places_moveTo (Before.refl i _) fun _ k => k.fit (by rw [h]; decide) _).at (by rw [h]; decide)
        · exact (deeds_toListen (by rw [hu]; intro h; rw [h] at hp; exact absurd hp (by decide))).at _
      · rw [List.mem_singleton.1 hj] at e ⊢; rw [hu]; exact e

theorem run_hold : Run a s (holdBody r s).1 :=
  run_respondMove r fun i u hp => by
    unfold State.hold; split
    · exact (deeds_modSlot (.of rfl rfl rfl rfl rfl rfl)).at _
    · exact (deeds_toDeclared_blocked (Before.refl i u) rfl (fun _ h => by rw [h] at hp; exact absurd hp (by decide))
        (Or.inl rfl)).at _

theorem run_reject : Run a s (rejectBody r s).1 := run_respondMove r fun i u _ => (deeds_bar u i _).at _

/-- A response that takes its slot to a state in which no queue holds it. -/
theorem run_respondTo {c : Byte} {permits : List SlotState} {p : Completion} {st : SlotState}
    (hb : SlotState.barred ∉ permits) (hp : st ≠ .precharge) (hq : st ≠ .queued) :
    Run a s (respond c permits r (respondMove p fun i s => s.moveTo i st) s).1 :=
  run_respondMove r fun _ _ h => (deeds_move (fun e => hb (e ▸ h)) hp hq).at _

theorem run_rollback : Run a s (rollbackBody r s).1 :=
  run_respondMove r fun i u h => by
    have hb : (u.slot i).state ≠ .barred := fun e => by rw [e] at h; exact absurd h (by decide)
    have hm : Deeds a [] u (u.moveTo i .poweringDown) := deeds_move hb (by decide) (by decide)
    exact (hm.and (deeds_modSlot (.of rfl rfl rfl rfl rfl rfl))).at _

theorem run_joinOrRetry {c : Byte} {permits : List SlotState} (hb : SlotState.barred ∉ permits) :
    Run a s (respond c permits r joinOrRetry s).1 :=
  respond_post (run_refl s) fun m i hp => by
    unfold joinOrRetry; split
    · exact run_refl s
    · refine ((deeds_giveSteering s i m).and (deeds_move (st := .joinWait) (fun e => hb ?_) (by decide) (by decide))).run
      unfold State.giveSteering at e; rw [modSlot_slot_self] at e
      exact (show (s.slot i).state = .barred from e) ▸ hp

/-! ## Groups -/

theorem deeds_setRegroup (s : State) (i : SlotId) (new : GroupSet) : Deeds a [] s (s.setRegroup i new) := by
  unfold State.setRegroup; extract_lets l u v
  refine Deeds.and ?_ (deeds_postSlot ..)
  have lane : ∀ p, Deeds a [] s (s.modLane i fun v => { v with pending := p }) := fun p => deeds_modLane _ rfl rfl
  unfold v; split
  · split
    · exact lane _
    · exact (lane _).trans (deeds_modBlock ..)
  · exact (lane _).trans (deeds_modBlock ..)

theorem takesGroups_ne_barred {st : SlotState} (h : st.takesGroups = true) : st ≠ .barred := by rintro rfl; cases h

theorem run_assign : Run a s (assignBody r s).1 :=
  changeGroups_post (run_refl s) fun i gs hg => by
    split
    · exact run_refl s
    · split
      · exact run_refl s
      · refine Deeds.run ?_
        show Deeds a [] s (s.assign i gs)
        unfold State.assign; split
        · exact (deeds_claimSet ..).trans (deeds_setRegroup ..)
        · unfold State.assignNow; extract_lets had u
          have hu : Deeds a [] s u := (deeds_claimSet ..).trans (deeds_postSlot ..)
          split
          · next h =>
            refine hu.trans (deeds_move ?_ (by decide) (by decide))
            unfold u; rw [postSlot_slot, claimSet_slot]
            exact takesGroups_ne_barred hg
          · exact hu

theorem run_release : Run a s (releaseBody r s).1 :=
  changeGroups_post (run_refl s) fun i gs hg => by
    split
    · exact run_refl s
    · split
      · exact run_refl s
      · refine Deeds.run ?_
        show Deeds a [] s (s.release i gs)
        unfold State.release; split
        · exact (deeds_freeSet ..).trans (deeds_setRegroup ..)
        · unfold State.releaseNow; extract_lets u
          have hu : Deeds a [] s u := (deeds_freeSet ..).trans (deeds_postSlot ..)
          split
          · next h => exact hu.trans (deeds_toListen (by rw [h.1]; decide))
          · exact hu

/-! ## Retirement and UNBAR -/

/-- A slot that is given its steering and goes to a state. -/
theorem deeds_steerMove {st : SlotState} (m : ManagerId) (hb : (s.slot i).state ≠ .barred) (hp : st ≠ .precharge)
    (hq : st ≠ .queued) : Deeds a [] s ((s.giveSteering i m).moveTo i st) :=
  (deeds_giveSteering s i m).trans
    (deeds_move (by unfold State.giveSteering; rw [modSlot_slot_self]; exact hb) hp hq)

theorem deeds_steerDrain (m : ManagerId) (o : Option DrainOrigin) (hb : (s.slot i).state ≠ .barred) :
    Deeds a [] s ((s.giveSteering i m).startDrain i o) :=
  (deeds_giveSteering s i m).trans
    (deeds_startDrain _ (by unfold State.giveSteering; rw [modSlot_slot_self]; exact hb))

theorem deeds_retireSlot (m : ManagerId) (i : SlotId) : Deeds a [] s (retireSlot m i s).1 := by
  have move : ∀ {x st} {p : State → Reply}, (s.slot i).state = x → x ≠ .barred → st ≠ .precharge → st ≠ .queued →
      Deeds a [] s ((s.giveSteering i m).moveTo i st, p).1 := fun h hb => deeds_steerMove m (h ▸ hb)
  unfold retireSlot; split
  · next h => exact move h (by decide) (by decide) (by decide)
  · next h => exact move h (by decide) (by decide) (by decide)
  · next h => exact move h (by decide) (by decide) (by decide)
  · next h => exact move h (by decide) (by decide) (by decide)
  · next h => exact move h (by decide) (by decide) (by decide)
  · next h => exact move h (by decide) (by decide) (by decide)
  · next h => exact move h (by decide) (by decide) (by decide)
  · next h => exact move h (by decide) (by decide) (by decide)
  · unfold retireJoining; split
    · exact deeds_refl s
    · exact (deeds_giveSteering ..).trans (deeds_setRetirePending ..)
  · next h =>
    unfold retireLive; split
    · exact deeds_refl s
    · split
      · exact deeds_setRetirePending ..
      · exact deeds_steerDrain m _ (by rw [h]; decide)
  · exact deeds_giveSteering ..
  · exact deeds_giveSteering ..
  · exact deeds_giveSteering ..
  · dsimp only; exact (deeds_giveSteering ..).and (deeds_modSlot (.of rfl rfl rfl rfl rfl rfl))
  · next h =>
    unfold retireOrphan; extract_lets t; split
    · exact deeds_steerDrain m _ (by rw [h]; decide)
    · exact move h (by decide) (by decide) (by decide)
  · exact deeds_refl s
  · exact deeds_refl s
  · exact deeds_refl s
  · exact deeds_refl s

theorem run_retire : Run a s (retireBody r s).1 := onSlot_post (run_refl s) fun m i => (deeds_retireSlot m i).run

theorem run_forceRetire : Run a s (forceRetireBody r s).1 :=
  fromActive_post (run_refl s) fun m => by
    split
    · exact run_refl s
    · split
      · next h => exact (deeds_steerMove (st := .leaveWait) m (by rw [h]; decide) (by decide) (by decide)).run
      · exact run_refl s

theorem run_retireSelf : Run a s (retireSelfBody r s).1 :=
  fromBlade_post (run_refl s) fun i => by
    have later : Deeds a [] s (retireSelfLater i s).1 := by
      unfold retireSelfLater; split
      · exact deeds_refl s
      · exact deeds_setRetirePending ..
    unfold retireSelfSlot; split
    · next h =>
      split
      · exact later.run
      · exact (deeds_startDrain _ (by rw [h]; decide)).run
    · exact later.run
    all_goals exact run_refl s

/-- UNBAR clears the attempts and takes a BARRED slot to PRESENT or RELEASED (R26). -/
theorem deeds_unbar (h : (s.slot i).state = .barred) : Deeds a [] s (s.unbar i) := by
  unfold State.unbar; extract_lets u
  have b : Before i s u ∨ True := Or.inr trivial
  have hu : Deeds a [] s u := deeds_modSlot
    { lanes := fun _ k => k
      attempts := fun _ _ => ⟨by show (0 : Nat) ≤ 3; omega, fun e => absurd (show (0 : Nat) = 3 from e) (by decide)⟩
      state := rfl
      queued := fun e => by rw [h] at e; cases e }
  have move : ∀ {st}, st ≠ .precharge → st ≠ .queued → Deeds a [] u (u.moveTo i st) := fun hp hq =>
    .leave i (leaves_moveTo (Before.refl i u) hp hq fun _ _ => by
      have e : (u.slot i).attempts = 0 := by unfold u; rw [modSlot_slot_self]
      rw [e]; exact ⟨by omega, fun e => absurd e (by decide)⟩)
  split
  · exact hu.trans (move (by decide) (by decide))
  · exact hu.trans (move (by decide) (by decide))

theorem run_unbar : Run a s (unbarBody r s).1 :=
  onSlot_post (run_refl s) fun m i => by
    split
    · next h => exact (deeds_unbar h).run
    · exact run_refl s

/-! ## DECLARE -/

/-- A declaration is recorded in a slot that is not QUEUED; the attempts may be cleared. -/
theorem deeds_record (f : Slot → Slot) (hq : (s.slot i).state ≠ .queued) (hs : (f (s.slot i)).state = (s.slot i).state)
    (hl : (f (s.slot i)).lane = (s.slot i).lane)
    (hn : (f (s.slot i)).attempts = (s.slot i).attempts ∨ (f (s.slot i)).attempts = 0) :
    Deeds a [] s (s.modSlot i f) :=
  deeds_modSlot
    { lanes := fun _ k m hm => by rw [hl]; exact k m (hs ▸ hm)
      attempts := fun _ k => by
        unfold Slot.AttemptsOk; rw [hs]
        rcases hn with e | e <;> rw [e]
        · exact k
        · exact ⟨by omega, fun e => absurd e (by decide)⟩
      state := hs
      queued := fun e => absurd e hq }

theorem deeds_leaveOrphaned (hb : (s.slot i).state ≠ .barred) : Deeds a [] s (s.leaveOrphaned i) := by
  have powered : Deeds a [] s ((s.moveTo i .powered).advancePowered i) :=
    (deeds_move hb (by decide) (by decide)).trans (deeds_advancePowered (by rw [moveTo_slot_self, moved_state]; decide))
  unfold State.leaveOrphaned; split
  · exact powered
  · exact powered
  · exact deeds_onListen hb
  · exact deeds_move hb (by decide) (by decide)

theorem deedsAt_declareUsable (d : Declaration) (c : Bool) (ht : (s.slot i).takesDeclare = true) :
    DeedsAt a [i] s (declareUsable i d c s).1 := by
  have note : ∀ {l : List SlotId} {s t u : State}, Deeds a [] s t → (s.slot i).state ≠ .queued → DeedsAt a [i] t u →
      DeedsAt a [i] s u := fun h hq k => h.before k fun j hj e => by
    rw [List.mem_singleton.1 hj] at e; exact absurd e hq
  unfold declareUsable; extract_lets res; split
  · next h =>
    have hs : (s.slot i).state ≠ .queued := by rw [h]; decide
    have hr : Deeds a [] s ((s.modSlot i (Slot.record d c)).oversizeTest i) :=
      (deeds_record _ hs rfl rfl (Or.inl rfl)).trans (deeds_oversizeTest ..)
    refine note (l := []) (hr.trans (deeds_move ?_ (by decide) (by decide))) hs (deedsAt_atDeclared ..)
    obtain ⟨o, e⟩ := oversizeTest_slot (s.modSlot i (Slot.record d c)) i
    rw [e, modSlot_slot_self]
    show (s.slot i).state ≠ .barred
    rw [h]; decide
  · next h =>
    have hs : (s.slot i).state ≠ .queued := by rw [h]; decide
    exact note (l := []) (((deeds_record _ hs rfl rfl (Or.inl rfl)).trans (deeds_oversizeTest ..)).trans (deeds_postSlot ..)) hs
      (deedsAt_atDeclared ..)
  · next h =>
    show DeedsAt a [i] s (s.declareOrphaned i d c res)
    unfold State.declareOrphaned; extract_lets u v
    have hu : Deeds a [] s u := deeds_record _ (by rw [h]; decide) rfl rfl (Or.inr rfl)
    have hv : Deeds a [] s v := (hu.trans (deeds_setReservation ..)).trans (deeds_leaveOrphaned (by
      rw [setReservation_slot_self]; unfold u; rw [modSlot_slot_self]
      show (s.slot i).state ≠ .barred
      rw [h]; decide))
    split
    · exact (hv.trans (deeds_noteCheckpoint ..)).at _
    · exact (hv.trans (deeds_handleOpened ..)).at _
  · next h1 h2 h3 =>
    split
    · refine (((deeds_setReservation ..).trans (deeds_record _ ?_ rfl rfl (Or.inl rfl))).trans (deeds_postSlot ..)).at _
      rw [setReservation_slot_self]
      show (s.slot i).state ≠ .queued
      intro h; unfold Slot.takesDeclare at ht; rw [h] at ht; cases ht
    · exact (deeds_refl s).at _

theorem run_declare : Run a s (declareBody r s).1 :=
  fromBlade_post (run_refl s) fun i => by
    unfold declareSlot; split
    · exact run_refl s
    · next ht =>
      split
      · exact run_refl s
      · exact run_refl s
      · exact (deedsAt_declareUsable _ _ (by simpa using ht)).run_one

/-! ## Managers, policy, settings, reads -/

theorem run_refresh : Run a s (refreshBody r s).1 :=
  fromManager_post (run_refl s) fun m => by
    split
    · exact run_refl s
    · split
      · exact run_refl s
      · split
        · exact run_refl s
        · exact (aside_modManager s m (fun v => { v with pendingPhase := some _ }) rfl).run
        · split
          · exact run_refl s
          · refine Deeds.run (.keep (keeps_same ?_ fun z => ⟨(s.zone z).wait, ?_⟩)) <;>
              show _ = _ <;> dsimp only <;> unfold State.completePair <;> extract_lets u <;> split
            · unfold u; rw [modManager_slots]
            · unfold u State.setManagerState; rw [postShelf_slots, modManager_slots, modManager_slots]
            · unfold u; rw [modManager_zone]
            · unfold u State.setManagerState; rw [postShelf_zone, modManager_zone, modManager_zone]

theorem run_adopt : Run a s (adoptBody r s).1 :=
  onSlot_post (run_refl s) fun m i => by
    split
    · exact run_refl s
    · split
      · exact run_refl s
      · exact ((deeds_giveSteering ..).trans (deeds_noteCheckpoint ..)).run

theorem deedsAt_becomeAuto (s : State) (i : SlotId) : DeedsAt a [i] s (s.becomeAuto i) := by
  unfold State.becomeAuto; split
  · exact deedsAt_autoAdvance ..
  · next h => exact (deeds_atPowered (by rw [h]; decide)).at _
  · next h => exact (deeds_atListen (by rw [h]; decide)).at _
  · exact (deeds_modSlot (.of rfl rfl rfl rfl rfl rfl)).at _
  · exact (deeds_refl s).at _

theorem deeds_becomeSupervised (s : State) (i : SlotId) : Deeds a [] s (s.becomeSupervised i) := by
  unfold State.becomeSupervised; split
  · exact deeds_postSlot ..
  · exact deeds_postSlot ..
  · exact deeds_postSlot ..
  · exact (deeds_modSlot (.of rfl rfl rfl rfl rfl rfl)).trans (deeds_postSlot ..)
  · exact deeds_refl s

/-- A QUEUED slot whose override has changed is placed again (R83). -/
theorem places_replace {f : Slot → Slot} (hs : (s.slot i).state = .queued) (hf : (f (s.slot i)).state = (s.slot i).state)
    (hl : (f (s.slot i)).lane = (s.slot i).lane) (hn : (f (s.slot i)).attempts = (s.slot i).attempts) :
    Places a i s ((s.modSlot i f).replace i) := by
  have he : ((s.modSlot i f).replace i).slot i = f (s.slot i) := by
    unfold State.replace; rw [joinQueue_slot, leaveQueue_slot, modSlot_slot_self]
  have hst : (((s.modSlot i f).replace i).slot i).state = .queued := by rw [he, hf, hs]
  constructor
  · constructor
    · constructor
      · intro _ k m hm; rw [he] at hm ⊢; rw [hl]; exact k m (hf ▸ hm)
      · intro _ k; rw [he]; unfold Slot.AttemptsOk; rw [hn, hf]; exact k
    · intro j hj; unfold State.replace; rw [joinQueue_slot, leaveQueue_slot, modSlot_slot_ne _ _ _ hj]
    · rw [hst]; decide
    · refine fun z => Or.inr ⟨by rw [hs]; decide, ?_⟩
      unfold State.replace State.joinQueue State.leaveQueue
      rw [modZone_zone]; split
      · next h => rw [h, modZone_zone_self, modSlot_zone]; rfl
      · next h => rw [modZone_zone_ne _ _ _ h, modSlot_zone]
  · exact hst
  · intro z
    rw [he]
    unfold State.replace State.joinQueue
    rw [modZone_zone, leaveQueue_slot, modSlot_slot_self]
    unfold State.leaveQueue; split
    · next h => rw [modZone_zone_self, modSlot_zone, h]
    · next h => rw [modZone_zone_ne _ _ _ h, modSlot_zone]

theorem run_setPolicy (s : State) (i : SlotId) (p : Policy) (o : Option (Fin 4)) : Run a s (s.setPolicy i p o) := by
  unfold State.setPolicy; extract_lets was u v
  have after : ∀ w, (w = v ∨ w = v.becomeAuto i ∨ w = v.becomeSupervised i) → Run a s w := by
    have hw : ∀ w, (w = v ∨ w = v.becomeAuto i ∨ w = v.becomeSupervised i) → DeedsAt a [i] v w := fun w h => by
      rcases h with rfl | rfl | rfl
      · exact (deeds_refl _).at _
      · exact deedsAt_becomeAuto ..
      · exact (deeds_becomeSupervised ..).at _
    intro w h
    obtain ⟨L, hL, k, hq⟩ := hw w h
    by_cases hc : was.state = .queued ∧ was.override ≠ o
    · have hv : v = u.replace i := if_pos hc
      have pl : Places a i s v := by rw [hv]; exact places_replace hc.1 rfl rfl rfl
      have hL0 : L = [] := by
        refine List.eq_nil_iff_forall_not_mem.2 fun j hj => ?_
        have e := List.mem_singleton.1 (hL.mem hj)
        subst e; exact hq j hj pl.queued
      subst hL0
      refine ⟨[i], w, by simpa using (Deeds.place i pl).trans k, .refl w, List.pairwise_singleton _ _, fun j hj => ?_,
        fun _ _ => False.elim⟩
      rw [List.mem_singleton.1 hj]
      right; left
      have hvi : (v.slot i).override = o := by
        rw [hv]; unfold State.replace; rw [joinQueue_slot, leaveQueue_slot]; unfold u; rw [modSlot_slot_self]
      rcases h with rfl | rfl | rfl
      · rw [hvi]; exact fun e => hc.2 e.symm
      · have : v.becomeAuto i = v := by unfold State.becomeAuto; rw [pl.queued]
        rw [this, hvi]; exact fun e => hc.2 e.symm
      · have : v.becomeSupervised i = v := by unfold State.becomeSupervised; rw [pl.queued]
        rw [this, hvi]; exact fun e => hc.2 e.symm
    · have hv : v = u := if_neg hc
      have hu : Deeds a [] s u := deeds_modSlot
        { lanes := fun _ k => k, attempts := fun _ k => k, state := rfl
          queued := fun e => by
            have ho : o = (s.slot i).override := by
              by_contra hn; exact hc ⟨e, fun h => hn h.symm⟩
            exact ⟨by unfold Slot.effectivePriority; rw [ho], ho⟩ }
      rw [hv] at k hq
      exact (hu.before (l := [i]) ⟨L, hL, k, hq⟩ fun j hj e => by
        rw [List.mem_singleton.1 hj] at e ⊢; unfold u; rw [modSlot_slot_self]; exact e).run_one
  split
  · exact after _ (Or.inl rfl)
  · cases p with
    | auto => exact after _ (Or.inr (Or.inl rfl))
    | supervised => exact after _ (Or.inr (Or.inr rfl))

theorem run_setSlotPolicy : Run a s (setSlotPolicyBody r s).1 :=
  onSlot_post (run_refl s) fun m i => by
    split
    · exact run_refl s
    · exact run_setPolicy ..

theorem run_readSlot : Run a s (readSlotBody r s).1 := by
  have h : ∀ b i p, Run a s (readSlotOf b i p s).1 := fun b i p => by
    unfold readSlotOf; split
    · show Run a s (if b then _ else s)
      split
      · exact (deeds_modSlot (.of rfl rfl rfl rfl rfl rfl)).run
      · exact run_refl s
    · split
      · exact run_refl s
      · exact run_refl s
  unfold readSlotBody
  split
  · split
    · exact h ..
    · exact run_refl s
  · split
    · exact h ..
    · exact run_refl s
  · exact run_refl s

theorem run_readZone : Run a s (readZoneBody r s).1 :=
  readShelfOf_post (run_refl s) fun m => by split <;> exact run_refl s

theorem run_readShelf : Run a s (readShelfBody r s).1 :=
  readShelfOf_post (run_refl s) fun m => by
    split
    · exact run_refl s
    · split
      · exact run_refl s
      · split
        · show Run a s s.drawFree
          unfold State.drawFree; split
          · exact (aside_of s { s with freeReads := s.freeReads + 1 } rfl rfl rfl rfl rfl rfl rfl rfl rfl).run
          · exact run_refl s
        · exact run_refl s

theorem run_readNotices : Run a s (readNoticesBody r s).1 :=
  readShelfOf_post (run_refl s) fun _ => (aside_modManager _ _ _ rfl).run

theorem run_setNoticeMask : Run a s (setNoticeMaskBody r s).1 :=
  fromManager_post (run_refl s) fun m => by
    split
    · exact run_refl s
    · split
      · exact run_refl s
      · dsimp only; exact (aside_modManager _ _ _ rfl).run

theorem run_setTimers : Run a s (setTimersBody r s).1 :=
  onShelf_post (run_refl s) (by
    split
    · exact run_refl s
    · next t _ => exact (aside_of s { s with timers := t } rfl rfl rfl rfl rfl rfl rfl rfl rfl).run)

theorem run_setObservation : Run a s (setObservationBody r s).1 :=
  onShelf_post (run_refl s) (by
    split
    · exact run_refl s
    · dsimp only; exact (aside_modBlock _ _ rfl).run)

theorem run_setMonitor : Run a s (setMonitorBody r s).1 :=
  onShelf_post (run_refl s) (by
    split
    · exact run_refl s
    · dsimp only; exact (aside_modBank ..).run)

theorem run_readMonitor : Run a s (readMonitorBody r s).1 := readShelfOf_post (run_refl s) fun _ => run_refl s

theorem run_clearMonitor : Run a s (clearMonitorBody r s).1 :=
  onShelf_post (run_refl s) (by
    split
    · exact run_refl s
    · dsimp only; exact (aside_modBank ..).run)

theorem run_unfreeze : Run a s (unfreezeBody r s).1 := 
  onShelf_post (run_refl s) (aside_modBank s fun b => { b with frozen := false }).run

/-! ## SET_ZONE -/

theorem oversizeTest_slot_ne (s : State) {i j : SlotId} (hj : j ≠ i) : (s.oversizeTest i).slot j = s.slot j :=
  (local_oversizeTest s i).slots j hj

theorem deedsAt_retest (s : State) (i : SlotId) : DeedsAt a [i] s (s.retest i) := by
  unfold State.retest; extract_lets v u; split
  · have hu : Deeds a [] s u := deeds_oversizeTest ..
    split
    · refine hu.before (deedsAt_autoAdvance ..) fun j hj e => ?_
      obtain ⟨o, ho⟩ := oversizeTest_slot s i
      rw [List.mem_singleton.1 hj] at e ⊢
      show ((s.oversizeTest i).slot i).state = _
      rw [ho]; exact e
    · exact hu.at _
  · exact (deeds_refl s).at _

theorem retest_slot_ne (s : State) {i j : SlotId} (hj : j ≠ i) : (s.retest i).slot j = s.slot j := by
  unfold State.retest; extract_lets v u; split
  · have hu : u.slot j = s.slot j := oversizeTest_slot_ne s hj
    split
    · rw [(local_autoAdvance ..).slots j hj, hu]
    · exact hu
  · rfl

theorem slotsOf_sorted (z : ZoneId) : (slotsOf z).Pairwise (· < ·) :=
  List.Pairwise.sublist List.filter_sublist (List.pairwise_lt_finRange 16)

theorem run_setZone (hq : s.QueueSound) : Run a s (setZoneBody r s).1 :=
  onShelf_post (run_refl s) (by
    split
    · exact run_refl s
    · next v _ =>
      show Run a s (s.setZone v)
      unfold State.setZone; extract_lets u w
      have hw : DeedsAt a (slotsOf v.zone) s w :=
        (deeds_modZone s v.zone _ rfl rfl).before
          (deedsAt_foldl _ deedsAt_retest (fun s i j => retest_slot_ne s) _ (slotsOf_nodup _) u)
          fun i _ e => by rw [modZone_slot]; exact e
      have hr : Run a s w := hw.run (slotsOf_sorted _)
      exact hr.examines (examines_examine (hr.queueSound hq) _))

end

end Sys2Proof.Machine
end

section

/-! # What every other command does, and the examination at its end -/

namespace Sys2Proof.Machine

variable {a : Prop} {i : SlotId} {s t u : State}

/-! ## The sample report (R35) -/

theorem deeds_enterHandles (s : State) (i : SlotId) (moves : List Bool) : Deeds a [] s (s.enterHandles i moves) := by
  induction moves generalizing s with
  | nil => exact deeds_refl s
  | cons c l ih =>
    have h1 : Deeds a [] s (s.modSlot i (Slot.enterHandle c)) := deeds_modSlot (.of rfl rfl rfl rfl rfl rfl)
    exact (h1.and (deeds_postSlot ..)).and (ih _)

theorem deeds_presenceGained (s : State) (i : SlotId) : Deeds a [] s (s.presenceGained i) := by
  unfold State.presenceGained; extract_lets now u
  split
  · next h =>
    have hu : Deeds a [] s u := deeds_move (by rw [h]; decide) (by decide) (by decide)
    split
    · exact hu.and (deeds_move (by rw [moveTo_slot_self, moved_state]; decide) (by decide) (by decide))
    · exact hu
  · next h =>
    split
    · exact deeds_move (by rw [h]; decide) (by decide) (by decide)
    · exact deeds_refl s
  · exact deeds_refl s

theorem deeds_presenceLost (s : State) (i : SlotId) : Deeds a [] s (s.presenceLost i) := by
  unfold State.presenceLost; dsimp only
  split
  · next h => exact deeds_isolate _ (powered_ne_barred h) nofun
  · split
    · split
      · exact deeds_refl s
      · exact deeds_moveAny (Or.inr (Or.inl rfl))
    · split
      · exact deeds_refl s
      · exact deeds_moveAny (Or.inr (Or.inr rfl))

theorem deedsAt_actOnHandle_one (s : State) (i : SlotId) (c : Bool) : DeedsAt a [i] s (s.actOnHandle i [c]) := by
  have hs : ((s.enterHandles i [c]).slot i).state = (s.slot i).state := by rw [enterHandles_slot]
  rw [actOnHandle_one]; split
  · exact (deeds_enterHandles s i [c]).before (deedsAt_handleClosed ..) fun j hj e => by
      rw [List.mem_singleton.1 hj] at e ⊢; rw [hs]; exact e
  · exact ((deeds_enterHandles s i [c]).and (deeds_handleOpened ..)).at _

theorem deeds_actOnHandle_open (s : State) (i : SlotId) : Deeds a [] s (s.actOnHandle i [false]) := by
  rw [actOnHandle_one, if_neg (by decide)]
  exact (deeds_enterHandles ..).and (deeds_handleOpened ..)

/-- A handle accepted OPEN leaves its slot in no queue. -/
theorem actOnHandle_open_unqueued (s : State) (i : SlotId) : ((s.actOnHandle i [false]).slot i).state ≠ .queued := by
  rw [actOnHandle_one, if_neg (by decide)]
  have hs : ((s.enterHandles i [false]).slot i).state = (s.slot i).state := by rw [enterHandles_slot]
  intro hq
  have k := ((deeds_handleOpened (a := True) (s.enterHandles i [false]) i).unplaced i (by simp) hq).1
  unfold State.handleOpened at hq; rw [k] at hq
  dsimp only at hq
  rw [moveTo_slot_self, moved_state] at hq; cases hq

/-- What a sample report does to the place of its slot: it is placed only where it was not QUEUED, but for the report that
opens and closes the handle, which takes it from the queue first (log entry 24). -/
inductive ReportPlaces (a : Prop) (i : SlotId) (s t : State) : Prop
  | once : DeedsAt a [i] s t → ((s.slot i).lines.opensAndCloses = true → (s.slot i).state ≠ .queued) → ReportPlaces a i s t
  | twice (u : State) : (s.slot i).lines.opensAndCloses = true → Deeds a [] s u → (u.slot i).state ≠ .queued →
      DeedsAt a [i] u t → ReportPlaces a i s t

theorem ReportPlaces.and (h : ReportPlaces a i s t) (k : Deeds a [] t u) : ReportPlaces a i s u := by
  cases h with
  | once h o => exact .once (h.after k) o
  | twice v o h hq h2 => exact .twice v o h hq (h2.after k)

theorem presence_of_rank {p q : Presence} (h : p.rank = q.rank) : p = q := by
  revert h
  cases p <;> cases q <;> decide

/-- The handle changes of the report that opens and closes the handle, and of no other. -/
theorem handleMoves_cases (p : LineReport) (was : Bool) : p.handleMoves was = [] ∨ (∃ c, p.handleMoves was = [c]) ∨
    p.handleMoves was = [true, false] ∨
    (p.handleMoves was = [false, true] ∧ was = true ∧ p.levels.handleClosed = true ∧
      p.surveyEnd.any (fun e => !e.handleClosed) = true) := by
  unfold LineReport.handleMoves
  cases p.surveyEnd with
  | none => cases was <;> cases p.levels.handleClosed <;> simp
  | some e => cases was <;> cases p.levels.handleClosed <;> cases he : e.handleClosed <;> simp [he]

/-- A report that opens and closes the handle brings these two changes. -/
theorem handleMoves_opensAndCloses {l : SlotLines} (h : l.opensAndCloses = true) :
    l.report.handleMoves l.handed.handleClosed = [false, true] := by
  unfold SlotLines.opensAndCloses at h
  simp only [Bool.and_eq_true, decide_eq_true_eq] at h
  obtain ⟨⟨⟨⟨-, -⟩, hc⟩, he⟩, ha⟩ := h
  unfold SlotLines.report LineReport.handleMoves
  cases hs : l.surveyEnd with
  | none => rw [hs] at he; cases he
  | some e =>
    rw [hs] at he
    have he : e.handleClosed = false := by simpa using he
    simp [he, hc, ha]

theorem reportPlaces_lines (s : State) (i : SlotId) (hd : (s.slot i).lines.reportDue = true) :
    ReportPlaces a i s (s.reportLines i (s.slot i).lines.report) := by
  unfold State.reportLines; extract_lets r was moves u
  have hu : Deeds a [] s u := deeds_modSlot (.of rfl rfl rfl rfl rfl rfl)
  have hus : (u.slot i).state = (s.slot i).state := by unfold u; rw [modSlot_slot_self]
  have hv : Deeds a [] s (u.enterHandles i moves) := hu.and (deeds_enterHandles ..)
  have opens : (s.slot i).lines.opensAndCloses = true → was.presence = (s.slot i).lines.report.levels.presence := fun h => by
    unfold SlotLines.opensAndCloses at h
    simp only [Bool.and_eq_true, decide_eq_true_eq] at h
    exact h.1.1.1.2.symm
  split
  · next hr =>
    exact .once ((hv.and (deeds_presenceGained ..)).at _) fun o => by rw [opens o] at hr; exact absurd hr (lt_irrefl _)
  · next hn =>
    split
    · next hr =>
      exact .once ((hv.and (deeds_presenceLost ..)).at _) fun o => by rw [opens o] at hr; exact absurd hr (lt_irrefl _)
    · next hn' =>
      split
      · next ho =>
        have hp := ho.2
        have hb : ((u.enterHandles i moves).slot i).state ≠ .barred := by
          rw [enterHandles_slot]; show (u.slot i).state ≠ _
          rw [hus]; exact powered_ne_barred hp
        refine .once ((hv.and (deeds_isolate .overcurrent hb nofun)).at _) fun _ e => ?_
        unfold r at hp; rw [e] at hp; cases hp
      · have one : ∀ {t}, DeedsAt a [i] u t → DeedsAt a [i] s t := fun h =>
          hu.before h fun j hj e => by rw [List.mem_singleton.1 hj] at e ⊢; rw [hus]; exact e
        have never : moves ≠ [false, true] → (s.slot i).lines.opensAndCloses = true → (s.slot i).state ≠ .queued :=
          fun h o => absurd (handleMoves_opensAndCloses o) h
        rcases handleMoves_cases (s.slot i).lines.report was.handleClosed with h | ⟨c, h⟩ | h | ⟨h, hw, hl, he⟩
        · rw [show moves = [] from h, actOnHandle_nil]
          exact .once (hu.at _) (never (by rw [show moves = [] from h]; simp))
        · rw [show moves = [c] from h]
          exact .once (one (deedsAt_actOnHandle_one ..)) (never (by rw [show moves = [c] from h]; simp))
        · rw [show moves = [true, false] from h, actOnHandle_two]
          exact .once ((one (deedsAt_actOnHandle_one u i true)).after (deeds_actOnHandle_open ..))
            (never (by rw [show moves = _ from h]; simp))
        · rw [show moves = [false, true] from h, actOnHandle_two]
          refine .twice _ ?_ (hu.and (deeds_actOnHandle_open ..)) (actOnHandle_open_unqueued u i) (deedsAt_actOnHandle_one ..)
          have hp : was.presence = (s.slot i).lines.report.levels.presence :=
            presence_of_rank (le_antisymm (not_lt.1 hn') (not_lt.1 hn))
          unfold SlotLines.opensAndCloses
          simp only [Bool.and_eq_true, decide_eq_true_eq]
          exact ⟨⟨⟨⟨hd, hp.symm⟩, hw⟩, he⟩, hl⟩

theorem deeds_reportPg (s : State) (i : SlotId) (lost : Bool) : Deeds a [] s (s.reportPg i lost) := by
  unfold State.reportPg; extract_lets st; split
  · next h =>
    have hs : (s.slot i).state = .precharge := by
      unfold State.completes at h; split at h
      · simp only [Bool.and_eq_true, decide_eq_true_eq] at h; exact h.1.1.1
      · cases h
    have hm : Deeds a [] s (s.moveTo i .powered) := deeds_move (by rw [hs]; decide) (by decide) (by decide)
    exact hm.and (deeds_atPowered (by rw [moveTo_slot_self, moved_state]; decide))
  · split
    · exact deeds_postSlot ..
    · exact deeds_refl s

theorem reportPlaces_takeReport (s : State) (i : SlotId) (hd : (s.slot i).lines.reportDue = true) :
    ReportPlaces a i s (s.takeReport i) := (reportPlaces_lines s i hd).and (deeds_reportPg ..)

/-- A report that opens and closes the handle of slot `i`. -/
def OpensAndCloses (i : SlotId) (s : State) (j : SlotId) : Prop := j = i ∧ (s.slot i).lines.opensAndCloses = true

theorem ReportPlaces.run (h : ReportPlaces a i s t) : RunFor a (OpensAndCloses i s) s t := by
  cases h with
  | once h o =>
    obtain ⟨L, hL, h, hq⟩ := h
    refine ⟨L, t, h, .refl t, (List.pairwise_singleton _ i).sublist hL, fun j hj => Or.inl (hq j hj), fun j hn hw e => ?_⟩
    obtain ⟨rfl, hw⟩ := hw
    exact o hw (h.unplaced j hn e).1
  | twice u o h hq k =>
    obtain ⟨L, hL, k, -⟩ := k
    refine ⟨L, t, h.trans k, .refl t, (List.pairwise_singleton _ i).sublist hL,
      fun j hj => Or.inr (Or.inr ⟨List.mem_singleton.1 (hL.mem hj), o⟩), fun j hn hw e => ?_⟩
    obtain ⟨rfl, -⟩ := hw
    exact hq (k.unplaced j hn e).1

theorem runFor_sampleReport (hq : s.QueueSound) (h : execSampleReport i s = .next t) :
    RunFor a (OpensAndCloses i s) s t := by
  unfold execSampleReport at h; split at h
  · next hd => exact run_event (f := fun s => s.takeReport i) (reportPlaces_takeReport s i hd).run hq h
  · next hd =>
    cases h
    refine ⟨[], s, deeds_refl s, .refl s, .nil, nofun, fun j _ hw => absurd ?_ hd⟩
    have ho := hw.2
    unfold SlotLines.opensAndCloses at ho
    simp only [Bool.and_eq_true] at ho
    exact ho.1.1.1.1

/-- The report that completes a precharge finds its slot in PRECHARGE, so that it places none. -/
theorem run_prechargeComplete (hq : s.QueueSound) (h : execPrechargeComplete i s = .next t) : Run a s t := by
  unfold execPrechargeComplete at h; split at h
  · next hd =>
    refine run_event (f := fun s => s.takeReport i) ?_ hq h
    have hp : ((s.reportLines i (s.slot i).lines.report).slot i).state = .precharge := by
      have hc := hd.2
      unfold State.reportCompletes State.completes at hc; split at hc
      · simp only [Bool.and_eq_true, decide_eq_true_eq] at hc; exact hc.1.1.1
      · cases hc
    have hs : (s.slot i).state = .precharge := by
      rcases reportPlaces_lines (a := True) s i hd.1 with ⟨⟨L, -, h, -⟩, -⟩ | ⟨u, -, h, -, ⟨M, -, k, -⟩⟩
      · exact h.precharge i hp
      · exact h.precharge i (k.precharge i hp)
    rcases reportPlaces_takeReport (a := a) s i hd.1 with ⟨h, -⟩ | ⟨u, -, h, -, k⟩
    · exact h.run_one
    · obtain ⟨L, hL, k, -⟩ := k
      refine DeedsAt.run_one (i := i) ⟨L, hL, h.trans k, fun j hj => ?_⟩
      rw [List.mem_singleton.1 (hL.mem hj), hs]; decide
  · cases h; exact run_refl s

/-! ## Channel and timers -/

theorem run_grant {z : ZoneId} (hq : s.QueueSound) (h : execGrant z s = .next t) : Run a s t := by
  unfold execGrant at h; split at h
  · next e l hl hw =>
    exact run_event (f := fun s => s.grantTo z e.slot) ((run_refl s).examines (.grant z e l hl hw)) hq h
  · cases h; exact run_refl s

theorem run_limitExpiry {z : ZoneId} (hq : s.QueueSound) (h : execPrechargeLimitExpiry z s = .next t) : Run a s t := by
  unfold execPrechargeLimitExpiry at h; split at h
  · next p _ =>
    split at h
    · exact run_event (f := fun s => (s.bar p.holder .prechargeTimeout).count .prechargeFault 1)
        ((deeds_bar ..).and (deeds_count ..)).run hq h
    · cases h; exact run_refl s
  · cases h; exact run_refl s

theorem run_declareExpiry (hq : s.QueueSound) (h : execDeclareTimerExpiry i s = .next t) : Run a s t := by
  unfold execDeclareTimerExpiry at h; split at h
  · refine run_event (f := fun s => (s.modSlot i fun r => { r with declareTimer := .expired }).postSlot .declareOverdue i)
      (Deeds.run ?_) hq h
    exact Deeds.and (deeds_modSlot (.of rfl rfl rfl rfl rfl rfl)) (deeds_postSlot ..)
  · cases h; exact run_refl s

theorem run_drainExpiry (hq : s.QueueSound) (h : execDrainTimerExpiry i s = .next t) : Run a s t := by
  unfold execDrainTimerExpiry at h; split at h
  · refine run_event (f := fun s => (s.modSlot i fun r => { r with drainTimer := .expired }).postSlot .drainOverdue i)
      (Deeds.run ?_) hq h
    exact Deeds.and (deeds_modSlot (.of rfl rfl rfl rfl rfl rfl)) (deeds_postSlot ..)
  · cases h; exact run_refl s

theorem run_dischargeExpiry (ha : a → s.SlotsSound) (hq : s.QueueSound) (h : execDischargeTimerExpiry i s = .next t) :
    Run a s t := by
  unfold execDischargeTimerExpiry at h; split at h
  · next hd =>
    have hb : a → (s.slot i).state ≠ .barred := fun h => by
      rw [((ha h).records i).dischargeTimer (due_ne hd)]; decide
    refine run_event (f := fun s => s.endDischarge i) (Deeds.run ?_) hq h
    unfold State.endDischarge; split
    · exact .leave i (leaves_self hb (by decide) (by decide))
    · exact deeds_toDeclared_blocked (Before.refl i s) rfl hb (Or.inl rfl)
  · cases h; exact run_refl s

theorem run_backoffExpiry (ha : a → s.SlotsSound) (hq : s.QueueSound) (h : execRetryBackoffExpiry i s = .next t) :
    Run a s t := by
  unfold execRetryBackoffExpiry at h; split at h
  · next hd =>
    have hb : a → (s.slot i).state ≠ .barred := fun h => by
      rw [((ha h).records i).backoffTimer (due_ne hd)]; decide
    refine run_event (f := fun s => s.endBackoff i) (Deeds.run ?_) hq h
    unfold State.endBackoff; split
    · exact deeds_modSlot (.of rfl rfl rfl rfl rfl rfl)
    · exact .leave i (leaves_self hb (by decide) (by decide))
  · cases h; exact run_refl s

/-! ## Feeds -/

theorem deedsAt_leaveDark (s : State) (z : ZoneId) : DeedsAt a (slotsOf z) s (s.leaveDark z) := by
  refine deedsAt_foldl _ (fun s i => ?_) (fun s i j hj => ?_) _ (slotsOf_nodup z) s
  · split
    · exact deedsAt_autoAdvance ..
    · exact (deeds_refl s).at _
  · split
    · exact (local_autoAdvance ..).slots j hj
    · rfl

/-- The examination of a DARK zone admits no slot. -/
theorem deeds_examine_dark {z : ZoneId} (hq : s.QueueSound) (hd : (s.zone z).protection = .dark) :
    Deeds a [] s (s.examine z) := by
  have key : ∀ (l : List QueueEntry) (u : State),
      (∀ e ∈ l, (u.slot e.slot).state = .queued ∨ (u.slot e.slot).state = .declared) →
      Deeds a [] u (l.foldl (fun s e => (s.moveTo e.slot .declared).noteCheckpoint e.slot) u) := by
    intro l
    induction l with
    | nil => exact fun u _ => deeds_refl u
    | cons e l ih =>
      intro u hu
      refine ((Deeds.leave e.slot (leaves_sweep (hu e List.mem_cons_self))).and (deeds_noteCheckpoint ..)).and
        (ih _ fun x hx => ?_)
      rw [noteCheckpoint_slot]
      by_cases hj : x.slot = e.slot
      · rw [hj, moveTo_slot_self, moved_state]; exact Or.inr rfl
      · rw [(local_moveTo ..).slots _ hj]; exact hu x (List.mem_cons_of_mem _ hx)
  have hs : Deeds a [] s (s.sweepQueue z) := key _ s fun e he =>
    Or.inl ((hq.member z e.slot).1 ⟨e, (List.mem_filter.1 he).1, rfl⟩).1
  have hd' : ((s.sweepQueue z).zone z).protection = .dark := (protection_of_calm (calm_sweepQueue s z) z).trans hd
  refine hs.and (u := s.examine z) ?_
  unfold State.examine State.testHead; split
  · next e l hl hw => exact absurd hd' (admits_iff.1 (headWait_none hl hw).2.1).1
  · exact deeds_modZone _ z _ rfl rfl

/-- A zone that is DARK isolates its powered slots, and admits none. -/
theorem deeds_enterDark {z : ZoneId} (hq : s.QueueSound) (hd : (s.zone z).protection = .dark) :
    Deeds a [] s (s.enterDark z) := by
  unfold State.enterDark; extract_lets u
  have key : ∀ (l : List SlotId) (v : State), (∀ i ∈ l, zoneOf i = z) → (v.zone z).protection = .dark →
      Deeds a [] v (l.foldl (fun s i => if (s.slot i).state.isPowered then s.isolate i .zoneDark else s) v) ∧
      ((l.foldl (fun s i => if (s.slot i).state.isPowered then s.isolate i .zoneDark else s) v).zone z).protection =
        .dark := by
    intro l
    induction l with
    | nil => exact fun v _ h => ⟨deeds_refl v, h⟩
    | cons i l ih =>
      intro v hl hv
      rw [List.foldl_cons]
      have one : Deeds a [] v (if (v.slot i).state.isPowered then v.isolate i .zoneDark else v) ∧
          ((if (v.slot i).state.isPowered then v.isolate i .zoneDark else v).zone z).protection = .dark := by
        split
        · next h =>
          exact ⟨deeds_isolate _ (powered_ne_barred h) fun _ => by rw [hl i List.mem_cons_self]; exact hv,
            (protection_of_calm (calm_isolate ..) z).trans hv⟩
        · exact ⟨deeds_refl v, hv⟩
      obtain ⟨h1, h2⟩ := ih _ (fun j hj => hl j (List.mem_cons_of_mem _ hj)) one.2
      exact ⟨one.1.and h1, h2⟩
  obtain ⟨h1, h2⟩ := key (slotsOf z) s (fun i hi => mem_slotsOf.1 hi) hd
  have hu : Deeds a [] s (u.postShelf .feed) := h1.and (deeds_postShelf ..)
  exact hu.and (deeds_examine_dark (hu.queueSound hq) (by rw [postShelf_zone]; exact h2))

theorem run_feedEffects (hq : s.QueueSound) (z : ZoneId) (p : Protection) : Run a s (s.feedEffects z p) := by
  unfold State.feedEffects; extract_lets now; split
  · next h => exact (deeds_enterDark hq h.1).run
  · split
    · have h : DeedsAt a (slotsOf z) s ((s.postShelf .feed).leaveDark z) :=
        (deeds_postShelf ..).before (deedsAt_leaveDark ..) fun i _ e => by rw [postShelf_slot]; exact e
      have hr : Run a s ((s.postShelf .feed).leaveDark z) := h.run (slotsOf_sorted z)
      exact hr.examines (examines_examine (hr.queueSound hq) z)
    · have hr : Run a s (s.postShelf .feed) := (deeds_postShelf ..).run
      exact hr.examines (examines_examine (hr.queueSound hq) z)

/-- What runs after deeds that place no slot and keep the slots QUEUED. -/
theorem Deeds.andRun (h : Deeds a [] s t) (hs : ∀ i, t.slot i = s.slot i) (k : Run a t u) : Run a s u := by
  obtain ⟨L, v, k, e, hl, hr, hw⟩ := k
  exact ⟨L, v, h.trans k, e, hl, fun i hi => hs i ▸ hr i hi, hw⟩

theorem run_takeFeed (hq : s.QueueSound) (z : ZoneId) : Run a s (s.takeFeed z) := by
  unfold State.takeFeed; split
  · unfold State.feedChange; extract_lets was u
    have hu : Deeds a [] s u := deeds_modZone s z _ rfl rfl
    split
    · exact (hu.and (.keep (t := { u with survey := { u.survey with heldFeed := true } })
        (keeps_same rfl fun w => ⟨(u.zone w).wait, by cases w <;> rfl⟩))).run
    · exact hu.andRun (fun i => modZone_slot ..) (run_feedEffects (hu.queueSound hq) z was)
  · exact run_refl s

theorem run_feedHealthChange {z : ZoneId} (hq : s.QueueSound) (h : execFeedHealthChange z s = .next t) : Run a s t := by
  unfold execFeedHealthChange at h; split at h
  · exact run_event (f := fun s => s.takeFeed z) (run_takeFeed hq z) hq h
  · cases h; exact run_refl s

/-! ## Managers -/

theorem deeds_modManager (s : State) (m : ManagerId) (f : Manager → Manager) : Deeds a [] s (s.modManager m f) :=
  .keep (keeps_same (modManager_slots ..) fun z => ⟨(s.zone z).wait, modManager_zone ..⟩)

theorem deeds_dropSteerings (s : State) (m : ManagerId) : Deeds a [] s (s.dropSteerings m) :=
  .keep ⟨fun i => by rw [dropSteerings_slot]; exact .of rfl rfl rfl rfl rfl rfl, fun z => by
    unfold State.dropSteerings; rw [setSlots_zone], fun z => by unfold State.dropSteerings; rw [setSlots_zone]⟩

theorem deeds_setManagerState (s : State) (m : ManagerId) (st : ManagerState) : Deeds a [] s (s.setManagerState m st) :=
  (deeds_modManager ..).and (deeds_postShelf ..)

/-- A manager that is no longer supervised. -/
theorem deeds_unsupervised (s : State) (m : ManagerId) (f : Manager → Manager) (st : ManagerState) :
    Deeds a [] s (((s.modManager m f).dropSteerings m).setManagerState m st) :=
  ((deeds_modManager ..).and (deeds_dropSteerings ..)).and (deeds_setManagerState ..)

theorem run_bayStrapChange {m : ManagerId} (hq : s.QueueSound) (h : execBayStrapChange m s = .next t) : Run a s t := by
  unfold execBayStrapChange at h; split at h
  · refine run_event (f := fun s => s.strapChange m) (Deeds.run ?_) hq h
    unfold State.strapChange; extract_lets level u
    have hu : Deeds a [] s u := deeds_modManager ..
    split
    · unfold State.strapPresent; split
      · exact hu.and (deeds_setManagerState ..)
      · exact hu
    · exact hu.and (deeds_unsupervised ..)
  · cases h; exact run_refl s

theorem run_supervision {m : ManagerId} (hq : s.QueueSound) (h : execSupervisionTimerExpiry m s = .next t) :
    Run a s t := by
  unfold execSupervisionTimerExpiry at h; split at h
  · exact run_event (f := fun s => s.lapse m) (deeds_unsupervised ..).run hq h
  · cases h; exact run_refl s

/-! ## Timing -/

theorem deeds_modRef (s : State) (f : Reference → Reference) : Deeds a [] s (s.modRef f) := (aside_modRef ..).deeds

theorem deeds_setReference (s : State) (f : Reference → Reference) : Deeds a [] s (s.setReference f) :=
  (deeds_modRef ..).and (deeds_postShelf ..)

theorem deeds_goFree (s : State) : Deeds a [] s s.goFree := (deeds_setReference ..).and (deeds_modBlock ..)

theorem run_holdoverLimit (hq : s.QueueSound) (h : execHoldoverLimit s = .next t) : Run a s t := by
  unfold execHoldoverLimit at h; split at h
  · exact run_event (f := fun s => s.goFree) (deeds_goFree s).run hq h
  · cases h; exact run_refl s

theorem deeds_marker (s : State) (src : Source) (d : Nat) : Deeds a [] s (s.marker src d) := by
  unfold State.marker; extract_lets before age u
  have hu : Deeds a [] s u := deeds_modRef ..
  split
  · exact hu
  · split
    · split
      · exact hu.and (deeds_setReference ..)
      · exact hu
    · split
      · refine hu.and ?_
        unfold State.acquisitionMarker
        split
        · split
          · exact deeds_setReference ..
          · exact deeds_modRef ..
        · exact deeds_modRef ..
      · exact hu
    · exact hu
    · exact hu

theorem deeds_syncClose (s : State) : Deeds a [] s s.syncClose := by
  unfold State.syncClose; extract_lets u now v
  have hu : Deeds a [] s u := by
    unfold u; split
    · exact deeds_goFree s
    · exact deeds_refl s
  have hv : Deeds a [] s v := hu.and (deeds_modRef ..)
  split
  · exact hv
  · refine hv.and ?_
    unfold State.closeAcquiring; split
    · split
      · exact deeds_refl v
      · exact deeds_goFree v
    · exact deeds_refl v
  · refine hv.and ?_
    unfold State.closeLocked; split
    · exact deeds_modRef ..
    · exact deeds_setReference ..
  · split
    · refine hv.and ?_
      unfold State.closeHoldover; split
      · split
        · exact deeds_setReference ..
        · exact deeds_modRef ..
      · exact deeds_modRef ..
    · exact hv

theorem run_syncWindowClose (hq : s.QueueSound) (h : execSyncWindowClose s = .next t) : Run a s t := by
  unfold execSyncWindowClose at h; split at h
  · exact run_event (f := fun s => s.syncClose) (deeds_syncClose s).run hq h
  · cases h; exact run_refl s

/-! ## The highway -/

theorem deeds_laneMismatch (s : State) (i : SlotId) : Deeds a [] s (s.laneMismatch i) := by
  unfold State.laneMismatch; split
  · extract_lets u v
    have hu : Deeds a [] s u := deeds_modSlot (.of rfl rfl rfl rfl rfl rfl)
    have hv : Deeds a [] s v := hu.and (deeds_modBlock ..)
    split
    · exact hv.and (deeds_setPhase ..)
    · exact hv
  · exact deeds_refl s

theorem undoWait_state {r : Slot} (h : r.undoWait = true) : r.state = .joinObserve ∨ r.state = .live := by
  unfold Slot.undoWait at h
  simp only [Bool.and_eq_true, Bool.or_eq_true, decide_eq_true_eq] at h
  exact h.2

theorem deeds_actOnSense (s : State) (i : SlotId) (k : SwitchKind) : Deeds a [] s (s.actOnSense i k) := by
  unfold State.actOnSense; extract_lets r result u
  have hu : Deeds a [] s u ∧ (u.slot i) = s.slot i := by
    unfold u; split
    · exact ⟨deeds_refl s, rfl⟩
    · exact ⟨deeds_postSlot .., postSlot_slot ..⟩
  have isolate : (s.slot i).state ≠ .barred → Deeds a [] s (u.isolate i .stuckLane) := fun h =>
    hu.1.and (deeds_isolate _ (by rw [hu.2]; exact h) nofun)
  split
  · split
    · exact hu.1
    · exact hu.1.and (deeds_laneMismatch ..)
  · split
    · next h =>
      split
      · exact hu.1.and (deeds_bar ..)
      · exact isolate (by rcases undoWait_state h with h | h <;> rw [h] <;> decide)
    · split
      · next h => exact isolate (powered_ne_barred h.2)
      · exact hu.1
  · exact hu.1

theorem deeds_senseSlot (s : State) (i : SlotId) (v : LaneSense) : Deeds a [] s (s.senseSlot i v) := by
  unfold State.senseSlot; extract_lets u l
  have hu : Deeds a [] s u := deeds_modLane _ rfl rfl
  split
  · split
    · exact hu
    · exact (hu.and (deeds_modLane _ rfl rfl)).and (deeds_actOnSense ..)
  · exact hu

theorem deeds_foldl {α : Type} (f : State → α → State) (hf : ∀ s x, Deeds a [] s (f s x)) (l : List α) (s : State) :
    Deeds a [] s (l.foldl f s) := by
  induction l generalizing s with
  | nil => exact deeds_refl s
  | cons x l ih => exact (hf s x).and (ih _)

theorem run_laneSenseSample {senses : Vector LaneSense 16} (hq : s.QueueSound)
    (h : execLaneSenseSample senses s = .next t) : Run a s t := by
  unfold execLaneSenseSample at h; split at h
  · refine run_event (f := fun s => s.senseAll senses) (Deeds.run ?_) hq h
    have h0 : Deeds a [] s { s with laneDue := false } :=
      .keep (keeps_same rfl fun w => ⟨(s.zone w).wait, by cases w <;> rfl⟩)
    exact h0.and (deeds_foldl _ (fun s i => deeds_senseSlot s i _) _ _)
  · cases h; exact run_refl s

/-- The switching of an entry of the change list, as it takes the window. -/
theorem deeds_grantWindow (ha : a → s.ListSound) (e : ChangeEntry) (he : e ∈ s.block.list) :
    Deeds a [] s ((s.modBlock (WindowBlock.grant e)).applyChange e) := by
  obtain ⟨i, k⟩ := e
  have hs : a → (s.slot i).Awaits k := fun h => ((listSound_iff.1 (ha h)).2 i).entry k |>.1 he
  unfold State.applyChange; cases k with
  | join =>
    refine deeds_moved ((before_grant s _).trans (before_switchLanes ..)) ?_ (fun h => ?_) (by decide) (by decide)
    · rw [switchLanes_slot_self]; rfl
    · rw [show (s.slot i).state = .joinWait from hs h]; decide
  | leave =>
    refine deeds_moved ((before_grant s _).trans ((before_switchLanes ..).trans (before_freeGroups ..))) ?_ (fun h => ?_)
      (by decide) (by decide)
    · rw [freeGroups_slot_self, switchLanes_slot_self]; rfl
    · rw [show (s.slot i).state = .leaveWait from hs h]; decide
  | regroup =>
    have live : a → (s.slot i).state.laneMode = none := fun h => by
      rw [((listSound_iff.1 (ha h)).2 i).live (hs h)]; rfl
    show Deeds a [] s ((s.modBlock _).applyRegroup i)
    unfold State.applyRegroup; extract_lets l u
    have h0 : Deeds a [] s (s.modBlock (WindowBlock.grant ⟨i, .regroup⟩)) := deeds_modBlock ..
    have hu : Deeds a [] (s.modBlock (WindowBlock.grant ⟨i, .regroup⟩)) u := deeds_modSlot
      ⟨⟨fun h _ _ hm => absurd ((live h).symm.trans hm) nofun, fun _ k => k⟩, rfl, fun _ => ⟨rfl, rfl⟩⟩
    exact ((h0.and hu).and (deeds_modLane _ rfl rfl)).and (deeds_postSlot ..)

theorem run_windowGrant (ha : a → s.ListSound) (hq : s.QueueSound) (h : execWindowGrant s = .next t) : Run a s t := by
  unfold execWindowGrant at h; split at h
  · next e _ hl =>
    split at h
    · exact run_event (f := fun s => (s.modBlock (WindowBlock.grant e)).applyChange e)
        (deeds_grantWindow ha e (by rw [hl]; exact List.mem_cons_self)).run hq h
    · cases h; exact run_refl s
  · cases h; exact run_refl s

theorem deeds_setWindowPhase (s : State) (p : WindowPhase) : Deeds a [] s (s.setWindowPhase p) := deeds_modBlock ..

theorem deeds_dropGroups (s : State) (i : SlotId) (gs : GroupSet) : Deeds a [] s (s.dropGroups i gs) :=
  ((deeds_freeSet ..).and (deeds_modLane _ rfl rfl)).and (deeds_postSlot ..)

theorem deeds_endRegroup (hb : (s.slot i).state ≠ .barred) : Deeds a [] s (s.endRegroup i) := by
  unfold State.endRegroup; extract_lets u
  have hu : Deeds a [] s u := deeds_modBlock ..
  split
  · exact hu.and (deeds_startDrain _ (by unfold u; rw [closeWindow_slot]; exact hb))
  · exact hu

theorem dropGroups_state (s : State) (i : SlotId) (gs : GroupSet) :
    ((s.dropGroups i gs).slot i).state = (s.slot i).state := by
  unfold State.dropGroups; rw [postSlot_slot, modLane_slot_self, freeSet_slot]

/-- A CLEAN revert counts an attempt of a slot that is not BARRED, and bars it at the third (R5). -/
theorem deeds_revertClean (hb : (s.slot i).state ≠ .barred) : Deeds a [] s (s.revertClean i) := by
  unfold State.revertClean; extract_lets u
  have b : Before i s u := (before_modBlock _ _ _ rfl).trans (before_modSlot _ _ _ rfl rfl rfl)
  have hn : (u.slot i).attempts = (s.slot i).attempts + 1 := by
    unfold u; rw [modSlot_slot_self, closeWindow_slot]
  have fit : ∀ {st}, ((u.slot i).attempts = 3 → st = .barred) → a → (s.slot i).AttemptsOk →
      AttemptsFit (u.slot i).attempts st := fun h _ k => by
    have hlt : (s.slot i).attempts ≠ 3 := fun e => hb (k.2 e)
    have hle := k.1
    exact ⟨by omega, fun e => Or.inl (h e)⟩
  split
  · have hm : Deeds a [] s (u.moveTo i .barred) :=
      .leave i (leaves_moveTo b (by decide) (by decide) (fit fun _ => rfl))
    exact (hm.and (deeds_modSlot (.of rfl rfl rfl rfl rfl rfl))).and (deeds_postSlot ..)
  · next h3 =>
    have move : ∀ {st}, st ≠ .precharge → st ≠ .queued → Deeds a [] s (u.moveTo i st) := fun hp hq =>
      .leave i (leaves_moveTo b hp hq (fit fun e => absurd e.ge h3))
    split
    · exact move (by decide) (by decide)
    · exact (move (by decide) (by decide)).and (deeds_noteCheckpoint ..)

theorem deeds_actOnVerdict (w : OpenWindow) (v : Verdict) (hs : (s.slot w.holder).state = w.kind.observedState) :
    Deeds a [] s (s.actOnVerdict w v) := by
  have hb : (s.slot w.holder).state ≠ .barred := by rw [hs]; cases w.kind <;> decide
  have closed : (s.closeWindow.slot w.holder).state ≠ .barred := by rw [closeWindow_slot]; exact hb
  have hc : Deeds a [] s s.closeWindow := deeds_modBlock ..
  unfold State.actOnVerdict
  split
  · unfold State.joinClean; extract_lets u; split
    · exact hc.and (deeds_startDrain _ closed)
    · exact hc.and (deeds_move closed (by decide) (by decide))
  · exact (deeds_setWindowPhase ..).and (deeds_setPhase ..)
  · exact deeds_revertClean hb
  · exact deeds_isolate _ hb nofun
  · unfold State.regroupClean; extract_lets l
    exact (deeds_dropGroups ..).and (deeds_endRegroup (by rw [dropGroups_state]; exact hb))
  · exact (deeds_setWindowPhase ..).and (deeds_postSlot ..)
  · unfold State.leaveEnd; extract_lets u
    have hu : Deeds a [] s u := hc.and (deeds_move closed (by decide) (by decide))
    split
    · exact hu.and (deeds_postSlot ..)
    · exact hu
  · exact deeds_refl s

theorem run_windowVerdict (hq : s.QueueSound) (h : execWindowVerdict s = .next t) : Run a s t := by
  unfold execWindowVerdict at h; split at h
  · next w _ =>
    split at h
    · next hc =>
      refine run_event (f := fun s => s.giveVerdict w) (Deeds.run ?_) hq h
      unfold State.giveVerdict; extract_lets v u
      have hu : Deeds a [] s u := deeds_modBlock ..
      split
      · exact hu.and (deeds_setWindowPhase ..)
      · exact hu.and (deeds_actOnVerdict w v (by unfold u; rw [modBlock_slot]; exact hc.2))
    · cases h; exact run_refl s
  · cases h; exact run_refl s

theorem deeds_useBoundary (s : State) : Deeds a [] s s.useBoundary := deeds_modBlock ..

theorem deeds_offHighway (h : (s.slot i).state.laneMode = none) : Deeds a [] s (s.offHighway i) :=
  ((deeds_switchLanes _ _ _ _ h).and (deeds_count ..)).and (deeds_useBoundary _)

theorem run_revert (hq : s.QueueSound) (h : execRevert s = .next t) : Run a s t := by
  unfold execRevert at h; split at h
  · next w _ =>
    split at h
    · next hc =>
      refine run_event (f := fun s => s.applyRevert w.holder) (Deeds.run ?_) hq h
      unfold State.applyRevert; extract_lets u
      have hu : Deeds a [] s u := (deeds_offHighway (by rw [hc.2.2.2.2]; rfl)).and (deeds_setPhase ..)
      exact hu.and (deeds_modBlock ..)
    · cases h; exact run_refl s
  · cases h; exact run_refl s

theorem run_restore (hq : s.QueueSound) (h : execRestore s = .next t) : Run a s t := by
  unfold execRestore at h; split at h
  · next w _ =>
    split at h
    · next hc =>
      have hl : (s.slot w.holder).state = .live := hc.2.2.2.2
      refine run_event (f := fun s => s.applyRestore w.holder) (Deeds.run ?_) hq h
      unfold State.applyRestore; extract_lets l set u
      have hu : Deeds a [] s u :=
        ((deeds_switchLanes _ _ _ _ (by rw [hl]; rfl)).and (deeds_count ..)).and (deeds_modBlock ..)
      have hus : (u.slot w.holder).state = .live := by
        unfold u State.useBoundary; rw [modBlock_slot, count_slot, switchLanes_slot_self]; exact hl
      exact (hu.and (deeds_dropGroups ..)).and (deeds_endRegroup (by rw [dropGroups_state, hus]; decide))
    · cases h; exact run_refl s
  · cases h; exact run_refl s

theorem run_undo (hq : s.QueueSound) (h : execUndo s = .next t) : Run a s t := by
  unfold execUndo at h; split at h
  · next w _ =>
    split at h
    · next hc =>
      have hl : (s.slot w.holder).state.laneMode = none := by
        rw [hc.2.2.2]; cases w.kind <;> rfl
      refine run_event (f := fun s => s.applyUndo w.holder) (Deeds.run ?_) hq h
      unfold State.applyUndo; extract_lets u
      have hu : Deeds a [] s u := ((deeds_offHighway hl).and (deeds_modLane _ rfl rfl)).and (deeds_modBlock ..)
      split
      · exact hu.and (deeds_setPhase ..)
      · exact hu
    · cases h; exact run_refl s
  · cases h; exact run_refl s

/-! ## The bus ports -/

theorem deeds_modPort (s : State) (p : Port) (f : BusPort → BusPort) : Deeds a [] s (s.modPort p f) :=
  (aside_modPort ..).deeds

theorem deeds_busError (s : State) (p : Port) (n : Nat) (e : BusEvent) : Deeds a [] s (s.busError p n e) :=
  (deeds_modPort ..).and (deeds_count ..)

theorem deeds_busEvent (s : State) (p : Port) (e : BusEvent) : Deeds a [] s (s.busEvent p e) := (aside_busEvent ..).deeds

theorem deeds_atAddress (p : Port) (b : BitVec 7) (e : BusEvent) {f : State → State} (h : Deeds a [] s (f s)) :
    Deeds a [] s (atAddress p b e f s) := by
  unfold atAddress; split
  · exact h
  · exact (deeds_busEvent ..).and (deeds_busEvent ..)

theorem deeds_readReply (s : State) (p : Port) (n : Nat) : Deeds a [] s (s.readReply p n) := by
  unfold State.readReply; split
  · exact deeds_modPort ..
  · exact deeds_modPort ..
  · exact deeds_busError ..
  · exact deeds_modPort ..
  · exact deeds_refl s

theorem run_badCheckFrame {p : Port} {b : BitVec 7} {l : List Byte} {e : FrameEnd} (hq : s.QueueSound)
    (h : execBadCheckFrame p b l e s = .next t) : Run a s t := by
  unfold execBadCheckFrame at h; split at h
  · exact run_event (f := atAddress p b (FrameEnd.elsewhere e) fun s =>
      (s.modPort p (BusPort.answer e l.length ⟨.badCheck, []⟩)).count .checkFail 1)
      (deeds_atAddress _ _ _ ((deeds_modPort ..).and (deeds_count ..))).run hq h
  · cases h; exact run_refl s

theorem run_unknownRequest {c : Byte} {r : Request} (hq : s.QueueSound) (h : execUnknownRequest c r s = .next t) :
    Run a s t := by
  unfold execUnknownRequest at h; split at h
  · exact run_request (by split <;> exact run_refl s) hq h
  · cases h; exact run_refl s

theorem run_busError {p : Port} {b : BitVec 7} {l : List Byte} {e : BusEvent} (hq : s.QueueSound)
    (h : execBusError p b l e s = .next t) : Run a s t := by
  unfold execBusError at h; split at h
  · exact run_event (f := atAddress p b e fun s => s.busError p l.length e)
      (deeds_atAddress _ _ _ (deeds_busError ..)).run hq h
  · cases h; exact run_refl s

theorem run_emptyWrite {p : Port} {b : BitVec 7} (hq : s.QueueSound) (h : execEmptyWrite p b s = .next t) : Run a s t :=
  run_event (f := atAddress p b .stop fun s => s.modPort p BusPort.emptyWrite)
    (deeds_atAddress _ _ _ (deeds_modPort ..)).run hq h

theorem run_replyRead {p : Port} {b : BitVec 7} {n : Nat} (hq : s.QueueSound) (h : execReplyRead p b n s = .next t) :
    Run a s t :=
  run_event (f := atAddress p b .startOther fun s => s.readReply p n) (deeds_atAddress _ _ _ (deeds_readReply ..)).run hq h

theorem run_replyDiscard {p : Port} {b : BitVec 7} {e : BusEvent} (hq : s.QueueSound)
    (h : execReplyDiscard p b e s = .next t) : Run a s t := by
  unfold execReplyDiscard at h; split at h
  · exact run_event (f := fun s => s.busEvent p .stop) (deeds_busEvent ..).run hq h
  · exact run_event (f := fun s => s.busEvent p .startOther) (deeds_busEvent ..).run hq h
  · exact run_event (f := atAddress p b .startOther fun s => s.busEvent p .startWrite)
      (deeds_atAddress _ _ _ (deeds_busEvent ..)).run hq h
  · exact run_event (f := atAddress p b .startOther fun s => s.busEvent p .startRead)
      (deeds_atAddress _ _ _ (deeds_busEvent ..)).run hq h

theorem deeds_postBus (s : State) : Deeds a [] s s.postBus := by
  unfold State.postBus; split
  · exact .keep (keeps_same rfl fun w => ⟨(s.zone w).wait, by cases w <;> rfl⟩)
  · exact deeds_postShelf ..

theorem deeds_takeStuck (s : State) (p : Port) : Deeds a [] s (s.takeStuck p) := by
  unfold State.takeStuck; split
  · exact ((deeds_modPort ..).and (deeds_count ..)).and (deeds_postBus ..)
  · exact deeds_refl s

theorem run_stuckLineReset {p : Port} (hq : s.QueueSound) (h : execStuckLineReset p s = .next t) : Run a s t := by
  unfold execStuckLineReset at h; split at h
  · exact run_event (f := fun s => s.takeStuck p) (deeds_takeStuck ..).run hq h
  · cases h; exact run_refl s

end Sys2Proof.Machine
end

section

/-! # Queues, channels, lanes and admission over every step (R5, R10, R69, R81 to R88) -/

namespace Sys2Proof.Machine

variable {a : Prop} {i : SlotId} {s t u : State}

/-! ## The tick -/

theorem deeds_takeTick (s : State) : Deeds a [] s s.takeTick :=
  .keep (keeps_same (takeTick_slots s) fun z => ⟨(s.zone z).wait, by rw [takeTick_zone]⟩)

theorem deeds_sampleAndCount (s : State) (x : TickInputs) : Deeds a [] s (s.sampleAndCount x) := by
  refine .keep ⟨fun i => by rw [sampleAndCount_slot]; exact .of rfl rfl rfl rfl rfl rfl, fun z => ?_, fun z => ?_⟩ <;>
    rw [sampleAndCount_zone] <;> unfold Zone.tickPrecharge <;> split
  · rfl
  · rfl
  · next p hp =>
    have hp : (s.zone z).precharge = some p := hp
    unfold Zone.held; rw [hp]; rfl
  · next hp =>
    have hp : (s.zone z).precharge = none := hp
    unfold Zone.held; rw [hp]; exact congrArg _ hp

theorem deeds_darkAfterSurvey (hq : s.QueueSound) (z : ZoneId) : Deeds a [] s (s.darkAfterSurvey z) := by
  unfold State.darkAfterSurvey; split
  · extract_lets u
    have hu : Deeds a [] s u := deeds_modZone s z _ rfl rfl
    split
    · next hd => exact hu.and (deeds_enterDark (hu.queueSound hq) hd)
    · exact hu
  · exact deeds_refl s

theorem deeds_issueTick (hq : s.QueueSound) (x : TickInputs) : Deeds a [] s (s.issueTick x) := by
  unfold State.issueTick; extract_lets b hand c d
  have h1 : Deeds a [] s (d.sampleAndCount x) :=
    (((deeds_takeTick s).and (deeds_count ..)).and (deeds_modBlock ..)).and (deeds_sampleAndCount ..)
  have h2 : Deeds a [] s ((d.sampleAndCount x).darkAfterSurvey .one) :=
    h1.and (deeds_darkAfterSurvey (h1.queueSound hq) .one)
  exact h2.and (deeds_darkAfterSurvey (h2.queueSound hq) .two)

/-- A tick runs, or the restart that waited for the release of its line takes effect. -/
theorem run_tick {p : TickPart} (hq : s.QueueSound) (h : execMultiframeTick p s = .next t) :
    Run a s t ∨ ∃ u : State, t = u.restart := by
  have go : ∀ x (f : State → State), Deeds a [] s (f s) → onTick x f s = .next t → Run a s t ∨ ∃ u : State, t = u.restart :=
    fun x f hf he => by
      unfold onTick at he; split at he
      · exact Or.inr ⟨_, (Host.Outcome.next.inj he).symm⟩
      · exact Or.inl (run_event (f := f) hf.run hq he)
  cases p with
  | whole x => exact go x _ ((deeds_issueTick hq x).and (deeds_takeTick _)) h
  | issue x => exact go x _ (deeds_issueTick hq x) h
  | windowAndBank => exact Or.inl (run_event (f := fun s => s.takeTick) (deeds_takeTick s).run hq h)

/-! ## The survey -/

/-- The survey finds no slot QUEUED or in PRECHARGE, and leaves the lanes in the mode of the state. -/
theorem leaves_classifySlot (s : State) (i : SlotId) : Leaves a i s (s.classifySlot i) := by
  have hz : ∀ z, ((s.classifySlot i).zone z).queue = ((s.vacate i (s.slot i).classification).zone z).queue ∧
      ((s.classifySlot i).zone z).held = ((s.vacate i (s.slot i).classification).zone z).held := fun z => by
    unfold State.classifySlot; extract_lets st drive v u
    have hu : u.zone z = (s.vacate i st).zone z := by
      have e : ∀ (w : State) b, (w.markFault i b).zone z = w.zone z := fun w b => by cases z <;> rfl
      unfold u; rw [e]
      unfold v; rw [claimSet_zone, modSlot_zone, groupsFor_zone]
    rw [count_zone, setReservation_zone]
    split
    · exact ⟨(congrArg Zone.queue hu :), (congrArg Zone.held hu :)⟩
    · exact ⟨(congrArg Zone.queue hu :), (congrArg Zone.held hu :)⟩
  have hs := classifySlot_state s i
  constructor
  · constructor
    · constructor
      · intro _ _ m hm
        rw [hs] at hm
        have ho : (s.slot i).classification ≠ .orphaned := by intro e; rw [e] at hm; cases hm
        have hm' : m = .openMode := by
          rcases classification_cases (s.slot i) with e | e | e | e | e <;> rw [e] at hm
          · exact (Option.some.inj hm).symm
          · exact (Option.some.inj hm).symm
          · exact (Option.some.inj hm).symm
          · exact (Option.some.inj hm).symm
          · cases hm
        rw [classifySlot_slot_self]
        refine ⟨?_, ?_⟩
        · show s.surveyMode i = m
          unfold State.surveyMode; extract_lets f; rw [if_pos ho, hm']
        · show s.orphanDrive i = 0
          unfold State.orphanDrive; rw [if_neg ho]
      · intro _ _
        rw [classifySlot_slot_self]
        exact ⟨show (0 : Nat) ≤ 3 by omega, fun e => absurd (show (0 : Nat) = 3 from e) (by decide)⟩
    · exact fun j hj => classifySlot_slot_ne s i j hj
    · rw [hs]
      rcases classification_cases (s.slot i) with e | e | e | e | e <;> rw [e] <;> decide
    · intro z
      left
      rw [(hz z).2, vacate_zone]
      by_cases h : z = zoneOf i
      · rw [if_pos h, freeFrom_held]; simp only [h, true_and]; rfl
      · rw [if_neg h, if_neg fun e => h e.1]
  · rw [hs]
    rcases classification_cases (s.slot i) with e | e | e | e | e <;> rw [e] <;> decide
  · intro z; rw [(hz z).1, vacate_queue]

theorem deeds_classifyAll (s : State) : Deeds a [] s s.classifyAll := by
  have mark : ∀ u : State, Deeds a [] u u.markClassified := fun u =>
    .keep (keeps_same rfl fun z => ⟨(u.zone z).wait, markClassified_zone ..⟩)
  unfold State.classifyAll
  exact (deeds_foldl _ (fun s i => .leave i (leaves_classifySlot s i)) _ _).and (mark _)

/-- A feed change during the survey holds its notice back, and does no more (R178). -/
theorem deeds_takeFeed_survey (hr : s.survey.running = true) (z : ZoneId) :
    Deeds a [] s (s.takeFeed z) ∧ (s.takeFeed z).survey.running = true := by
  unfold State.takeFeed; split
  · unfold State.feedChange; extract_lets was u
    have hu : Deeds a [] s u := deeds_modZone s z _ rfl rfl
    have hur : u.survey.running = true := by unfold u; rw [modZone_survey]; exact hr
    rw [if_pos hur]
    exact ⟨hu.and (.keep (keeps_same rfl fun w => ⟨(u.zone w).wait, by cases w <;> rfl⟩)), hur⟩
  · exact ⟨deeds_refl s, hr⟩

theorem deeds_takeSurveyTick (hr : s.survey.running = true) : Deeds a [] s s.takeSurveyTick := by
  obtain ⟨h1, r1⟩ := deeds_takeFeed_survey (a := a) hr .one
  obtain ⟨h2, -⟩ := deeds_takeFeed_survey (a := a) r1 .two
  exact ((h1.and h2).and (deeds_takeStuck ..)).and (deeds_takeStuck ..)

theorem deeds_surveyEnd (s : State) : Deeds a [] s s.surveyEnd :=
  .keep ⟨fun i => by rw [surveyEnd_slot]; exact .of rfl rfl rfl rfl rfl rfl, fun z => by rw [surveyEnd_zone],
    fun z => by rw [surveyEnd_zone]⟩

theorem deeds_postSurvey (s : State) : Deeds a [] s s.postSurvey := by
  unfold State.postSurvey; extract_lets faults feed bus b c d
  have hb : Deeds a [] s b := deeds_postShelf ..
  have hc : Deeds a [] s c := hb.and (deeds_foldl _ (fun u i => by
    split
    · exact deeds_postSlot ..
    · exact deeds_refl u) _ b)
  have hd : Deeds a [] s d := by
    unfold d; split
    · exact hc.and (deeds_postShelf ..)
    · exact hc
  split
  · exact hd.and (deeds_postShelf ..)
  · exact hd

theorem deeds_stopSurvey (s : State) : Deeds a [] s s.stopSurvey :=
  .keep (keeps_same rfl fun z => ⟨(s.zone z).wait, stopSurvey_zone ..⟩)

theorem deeds_finishSurvey (hr : s.survey.running = true) : Deeds a [] s s.finishSurvey := by
  have h1 : Deeds a [] s s.takeSurveyTick.surveyEnd.postSurvey :=
    ((deeds_takeSurveyTick hr).and (deeds_surveyEnd _)).and (deeds_postSurvey _)
  have mark : ∀ (u : State) z, Deeds a [] u (u.markDark z) := fun u z => deeds_modZone u z _ rfl rfl
  exact ((h1.and (mark _ .one)).and (mark _ .two)).and (deeds_stopSurvey _)

/-! ## Every command -/

/-- A command resets the part, or is an event with its deeds and the examination of the heads. The sample report that opens
and closes its slot's handle places the slot for that. -/
theorem exec_run {c : Instr} (hq : s.QueueSound) (ha : a → s.SlotsSound ∧ s.ListSound) (h : exec c s = .next t) :
    (∃ u : State, t = u.powerUp ∨ t = u.restart) ∨
    ∃ why, RunFor a why s t ∧ ∀ i, why i ↔ c = .sampleReport i ∧ (s.slot i).lines.opensAndCloses = true := by
  have hs := fun h => (ha h).1
  have hl := fun h => (ha h).2
  have plain : (∀ i, c ≠ .sampleReport i) → Run a s t → (∃ u : State, t = u.powerUp ∨ t = u.restart) ∨
      ∃ why, RunFor a why s t ∧ ∀ i, why i ↔ c = .sampleReport i ∧ (s.slot i).lines.opensAndCloses = true :=
    fun hc k => Or.inr ⟨_, k, fun i => iff_of_false id fun e => hc i e.1⟩
  cases c with
  | sampleReport j =>
    exact Or.inr ⟨_, runFor_sampleReport hq h, fun i =>
      ⟨fun ⟨e, o⟩ => ⟨by rw [e], e ▸ o⟩, fun ⟨e, o⟩ => by cases e; exact ⟨rfl, o⟩⟩⟩
  | powerUp => exact Or.inl ⟨s, Or.inl (Host.Outcome.next.inj h).symm⟩
  | controllerRestart =>
    change execControllerRestart s = _ at h
    unfold execControllerRestart at h; split at h
    · cases h
      exact plain nofun (aside_of s s.askRestart rfl rfl rfl rfl rfl rfl rfl rfl rfl).run
    · exact Or.inl ⟨s, Or.inr (Host.Outcome.next.inj h).symm⟩
  | multiframeTick p =>
    rcases run_tick (a := a) hq h with k | ⟨u, e⟩
    · exact plain nofun k
    · exact Or.inl ⟨u, Or.inr e⟩
  | surveyClassification =>
    change execSurveyClassification s = _ at h
    unfold execSurveyClassification at h; split at h
    · exact plain nofun (by rw [← Host.Outcome.next.inj h]; exact (deeds_classifyAll s).run)
    · cases h; exact plain nofun (run_refl s)
  | surveyDone =>
    change execSurveyDone s = _ at h
    unfold execSurveyDone at h; split at h
    · next hr => cases h; exact plain nofun (deeds_finishSurvey hr.1).run
    · cases h; exact plain nofun (run_refl s)
  | grant z => exact plain nofun (run_grant hq h)
  | prechargeComplete i => exact plain nofun (run_prechargeComplete hq h)
  | prechargeLimitExpiry z => exact plain nofun (run_limitExpiry hq h)
  | feedHealthChange z => exact plain nofun (run_feedHealthChange hq h)
  | bayStrapChange m => exact plain nofun (run_bayStrapChange hq h)
  | supervisionTimerExpiry m => exact plain nofun (run_supervision hq h)
  | declareTimerExpiry i => exact plain nofun (run_declareExpiry hq h)
  | drainTimerExpiry i => exact plain nofun (run_drainExpiry hq h)
  | dischargeTimerExpiry i => exact plain nofun (run_dischargeExpiry hs hq h)
  | retryBackoffExpiry i => exact plain nofun (run_backoffExpiry hs hq h)
  | holdoverLimit => exact plain nofun (run_holdoverLimit hq h)
  | markerArrival src d => exact plain nofun (run_event (f := fun s => s.marker src d) (deeds_marker s src d).run hq h)
  | syncWindowClose => exact plain nofun (run_syncWindowClose hq h)
  | highwayError =>
    exact plain nofun (run_event (f := fun s => s.modBlock fun b => { b with errors := min (b.errors + 1) 255 })
      (deeds_modBlock ..).run hq h)
  | laneSenseSample v => exact plain nofun (run_laneSenseSample hq h)
  | windowGrant => exact plain nofun (run_windowGrant hl hq h)
  | windowVerdict => exact plain nofun (run_windowVerdict hq h)
  | revert => exact plain nofun (run_revert hq h)
  | restore => exact plain nofun (run_restore hq h)
  | undo => exact plain nofun (run_undo hq h)
  | readSlot r => exact plain nofun (run_request (run_readSlot r) hq h)
  | readZone r => exact plain nofun (run_request (run_readZone r) hq h)
  | readShelf r => exact plain nofun (run_request (run_readShelf r) hq h)
  | readNotices r => exact plain nofun (run_request (run_readNotices r) hq h)
  | setNoticeMask r => exact plain nofun (run_request (run_setNoticeMask r) hq h)
  | refresh r => exact plain nofun (run_request (run_refresh r) hq h)
  | setZone r => exact plain nofun (run_request (run_setZone r hq) hq h)
  | setSlotPolicy r => exact plain nofun (run_request (run_setSlotPolicy r) hq h)
  | respContinue r => exact plain nofun (run_responseCommand (run_continue r) hq h)
  | respHold r => exact plain nofun (run_responseCommand (run_hold r) hq h)
  | respReject r => exact plain nofun (run_responseCommand (run_reject r) hq h)
  | respRollback r => exact plain nofun (run_responseCommand (run_rollback r) hq h)
  | respJoin r => exact plain nofun (run_responseCommand (run_joinOrRetry r (by decide)) hq h)
  | respRetry r => exact plain nofun (run_responseCommand (run_joinOrRetry r (by decide)) hq h)
  | respRetire r => exact plain nofun (run_responseCommand (run_respondTo r (by decide) (by decide) (by decide)) hq h)
  | respQuiesced r => exact plain nofun (run_responseCommand (run_respondTo r (by decide) (by decide) (by decide)) hq h)
  | respCancel r => exact plain nofun (run_responseCommand (run_respondTo r (by decide) (by decide) (by decide)) hq h)
  | assignGroups r => exact plain nofun (run_request (run_assign r) hq h)
  | releaseGroups r => exact plain nofun (run_request (run_release r) hq h)
  | retire r => exact plain nofun (run_request (run_retire r) hq h)
  | forceRetire r => exact plain nofun (run_request (run_forceRetire r) hq h)
  | adopt r => exact plain nofun (run_request (run_adopt r) hq h)
  | unbar r => exact plain nofun (run_request (run_unbar r) hq h)
  | setObservation r => exact plain nofun (run_request (run_setObservation r) hq h)
  | setTimers r => exact plain nofun (run_request (run_setTimers r) hq h)
  | setMonitor r => exact plain nofun (run_request (run_setMonitor r) hq h)
  | readMonitor r => exact plain nofun (run_request (run_readMonitor r) hq h)
  | clearMonitor r => exact plain nofun (run_request (run_clearMonitor r) hq h)
  | unfreeze r => exact plain nofun (run_request (run_unfreeze r) hq h)
  | declare r => exact plain nofun (run_request (run_declare r) hq h)
  | retireSelf r => exact plain nofun (run_request (run_retireSelf r) hq h)
  | badCheckFrame p a l e => exact plain nofun (run_badCheckFrame hq h)
  | unknownRequest c r => exact plain nofun (run_unknownRequest hq h)
  | busError p a l e => exact plain nofun (run_busError hq h)
  | emptyWrite p a => exact plain nofun (run_emptyWrite hq h)
  | replyRead p a n => exact plain nofun (run_replyRead hq h)
  | replyDiscard p a e => exact plain nofun (run_replyDiscard hq h)
  | stuckLineReset p => exact plain nofun (run_stuckLineReset hq h)

/-- The slots of a part that has been reset are EMPTY, and its zones reset. -/
theorem reset_records (h : ∃ u : State, t = u.powerUp ∨ t = u.restart) :
    (∀ i, (t.slot i).state = .empty ∧ (t.slot i).lane = Slot.reset.lane ∧ (t.slot i).attempts = 0) ∧
      ∀ z, t.zone z = Zone.reset := by
  obtain ⟨u, rfl | rfl⟩ := h
  · exact ⟨fun i => by rw [powerUp_slot]; exact ⟨rfl, rfl, rfl⟩, powerUp_zone u⟩
  · exact ⟨fun i => by rw [restart_slot]; exact ⟨rfl, rfl, rfl⟩, restart_zone u⟩

theorem keeps_pending (s : State) (l : List Instr) : Keeps a s { s with pending := l } :=
  keeps_same rfl fun z => ⟨(s.zone z).wait, pending_zone ..⟩

/-- What a step does to a state with sound queues: it resets the part, or runs an event. -/
theorem step_run (hq : s.QueueSound) (ha : a → s.SlotsSound ∧ s.ListSound) (h : step s = .next t) :
    (∃ u : State, t = u.powerUp ∨ t = u.restart) ∨ ∃ why, RunFor a why s t ∧
      ∀ i, why i ↔ s.pending.head? = some (.sampleReport i) ∧ (s.slot i).lines.opensAndCloses = true := by
  unfold step at h
  split at h
  · next hp =>
    cases h
    exact Or.inr ⟨_, run_refl s, fun i => iff_of_false id fun e => by rw [hp] at e; cases e.1⟩
  · next c rest hp =>
    have k := keeps_pending (a := a) s rest
    have hl : a → ({ s with pending := rest } : State).SlotsSound ∧ ({ s with pending := rest } : State).ListSound :=
      fun h => ⟨slotsSound_invariant.pending s rest (ha h).1, listSound_invariant.pending s rest (ha h).2⟩
    rcases exec_run (k.queueSound hq) hl h with r | ⟨why, r, hw⟩
    · exact Or.inl r
    · obtain ⟨L, u, d, e, hs, hr, hn⟩ := r
      refine Or.inr ⟨why, ⟨L, u, (Deeds.keep k).trans d, e, hs, hr, hn⟩, fun i => (hw i).trans ?_⟩
      rw [hp, List.head?_cons, Option.some_inj]
      exact Iff.rfl

/-! ## The channels, lanes and attempts (R5, R10, R88) -/

/-- Settles O59: the deeds of an event and the examination of the heads each keep them. -/
theorem channelsAndLanesStaySound : Obligations.ChannelsAndLanesStaySound := by
  intro s t h hs hq hl
  rcases step_run (a := True) hq (fun _ => ⟨hs, hl⟩) h with r | ⟨why, ⟨L, u, d, e, -⟩, -⟩
  · obtain ⟨hslot, hzone⟩ := reset_records r
    refine ⟨fun _ => ⟨fun z p hp => ?_, fun i hi => ?_⟩, fun _ i m hm => ?_, fun _ i => ?_⟩
    · rw [hzone] at hp; cases hp
    · rw [(hslot i).1] at hi; cases hi
    · rw [(hslot i).1] at hm; rw [(hslot i).2.1]
      cases Option.some.inj hm; exact ⟨rfl, rfl⟩
    · rw [(hslot i).2.2]; exact ⟨by omega, fun e => absurd e (by decide)⟩
  · have hu := d.queueSound hq
    exact ⟨fun h => e.channel hu (d.channel h), fun h => e.lanes hu (d.lanes trivial h),
      fun h => e.attempts hu (d.attempts trivial h)⟩

/-! ## Admission (R69, R86) -/

/-- Settles O60: no deed admits a slot, and the examination admits those that the budget has room for. -/
theorem admissionStaysWithinBudget : Obligations.AdmissionStaysWithinBudget := by
  intro s t h hq _ i hs ht
  rcases step_run (a := False) hq nofun h with r | ⟨why, ⟨L, u, d, e, -⟩, -⟩
  · rw [((reset_records r).1 i).1] at ht; cases ht
  · have k := e.admitted (d.queueSound hq) i (fun hu => absurd (d.precharge i hu) hs) ht
    exact ⟨k.fits, k.dark, k.exposed, k.path⟩

/-! ## The queues (R81 to R84) -/

/-- What an event leaves of the places in the queues, where `placed` says which of the QUEUED slots it placed. -/
theorem RunFor.places {why : SlotId → Prop} (h : RunFor a why s t) (hq : s.QueueSound) {placed : SlotId → Bool}
    (hp : ∀ i, placed i = true ↔
      (s.slot i).state ≠ .queued ∨ (t.slot i).override ≠ (s.slot i).override ∨ why i) :
    (∀ i, placed i = true → (t.slot i).state = .queued → ∃ x y,
      (t.zone (zoneOf i)).queue = x ++ ⟨i, (t.slot i).effectivePriority⟩ :: y ∧
      (∀ e ∈ x, e.priority ≤ (t.slot i).effectivePriority) ∧
      ∀ e ∈ y, (t.slot i).effectivePriority < e.priority ∨
        ((t.slot i).effectivePriority = e.priority ∧ placed e.slot = true ∧ i < e.slot)) ∧
    ∀ z, ((t.zone z).queue.filter fun e => !placed e.slot).Sublist (s.zone z).queue := by
  have htq := h.queueSound hq
  obtain ⟨L, u, d, e, hl, hr, hn⟩ := h
  have huq := d.queueSound hq
  obtain ⟨hsub, hkeep⟩ := e.queue huq
  have mem : ∀ i, (t.slot i).state = .queued → (placed i = true ↔ i ∈ L) := fun i hi => by
    have hu := (hkeep i).2 hi
    rw [hp, (hkeep i).1]
    constructor
    · intro hw
      by_contra hL
      obtain ⟨hs, ho⟩ := d.unplaced i hL hu
      rcases hw with hw | hw | hw
      · exact hw hs
      · exact hw ho
      · exact hn i hL hw hu
    · exact hr i
  have inQueue : ∀ z, ∀ x ∈ (t.zone z).queue, (t.slot x.slot).state = .queued := fun z x hx =>
    ((htq.member z x.slot).1 ⟨x, hx, rfl⟩).1
  constructor
  · intro i hpi hi
    obtain ⟨x, hx, rfl⟩ := (htq.member _ i).2 ⟨hi, rfl⟩
    obtain ⟨l, r, hlr⟩ := List.append_of_mem hx
    have hpr := htq.priority _ x hx
    have hsort := htq.sorted (zoneOf x.slot)
    have hplace := (d.placed [] hl hq (fun z => (hq.sorted z).imp placedOrder_nil) (zoneOf x.slot)).sublist (hsub _)
    rw [hlr, List.pairwise_append] at hsort hplace
    rw [← hpr]
    refine ⟨l, r, hlr, fun y hy => hsort.2.2 y hy x List.mem_cons_self, fun y hy => ?_⟩
    refine ((List.pairwise_cons.1 hplace.2.1).1 y hy).imp id fun ⟨he, hm⟩ => ?_
    obtain ⟨h1, h2⟩ := hm ((mem _ hi).1 hpi)
    exact ⟨he, (mem _ (inQueue _ y (by rw [hlr]; exact List.mem_append_right _ (List.mem_cons_of_mem _ hy)))).2 h1, h2⟩
  · intro z
    have hf : ((t.zone z).queue.filter fun e => !placed e.slot) =
        (t.zone z).queue.filter fun e => decide (e.slot ∉ L) := List.filter_congr fun x hx => by
      rw [Bool.eq_iff_iff, decide_eq_true_iff, ← mem x.slot (inQueue z x hx), Bool.not_eq_true', Bool.not_eq_true]
    rw [hf]
    exact (((hsub z).filter _).trans (d.queue L (fun _ h => h) z)).trans List.filter_sublist

/-- Settles O57: the deeds of an event place slots one by one, and the examination only takes slots from the queues. -/
theorem queuesStaySound : Obligations.QueuesStaySound := by
  intro s t h
  refine ⟨fun hq => ?_, listSound_invariant.step h, fun hq => ?_⟩
  · rcases step_run (a := False) hq nofun h with r | ⟨why, r, -⟩
    · obtain ⟨hslot, hzone⟩ := reset_records r
      refine ⟨fun z i => ?_, fun z => ?_, fun z e he => ?_, fun z => ?_⟩
      · rw [hzone, (hslot i).1]; exact iff_of_false (fun ⟨e, he, _⟩ => nomatch he) nofun
      · rw [hzone]; exact List.nodup_nil
      · rw [hzone] at he; cases he
      · rw [hzone]; exact .nil
    · exact r.queueSound hq
  · intro placed
    rcases step_run (a := False) hq nofun h with r | ⟨why, r, hw⟩
    · obtain ⟨hslot, hzone⟩ := reset_records r
      refine ⟨fun i _ hi => ?_, fun z => ?_⟩
      · rw [(hslot i).1] at hi; cases hi
      · rw [hzone]; exact List.nil_sublist _
    · refine r.places hq fun i => ?_
      rw [hw]; exact decide_eq_true_iff

end Sys2Proof.Machine
end

section
/-! # Steps, resets and the arithmetic of a grant: the statements of tier 1 -/

namespace Sys2Proof.Machine

/-! ## Steps -/

/-- Settles O1. -/
theorem stepTakesFrontCommand : Obligations.StepTakesFrontCommand := by
  refine ⟨fun c s => rfl, fun s h => ?_⟩
  unfold step
  rw [h]

theorem completes_next (s : State) : Completes (.next s) := ⟨s, rfl⟩

theorem completes_event (f : State → State) (s : State) : Completes (event f s) := ⟨_, rfl⟩

theorem completes_request (r : Request) (b : Body) (s : State) : Completes (request r b s) := ⟨_, rfl⟩

theorem completes_ite {p : Prop} [Decidable p] {a b : Host.Outcome State Fault Refusal} (ha : Completes a)
    (hb : Completes b) : Completes (if p then a else b) := by
  split
  · exact ha
  · exact hb

theorem completes_eventIf {p : Prop} [Decidable p] (f : State → State) (s : State) :
    Completes (if p then event f s else .next s) := completes_ite (completes_event ..) (completes_next ..)

theorem completes_response (c : Byte) (r : Request) (b : Body) (s : State) : Completes (responseCommand c r b s) :=
  completes_ite (completes_request ..) (completes_next ..)

theorem completes_onTick (x : TickInputs) (f : State → State) (s : State) : Completes (onTick x f s) :=
  completes_ite (completes_next ..) (completes_event ..)

theorem completes_tick (p : TickPart) (s : State) : Completes (execMultiframeTick p s) := by
  cases p with
  | whole x => exact completes_onTick ..
  | issue x => exact completes_onTick ..
  | windowAndBank => exact completes_event ..

theorem completes_grant (z : ZoneId) (s : State) : Completes (execGrant z s) := by
  unfold execGrant
  split
  · exact completes_event ..
  · exact completes_next ..

theorem completes_limitExpiry (z : ZoneId) (s : State) : Completes (execPrechargeLimitExpiry z s) := by
  unfold execPrechargeLimitExpiry
  split
  · exact completes_eventIf ..
  · exact completes_next ..

theorem completes_windowGrant (s : State) : Completes (execWindowGrant s) := by
  unfold execWindowGrant
  split
  · exact completes_eventIf ..
  · exact completes_next ..

theorem completes_ofWindow (s : State) : Completes (execWindowVerdict s) ∧ Completes (execRevert s) ∧
    Completes (execRestore s) ∧ Completes (execUndo s) := by
  unfold execWindowVerdict execRevert execRestore execUndo
  cases s.block.opened with
  | none => exact ⟨completes_next _, completes_next _, completes_next _, completes_next _⟩
  | some w => exact ⟨completes_eventIf .., completes_eventIf .., completes_eventIf .., completes_eventIf ..⟩

theorem completes_replyDiscard (p : Port) (a : BitVec 7) (e : BusEvent) (s : State) :
    Completes (execReplyDiscard p a e s) := by
  cases e <;> exact completes_event ..

/-- Settles O2: each command is an event, a request, or one of them behind a test. -/
theorem everyCommandCompletes : Obligations.EveryCommandCompletes := by
  intro c s
  cases c with
  | powerUp => exact completes_next _
  | controllerRestart => exact completes_ite (completes_next _) (completes_next _)
  | surveyClassification => exact completes_ite (completes_next _) (completes_next _)
  | surveyDone => exact completes_ite (completes_next _) (completes_next _)
  | multiframeTick p => exact completes_tick p s
  | grant z => exact completes_grant z s
  | prechargeLimitExpiry z => exact completes_limitExpiry z s
  | windowGrant => exact completes_windowGrant s
  | windowVerdict => exact (completes_ofWindow s).1
  | revert => exact (completes_ofWindow s).2.1
  | restore => exact (completes_ofWindow s).2.2.1
  | undo => exact (completes_ofWindow s).2.2.2
  | markerArrival | highwayError | emptyWrite | replyRead => exact completes_event ..
  | sampleReport | prechargeComplete | feedHealthChange | bayStrapChange | supervisionTimerExpiry | declareTimerExpiry
  | drainTimerExpiry | dischargeTimerExpiry | retryBackoffExpiry | holdoverLimit | syncWindowClose | laneSenseSample
  | badCheckFrame | busError | stuckLineReset => exact completes_eventIf ..
  | unknownRequest => exact completes_ite (completes_request ..) (completes_next _)
  | replyDiscard p a e => exact completes_replyDiscard p a e s
  | respContinue | respHold | respReject | respRollback | respJoin | respRetry | respRetire | respQuiesced | respCancel =>
    exact completes_response ..
  | readSlot | readZone | readShelf | readNotices | setNoticeMask | refresh | setZone | setSlotPolicy | assignGroups
  | releaseGroups | retire | forceRetire | adopt | unbar | setObservation | setTimers | setMonitor | readMonitor
  | clearMonitor | unfreeze | declare | retireSelf => exact completes_request ..

/-! ## Resets -/

theorem powerUp_port (s : State) (p : Port) : s.powerUp.port p = BusPort.reset := by cases p <;> rfl

theorem powerUp_map_none (s : State) (g : GroupId) : s.powerUp.map[g.val] = none := Vector.getElem_replicate ..

theorem powerUp_total (s : State) (k : EventKind) : s.powerUp.bank.total k = 0 := Vector.getElem_replicate ..

theorem powerUp_counters (s : State) (k : Fin 4) : ∃ e, s.powerUp.bank.counters[k.val] = Counter.reset e := by
  fin_cases k
  · exact ⟨.joinDone, rfl⟩
  · exact ⟨.revert, rfl⟩
  · exact ⟨.disturbedMf, rfl⟩
  · exact ⟨.budgetWaitMf, rfl⟩

theorem powerUp_kinds (s : State) : s.powerUp.bank.counters.map (·.kind) =
    #v[.joinDone, .revert, .disturbedMf, .budgetWaitMf] := by
  simp [State.powerUp, State.reset, Bank.reset, Counter.reset]

/-- Settles O3. -/
theorem powerUpGivesPowerUpValues : Obligations.PowerUpGivesPowerUpValues := by
  refine fun s => ⟨s.powerUp, rfl, fun i => ?_, fun z => ?_, rfl, rfl, rfl, rfl, rfl, powerUp_map_none s, rfl, rfl, rfl,
    rfl, rfl, rfl, rfl, rfl, powerUp_kinds s, fun k => ?_, powerUp_total s, rfl, rfl, fun m => ?_,
    fun p => ?_, rfl, rfl, rfl⟩
  · rw [powerUp_slot]
    decide
  · rw [powerUp_zone]
    decide
  · obtain ⟨e, he⟩ := powerUp_counters s k
    rw [he]
    exact ⟨rfl, rfl, rfl, rfl, rfl, rfl⟩
  · rw [powerUp_manager]
    decide
  · rw [powerUp_port]
    exact ⟨rfl, rfl⟩

theorem onTick_released {s : State} {x : TickInputs} {f : State → State} (h : s.restartReleased x = true) :
    onTick x f s = exec .controllerRestart { s with restartLine := ⟨false, false⟩ } := if_pos h

/-- Settles O4. -/
theorem restartKeepsLatches : Obligations.RestartKeepsLatches := by
  refine ⟨fun s h => ?_, fun s h => ?_, fun s x p hp ha hx => ?_⟩
  · refine ⟨s.restart, s.powerUp, by simp [exec, execControllerRestart, h], rfl, rfl, fun i => ?_⟩
    simp
  · simp [exec, execControllerRestart, State.askRestart, h]
  · have hr : s.restartReleased x = true := by rw [State.restartReleased, ha, hx]; rfl
    rcases hp with rfl | rfl <;> exact onTick_released hr

/-- Settles O54: the machine after reset is one that has been powered up. -/
theorem resetIsSound : Obligations.ResetIsSound := by
  have hslot : ∀ i, State.reset.slot i = Slot.reset := powerUp_slot State.reset
  have hzone : ∀ z, State.reset.zone z = Zone.reset := powerUp_zone State.reset
  have hman : ∀ m, State.reset.manager m = Manager.reset := powerUp_manager State.reset
  have hr : ∀ i, (State.reset.slot i).reservation = 0 := fun i => by rw [hslot]; rfl
  have hs : ∀ i, (State.reset.slot i).state = .empty := fun i => by rw [hslot]; rfl
  refine ⟨⟨fun i => by rw [hslot]; exact reset_sound, nofun⟩, booked_of_zero hr fun z => by rw [hzone]; rfl,
    ranged_reset (fun i => by rw [hslot]; rfl) hr hzone, ⟨fun i m h => ?_, fun _ m => by rw [hman]; decide⟩,
    ⟨fun z i => ?_, fun z => by rw [hzone]; exact List.nodup_nil, fun z e h => ?_, fun z => by rw [hzone]; exact .nil⟩,
    ⟨List.nodup_nil, fun i => ?_, fun i => ?_, fun i => ?_, fun i h => ?_, .nil⟩, fun i _ => ?_, ⟨fun z p h => ?_, fun i h => ?_⟩,
    fun i m h => ?_, fun i => ?_⟩
  · rw [hslot] at h; cases h
  · rw [hzone, hs]; exact iff_of_false (by simp [Zone.reset]) (by simp)
  · rw [hzone] at h; cases h
  · rw [hs]; exact iff_of_false (by simp [State.reset, WindowBlock.reset]) (by simp)
  · rw [hs]; exact iff_of_false (by simp [State.reset, WindowBlock.reset]) (by simp)
  · rw [hslot]; exact iff_of_false (by simp [State.reset, WindowBlock.reset]) (by simp [Slot.reset, LaneRecord.reset])
  · rw [hslot] at h; cases h
  · exact (heldGroups_eq_zero_iff ..).2 fun g => by
      rw [show State.reset.map[g.val] = none from powerUp_map_none State.reset g]; nofun
  · rw [hzone] at h; cases h
  · rw [hs] at h; cases h
  · rw [hs] at h; rw [hslot]; cases h; exact ⟨rfl, rfl⟩
  · rw [hslot]; exact ⟨by decide, by decide⟩

/-! ## The arithmetic of a grant -/

/-- Settles O24. -/
theorem grantArithmeticInRange : Obligations.GrantArithmeticInRange := by
  intro power margin bulk current hp1 hp2 hm hb1 hb2 hc1 hc2
  refine ⟨?_, ?_, (108 * bulk + 100 * current - 1) / (100 * current), rfl, ?_⟩
  · have hle := reservationFor_le hp2 hm
    unfold reservationFor at *
    have h1 : 256 ≤ power * (256 + margin) := by nlinarith
    omega
  · unfold inrushFor; omega
  · have hpos : 0 < 100 * current := by omega
    have hd := Nat.div_add_mod (108 * bulk + 100 * current - 1) (100 * current)
    have hlt := Nat.mod_lt (108 * bulk + 100 * current - 1) hpos
    set n := (108 * bulk + 100 * current - 1) / (100 * current)
    have hn : n ≤ 216 := by
      by_contra hc
      have hmul : 100 * current * 217 ≤ 100 * current * n := Nat.mul_le_mul_left _ (by omega)
      omega
    have h1 : 1 ≤ n := Nat.div_pos (by omega) hpos
    exact ⟨by omega, by omega, by omega, by omega⟩

/-! ## The reply frame -/

theorem byteSum_append (l m : List Byte) : byteSum (l ++ m) = byteSum l + byteSum m := by
  unfold byteSum
  induction m using List.reverseRecOn with
  | nil => simp
  | append_singleton m x ih => rw [← List.append_assoc, List.foldl_concat, List.foldl_concat, ih, add_assoc]

theorem byteSum_withCheck (l : List Byte) : byteSum (withCheck l) = 0 := by
  rw [withCheck, byteSum_append]
  simp [byteSum]

theorem stretch_line (l : BusLine) : l.stretch = if l.stuck = false then { l with lowTicks := 0 } else l := by
  unfold BusLine.stretch
  cases l.stuck <;> rfl

/-- Settles O52. -/
theorem replyFrameSumsToZero : Obligations.ReplyFrameSumsToZero := by
  intro p v n
  refine ⟨by simp [Reply.frame, withCheck], byteSum_withCheck _, rfl, fun h => ?_, fun k hk => ?_, fun e => ?_⟩
  · simp [Reply.frame, withCheck, byte, Nat.mod_eq_of_lt h]
  · simp [Reply.frame, withCheck, List.getElem?_append_left hk]
  · cases e with
    | hold | stop | write => exact ⟨rfl, rfl, rfl, by simp [BusPort.answer]⟩
    | read =>
      refine ⟨rfl, rfl, rfl, ?_⟩
      simp [BusPort.answer, BusPort.stretch, stretch_line]

end Sys2Proof.Machine
end

section
/-! # The timing reference (chapter 6): O30, O31 and O32 -/

namespace Sys2Proof.Machine

/-! ## The frame of an event of the reference -/

/-- An event that leaves both zones as they are ends with its own effect. -/
theorem event_of_zones {f : State → State} {s : State} (h : ∀ z, (f s).zone z = s.zone z) : event f s = .next (f s) :=
  congrArg Host.Outcome.next (settle_of_zones (h .one) (h .two))

theorem referenceEvent_modRef (s : State) (f : Reference → Reference) : ReferenceEvent s (s.modRef f) where
  slots := rfl
  zones := modRef_zone s f
  map := rfl
  block := rfl
  bank := rfl
  timers := rfl
  survey := rfl
  ports := modRef_port s f
  managers m := by rw [modRef_manager]
  notices := hasSlotNotice_congr (modRef_manager s f)
  shelf m k _ := hasShelfNotice_congr (modRef_manager s f) m k

theorem referenceEvent_setReference (s : State) (f : Reference → Reference) : ReferenceEvent s (s.setReference f) where
  slots := rfl
  zones z := by rw [State.setReference, postShelf_zone, modRef_zone]
  map := rfl
  block := rfl
  bank := rfl
  timers := rfl
  survey := rfl
  ports p := by rw [State.setReference, postShelf_port, modRef_port]
  managers m := by rw [State.setReference, postShelf_manager, modRef_manager]; rfl
  notices m k i := by
    rw [State.setReference, postShelf_hasSlotNotice]
    exact hasSlotNotice_congr (fun _ => modRef_manager ..) m k i
  shelf m k hk := by
    rw [State.setReference, postShelf_hasShelfNotice, or_iff_left hk]
    exact hasShelfNotice_congr (fun _ => modRef_manager ..) m k

theorem ReferenceEvent.trans {s t u : State} (h : ReferenceEvent s t) (k : ReferenceEvent t u) : ReferenceEvent s u where
  slots := k.slots.trans h.slots
  zones z := (k.zones z).trans (h.zones z)
  map := k.map.trans h.map
  block := by rw [k.block, h.block]
  bank := k.bank.trans h.bank
  timers := k.timers.trans h.timers
  survey := k.survey.trans h.survey
  ports p := (k.ports p).trans (h.ports p)
  managers m := (k.managers m).trans (h.managers m)
  notices m l i := (k.notices m l i).trans (h.notices m l i)
  shelf m l hl := (k.shelf m l hl).trans (h.shelf m l hl)

theorem referenceEvent_emptied (s : State) : ReferenceEvent s (s.modBlock fun b => { b with history := [] }) where
  slots := rfl
  zones _ := modBlock_zone ..
  map := rfl
  block := rfl
  bank := rfl
  timers := rfl
  survey := rfl
  ports _ := modBlock_port ..
  managers _ := by rw [modBlock_manager]
  notices := hasSlotNotice_congr fun _ => modBlock_manager ..
  shelf m k _ := hasShelfNotice_congr (fun _ => modBlock_manager ..) m k

theorem referenceEvent_goFree (s : State) : ReferenceEvent s s.goFree :=
  (referenceEvent_setReference ..).trans (referenceEvent_emptied _)

theorem ReferenceEvent.event {f : State → State} {s : State} (h : ReferenceEvent s (f s)) : event f s = .next (f s) :=
  event_of_zones h.zones

theorem setReference_ref (s : State) (f : Reference → Reference) :
    (s.setReference f).ref = { f s.ref with lockedSince := false } := rfl

theorem setReference_posted (s : State) (f : Reference → Reference) : (s.setReference f).postedShelf .reference :=
  postedShelf_postShelf _ _

theorem goFree_posted (s : State) : s.goFree.postedShelf .reference := fun m =>
  (hasShelfNotice_congr (fun _ => modBlock_manager ..) m .reference).2 (setReference_posted _ _ m)

/-! ## What a marker and the course of time leave of the reference -/

section Reference
variable (r : Reference) (src : Source) (d : Nat)

@[simp] theorem mark_state : (r.mark src).state = r.state := by cases src <;> rfl
@[simp] theorem mark_preferred : (r.mark src).preferred = r.preferred := by cases src <;> rfl
@[simp] theorem mark_selected : (r.mark src).selected = r.selected := by cases src <;> rfl
@[simp] theorem mark_acquisition : (r.mark src).acquisition = r.acquisition := by cases src <;> rfl
@[simp] theorem mark_acqCount : (r.mark src).acqCount = r.acqCount := by cases src <;> rfl
@[simp] theorem mark_trial : (r.mark src).trial = r.trial := by cases src <;> rfl
@[simp] theorem mark_holdover : (r.mark src).holdover = r.holdover := by cases src <;> rfl
@[simp] theorem mark_genUs : (r.mark src).genUs = r.genUs := by cases src <;> rfl

@[simp] theorem mark_source : (r.mark src).source src = { markerAge := some 0, inWindow :=
    if r.inSyncWindow ∧ (r.source src).inWindow = none then some 0 else (r.source src).inWindow } := by
  cases src <;> rfl

@[simp] theorem advance_source : (r.advance d).source src = (r.source src).advance d := by cases src <;> rfl

@[simp] theorem lock_markerAge (l : Source) : ((r.lock l).source src).markerAge = (r.source src).markerAge := by
  unfold Reference.lock
  cases src <;> cases hc : r.closeDue <;> rfl

theorem advance_state : (r.advance d).state = r.state := rfl

theorem advance_selected : (r.advance d).selected = r.selected := rfl

/-- A source is absent once its latest marker is more than 32 frames old (R100). -/
theorem absent_iff : ((r.source src).advance d).isPresent = false ↔
    ∀ a, (r.source src).markerAge = some a → 32 * 125 < a + d := by
  unfold SourceTrack.isPresent SourceTrack.advance Config.presenceUs Config.frameUs
  cases (r.source src).markerAge <;> simp

theorem inSyncWindow_iff : (r.advance d).inSyncWindow = true ↔
    16 * 125 ≤ r.genUs + d + 125 ∨ (r.closeDue = true ∧ r.tickUs + d ≤ 125) := by
  unfold Reference.inSyncWindow Reference.advance Config.multiframeUs Config.frameUs
  simp

end Reference

/-! ## MARKER_ARRIVAL -/

/-- The part with a marker of `src` entered, `d` microseconds on. -/
def State.marked (src : Source) (d : Nat) (s : State) : State := s.modRef fun r => (r.advance d).mark src

theorem marked_ref (s : State) (src : Source) (d : Nat) : (s.marked src d).ref = (s.ref.advance d).mark src := rfl

theorem marked_event (s : State) (src : Source) (d : Nat) : ReferenceEvent s (s.marked src d) := referenceEvent_modRef ..

/-- During the survey a marker is for presence only, and so is it always in LOCKED and HOLDOVER (R99, R100). -/
theorem marker_survey {s : State} (h : s.survey.running = true) (src : Source) (d : Nat) : s.marker src d = s.marked src d :=
  if_pos h

theorem marker_kept {s : State} (h : s.ref.state = .locked ∨ s.ref.state = .holdover) (src : Source) (d : Nat) :
    s.marker src d = s.marked src d := by
  unfold State.marker
  rcases h with h | h <;> simp only [Reference.advance, h, ite_self] <;> rfl

theorem marker_free {s : State} (h : s.ref.state = .free) (hr : s.survey.running = false) (src : Source) (d : Nat) :
    s.marker src d = if src = s.ref.preferred ∨ ((s.ref.source s.ref.preferred).advance d).isPresent = false then
      (s.marked src d).setReference (Reference.acquire src) else s.marked src d := by
  unfold State.marker
  rw [if_neg (by simp [hr])]
  simp only [advance_source]
  rw [show (s.ref.advance d).state = .free from h]
  rfl

theorem marker_acquiring {s : State} (h : s.ref.state = .acquiring) (hr : s.survey.running = false) (src : Source) (d : Nat) :
    s.marker src d = if s.ref.acquisition = some src then
      (s.marked src d).acquisitionMarker src ((s.ref.source src).advance d).markerAge else s.marked src d := by
  unfold State.marker
  rw [if_neg (by simp [hr])]
  simp only [advance_source]
  rw [show (s.ref.advance d).state = .acquiring from h]
  rfl

theorem hasShelfNotice_marked (s : State) (src : Source) (d : Nat) (m : ManagerId) (k : ShelfNotice) :
    (s.marked src d).hasShelfNotice m k ↔ s.hasShelfNotice m k := hasShelfNotice_congr (fun _ => modRef_manager ..) m k

/-- A marker in FREE (R100, R101). -/
theorem marker_in_free (s : State) (src : Source) (d : Nat) (h : s.ref.state = .free) :
    ∃ t, exec (.markerArrival src d) s = .next t ∧ ReferenceEvent s t ∧ (t.ref.source src).markerAge = some 0 ∧
       t.block = s.block ∧ t.ref.preferred = s.ref.preferred ∧ t.ref.selected = s.ref.selected ∧
       t.ref.genUs = s.ref.genUs + d ∧
       let preferredAbsent := ∀ a, (s.ref.source s.ref.preferred).markerAge = some a → 32 * 125 < a + d
       (s.survey.running = false → (src = s.ref.preferred ∨ preferredAbsent) →
         t.ref.state = .acquiring ∧ t.ref.acquisition = some src ∧ t.ref.acqCount = 0 ∧ t.postedShelf .reference) ∧
       (s.survey.running = true ∨ (src ≠ s.ref.preferred ∧ ¬ preferredAbsent) →
         t.ref.state = .free ∧ t.ref.acquisition = s.ref.acquisition ∧
         ∀ m k, t.hasShelfNotice m k ↔ s.hasShelfNotice m k) := by
  by_cases ha : s.survey.running = false ∧
      (src = s.ref.preferred ∨ ((s.ref.source s.ref.preferred).advance d).isPresent = false)
  · have e : s.marker src d = (s.marked src d).setReference (Reference.acquire src) := by
      rw [marker_free h ha.1, if_pos ha.2]
    have f : ReferenceEvent s (s.marker src d) := e ▸ (marked_event ..).trans (referenceEvent_setReference ..)
    refine ⟨_, f.event, f, ?_⟩
    rw [e, setReference_ref, marked_ref]
    refine ⟨?_, rfl, ?_, ?_, ?_, fun _ _ => ⟨rfl, rfl, rfl, setReference_posted _ _⟩, fun k => ?_⟩
    · cases src <;> rfl
    · exact mark_preferred ..
    · exact mark_selected ..
    · exact mark_genUs ..
    · rcases k with k | ⟨k, l⟩
      · simp [ha.1] at k
      · exact absurd ((absent_iff ..).1 (ha.2.resolve_left k)) l
  · have e : s.marker src d = s.marked src d := by
      cases hr : s.survey.running
      · rw [marker_free h hr, if_neg fun k => ha ⟨hr, k⟩]
      · exact marker_survey hr src d
    have f : ReferenceEvent s (s.marker src d) := e ▸ marked_event ..
    refine ⟨_, f.event, f, ?_⟩
    rw [e, marked_ref]
    refine ⟨by rw [mark_source], rfl, mark_preferred .., mark_selected .., mark_genUs .., fun hr k => ?_,
      fun _ => ⟨(mark_state ..).trans h, mark_acquisition .., hasShelfNotice_marked _ _ _⟩⟩
    exact absurd ⟨hr, k.imp_right (absent_iff ..).2⟩ ha

theorem goodSpacing_advance (t : SourceTrack) (d : Nat) : goodSpacing (t.advance d).markerAge = true ↔
    ∃ a, t.markerAge = some a ∧ 15 * 125 ≤ a + d ∧ a + d ≤ 17 * 125 := by
  unfold goodSpacing SourceTrack.advance Config.goodSpacingMinUs Config.goodSpacingMaxUs Config.frameUs
  cases t.markerAge <;> simp

/-- A marker in ACQUIRING (R102, R103). -/
theorem marker_in_acquiring (s : State) (src : Source) (d : Nat) (hr : s.survey.running = false)
    (h : s.ref.state = .acquiring) :
    ∃ t, exec (.markerArrival src d) s = .next t ∧ ReferenceEvent s t ∧ (t.ref.source src).markerAge = some 0 ∧
       t.block = s.block ∧
       (s.ref.acquisition ≠ some src → t.ref.state = .acquiring ∧ t.ref.acquisition = s.ref.acquisition ∧
         t.ref.acqCount = s.ref.acqCount) ∧
       (∀ a, s.ref.acquisition = some src → (s.ref.source src).markerAge = some a → 15 * 125 ≤ a + d →
         a + d ≤ 17 * 125 →
         (s.ref.acqCount + 1 < 8 → t.ref.state = .acquiring ∧ t.ref.acquisition = some src ∧
           t.ref.acqCount = s.ref.acqCount + 1) ∧
         (8 ≤ s.ref.acqCount + 1 → t.ref.state = .locked ∧ t.ref.selected = some src ∧ t.ref.acquisition = none ∧
           t.ref.acqCount = 0 ∧ t.ref.preferred = src ∧ t.ref.genUs = 0 ∧ t.ref.lockedSince = false ∧
           t.postedShelf .reference)) ∧
       (s.ref.acquisition = some src →
         (∀ a, (s.ref.source src).markerAge = some a → a + d < 15 * 125 ∨ 17 * 125 < a + d) →
         t.ref.state = .acquiring ∧ t.ref.acquisition = some src ∧ t.ref.acqCount = 0) := by
  have count : ((s.marked src d).ref).acqCount = s.ref.acqCount := mark_acqCount ..
  by_cases hs : s.ref.acquisition = some src
  · have e := marker_acquiring h hr src d
    rw [if_pos hs, State.acquisitionMarker] at e
    by_cases hg : goodSpacing ((s.ref.source src).advance d).markerAge = true
    · obtain ⟨b, hb, hl, hu⟩ := (goodSpacing_advance ..).1 hg
      have notBad : (∀ a, (s.ref.source src).markerAge = some a → a + d < 15 * 125 ∨ 17 * 125 < a + d) → False :=
        fun k => by rcases k b hb with k | k <;> omega
      rw [if_pos hg] at e
      by_cases hc : Config.lockCount ≤ (s.marked src d).ref.acqCount + 1
      · rw [if_pos hc] at e
        have f : ReferenceEvent s (s.marker src d) := e ▸ (marked_event ..).trans (referenceEvent_setReference ..)
        refine ⟨_, f.event, f, ?_⟩
        rw [e, setReference_ref, marked_ref]
        refine ⟨?_, rfl, fun k => absurd hs k, fun a _ _ _ _ => ⟨fun k => ?_, fun _ => ?_⟩, fun _ k => (notBad k).elim⟩
        · exact (lock_markerAge _ src src).trans (by rw [mark_source])
        · rw [count] at hc; unfold Config.lockCount at hc; omega
        · exact ⟨rfl, rfl, rfl, rfl, rfl, rfl, rfl, setReference_posted _ _⟩
      · rw [if_neg hc] at e
        have f : ReferenceEvent s (s.marker src d) := e ▸ (marked_event ..).trans (referenceEvent_modRef ..)
        refine ⟨_, f.event, f, ?_⟩
        rw [e]
        refine ⟨?_, rfl, fun k => absurd hs k, fun a _ _ _ _ => ⟨fun _ => ⟨?_, ?_, ?_⟩, fun k => ?_⟩,
          fun _ k => (notBad k).elim⟩
        · cases src <;> rfl
        · exact (mark_state ..).trans h
        · exact (mark_acquisition ..).trans hs
        · exact congrArg (· + 1) count
        · rw [count] at hc; unfold Config.lockCount at hc; omega
    · rw [if_neg hg] at e
      have f : ReferenceEvent s (s.marker src d) := e ▸ (marked_event ..).trans (referenceEvent_modRef ..)
      refine ⟨_, f.event, f, ?_⟩
      rw [e]
      refine ⟨?_, rfl, fun k => absurd hs k, fun a _ ha hl hu => ?_, fun _ _ => ⟨?_, ?_, rfl⟩⟩
      · cases src <;> rfl
      · exact absurd ((goodSpacing_advance ..).2 ⟨a, ha, hl, hu⟩) hg
      · exact (mark_state ..).trans h
      · exact (mark_acquisition ..).trans hs
  · have e := marker_acquiring h hr src d
    rw [if_neg hs] at e
    have f : ReferenceEvent s (s.marker src d) := e ▸ marked_event ..
    refine ⟨_, f.event, f, ?_⟩
    rw [e, marked_ref]
    exact ⟨by rw [mark_source], rfl, fun _ => ⟨(mark_state ..).trans h, mark_acquisition .., mark_acqCount ..⟩,
      fun a k => absurd k hs, fun k => absurd k hs⟩

/-- Settles O30: the part without its three cases is that every marker is entered alike. -/
theorem markerArrivalByReferenceState : Obligations.MarkerArrivalByReferenceState := by
  refine ⟨marker_in_free, marker_in_acquiring, fun s src d h => ?_⟩
  have e := marker_kept h src d
  have f : ReferenceEvent s (s.marker src d) := e ▸ marked_event ..
  refine ⟨_, f.event, f, ?_⟩
  rw [e, marked_ref]
  refine ⟨rfl, mark_state .., mark_selected .., mark_preferred .., mark_trial .., mark_holdover .., mark_genUs ..,
    by rw [mark_source], fun hn hw => ?_, fun hn hw => ?_, fun a ha => ?_, hasShelfNotice_marked _ _ _⟩
  · rw [mark_source, advance_source]
    exact if_pos ⟨(inSyncWindow_iff ..).2 hw, by rw [SourceTrack.advance, hn]; rfl⟩
  · rw [mark_source, advance_source]
    refine (if_neg fun k => hw ((inSyncWindow_iff ..).1 k.1)).trans ?_
    rw [SourceTrack.advance, hn]; rfl
  · rw [mark_source, advance_source, SourceTrack.advance, ha]
    exact if_neg fun k => by cases k.2

/-! ## HOLDOVER_LIMIT and SYNC_WINDOW_CLOSE -/

/-- The part once the sync window of its latest tick has closed. -/
def State.windowClosed (s : State) : State :=
  s.modRef fun _ => (s.ref.advance (Config.frameUs - s.ref.tickUs)).closeWindow

theorem windowClosed_event (s : State) : ReferenceEvent s s.windowClosed := referenceEvent_modRef ..

theorem syncClose_locked {s : State} (h : s.ref.state = .locked) : s.syncClose =
    s.windowClosed.closeLocked ((s.ref.advance (Config.frameUs - s.ref.tickUs)).finding s.ref.selected) := by
  have hl : s.ref.limitReached = false := by rw [Reference.limitReached, h]; rfl
  unfold State.syncClose
  simp only [hl, Bool.false_eq_true, if_false, advance_state, h]
  rfl

theorem syncClose_acquiring {s : State} (h : s.ref.state = .acquiring) : s.syncClose = s.windowClosed.closeAcquiring := by
  have hl : s.ref.limitReached = false := by rw [Reference.limitReached, h]; rfl
  unfold State.syncClose
  simp only [hl, Bool.false_eq_true, if_false, advance_state, h]
  rfl

theorem syncClose_holdover {s : State} {src : Source} (h : s.ref.state = .holdover) (hc : s.ref.holdover < 250)
    (hs : s.ref.selected = some src) : s.syncClose = s.windowClosed.closeHoldover (Source.other src)
      ((s.ref.advance (Config.frameUs - s.ref.tickUs)).finding (some (Source.other src))) := by
  have hl : s.ref.limitReached = false := by
    rw [Reference.limitReached, decide_eq_false (Nat.not_le.2 hc), Bool.and_false]
  unfold State.syncClose
  simp only [hl, Bool.false_eq_true, if_false, advance_state, advance_selected, h, hs]
  rfl

/-- The finding of a source is the age of its first marker in the window that closes (R100). -/
theorem finding_advance (r : Reference) (d : Nat) (src : Source) :
    (r.advance d).finding (some src) = (r.source src).inWindow.map (· + d) := by
  rw [Reference.finding, advance_source]; rfl

theorem exec_syncWindowClose {s : State} (h : s.ref.closeDue = true) (e : ReferenceEvent s s.syncClose) :
    exec .syncWindowClose s = .next s.syncClose := (if_pos h).trans e.event

/-- The close in LOCKED (R104). -/
theorem windowClose_locked (s : State) (src : Source) (hd : s.ref.closeDue = true) (hs : s.ref.selected = some src)
    (h : s.ref.state = .locked) : let d := 125 - s.ref.tickUs
    ∃ t, exec .syncWindowClose s = .next t ∧ ReferenceEvent s t ∧ t.block = s.block ∧
      t.ref.closeDue = false ∧ t.ref.selected = some src ∧ t.ref.preferred = s.ref.preferred ∧
      (∀ a, (s.ref.source src).inWindow = some a → t.ref.state = .locked ∧ t.ref.genUs = a + d ∧
        t.ref.lockedSince = s.ref.lockedSince) ∧
      ((s.ref.source src).inWindow = none → t.ref.state = .holdover ∧ t.ref.holdover = 0 ∧ t.ref.trial = 0 ∧
        t.ref.genUs = s.ref.genUs + d ∧ t.ref.lockedSince = false ∧ t.postedShelf .reference) := by
  intro d
  have e := syncClose_locked h
  rw [hs, finding_advance] at e
  cases hw : (s.ref.source src).inWindow with
  | none =>
    rw [hw] at e
    have e' : s.syncClose = s.windowClosed.setReference Reference.hold := e
    have f : ReferenceEvent s s.syncClose := e' ▸ (windowClosed_event s).trans (referenceEvent_setReference ..)
    refine ⟨_, exec_syncWindowClose hd f, f, ?_⟩
    rw [e']
    exact ⟨rfl, rfl, hs, rfl, nofun, fun _ => ⟨rfl, rfl, rfl, rfl, rfl, setReference_posted _ _⟩⟩
  | some a =>
    rw [hw] at e
    have e' : s.syncClose = s.windowClosed.modRef (Reference.trim (a + d)) := e
    have f : ReferenceEvent s s.syncClose := e' ▸ (windowClosed_event s).trans (referenceEvent_modRef ..)
    refine ⟨_, exec_syncWindowClose hd f, f, ?_⟩
    rw [e']
    refine ⟨rfl, rfl, hs, rfl, fun b hb => ?_, nofun⟩
    cases hb
    exact ⟨h, rfl, rfl⟩

/-- The close in HOLDOVER (R105). -/
theorem windowClose_holdover (s : State) (src : Source) (hd : s.ref.closeDue = true) (hs : s.ref.selected = some src)
    (h : s.ref.state = .holdover) (hc : s.ref.holdover < 250) : let d := 125 - s.ref.tickUs
    ∃ t, exec .syncWindowClose s = .next t ∧ ReferenceEvent s t ∧
      t.block = s.block ∧ t.ref.closeDue = false ∧
      (∀ a, (s.ref.source (Source.other src)).inWindow = some a →
        (s.ref.trial + 1 < 8 → t.ref.state = .holdover ∧ t.ref.trial = s.ref.trial + 1 ∧
          t.ref.selected = some src ∧ t.ref.holdover = s.ref.holdover ∧ t.ref.preferred = s.ref.preferred) ∧
        (8 ≤ s.ref.trial + 1 → t.ref.state = .locked ∧ t.ref.selected = some (Source.other src) ∧
          t.ref.preferred = Source.other src ∧ t.ref.trial = 0 ∧ t.ref.holdover = 0 ∧ t.ref.genUs = a + d ∧
          t.ref.lockedSince = false ∧ t.postedShelf .reference)) ∧
      ((s.ref.source (Source.other src)).inWindow = none → t.ref.state = .holdover ∧ t.ref.trial = 0 ∧
        t.ref.selected = some src ∧ t.ref.holdover = s.ref.holdover ∧ t.ref.genUs = s.ref.genUs + d) := by
  intro d
  have e := syncClose_holdover h hc hs
  rw [finding_advance] at e
  cases hw : (s.ref.source (Source.other src)).inWindow with
  | none =>
    rw [hw] at e
    have e' : s.syncClose = s.windowClosed.modRef fun r => { r with trial := 0 } := e
    have f : ReferenceEvent s s.syncClose := e' ▸ (windowClosed_event s).trans (referenceEvent_modRef ..)
    refine ⟨_, exec_syncWindowClose hd f, f, ?_⟩
    rw [e']
    exact ⟨rfl, rfl, nofun, fun _ => ⟨h, rfl, hs, rfl, rfl⟩⟩
  | some a =>
    rw [hw] at e
    by_cases ht : 8 ≤ s.ref.trial + 1
    · have e' : s.syncClose = s.windowClosed.setReference (Reference.hitlessLock (Source.other src) (a + d)) :=
        e.trans (if_pos ht)
      have f : ReferenceEvent s s.syncClose := e' ▸ (windowClosed_event s).trans (referenceEvent_setReference ..)
      refine ⟨_, exec_syncWindowClose hd f, f, ?_⟩
      rw [e']
      refine ⟨rfl, rfl, fun b hb => ⟨fun k => absurd ht (Nat.not_le.2 k), fun _ => ?_⟩, nofun⟩
      cases hb
      exact ⟨rfl, rfl, rfl, rfl, rfl, rfl, rfl, setReference_posted _ _⟩
    · have e' : s.syncClose = s.windowClosed.modRef fun r => { r with trial := r.trial + 1 } := e.trans (if_neg ht)
      have f : ReferenceEvent s s.syncClose := e' ▸ (windowClosed_event s).trans (referenceEvent_modRef ..)
      refine ⟨_, exec_syncWindowClose hd f, f, ?_⟩
      rw [e']
      exact ⟨rfl, rfl, fun b _ => ⟨fun _ => ⟨h, rfl, hs, rfl, rfl⟩, fun k => absurd k ht⟩, nofun⟩

/-- Settles O31. -/
theorem windowCloseTrimsOrHolds : Obligations.WindowCloseTrimsOrHolds := fun s src hd hs =>
  ⟨windowClose_locked s src hd hs, windowClose_holdover s src hd hs⟩

/-- Settles O32. -/
theorem referenceFallsFree : Obligations.ReferenceFallsFree := by
  refine fun s => ⟨fun h hc => ?_, fun src hd h ha hp => ?_⟩
  · have hl : s.ref.limitReached = true := by
      rw [Reference.limitReached, h, decide_eq_true (show Config.holdoverTicks ≤ s.ref.holdover from hc)]; rfl
    have f := referenceEvent_goFree s
    exact ⟨s.goFree, (if_pos hl).trans f.event, f, rfl, rfl, rfl, rfl, rfl, rfl, rfl, goFree_posted s⟩
  · have absent : (s.windowClosed.ref.source src).isPresent = false := by
      have k := (absent_iff s.ref src (Config.frameUs - s.ref.tickUs)).2 hp
      cases src <;> exact k
    have e : s.syncClose = s.windowClosed.goFree := by
      rw [syncClose_acquiring h, State.closeAcquiring, show s.windowClosed.ref.acquisition = some src from ha]
      exact if_neg (by simp [absent])
    have f : ReferenceEvent s s.syncClose := e ▸ (windowClosed_event s).trans (referenceEvent_goFree _)
    refine ⟨_, exec_syncWindowClose hd f, f, ?_⟩
    rw [e]
    exact ⟨rfl, rfl, rfl, rfl, rfl, goFree_posted _⟩

end Sys2Proof.Machine
end

section
/-! # Requests of the shelf's settings and of supervision: O39, O40 and O41 -/

namespace Sys2Proof.Machine

variable {r : Request} {s u : State} {m : ManagerId} {i : SlotId}

/-! ## How a request ends -/

/-- A request whose body leaves both zones as they are ends with its body. -/
theorem request_of_zones (h : Received r s) {b : Body} {p : State → Reply} (hb : b s = (u, p))
    (hz : ∀ z, u.zone z = s.zone z) : request r b s = .next (u.replied r (p u)) := by
  rw [request_eq h, hb]
  exact congrArg (fun v : State => Host.Outcome.next (v.replied r (p v))) (settle_of_zones (hz .one) (hz .two))

theorem request_settled (h : Received r s) {b : Body} {p : State → Reply} (hb : b s = (u, p)) :
    request r b s = .next ((s.settle u).replied r (p (s.settle u))) := by
  rw [request_eq h, hb]

/-- What is done calmly to one slot with both zones left as they are is a quiet event of its own. -/
theorem quietEvent_of_zones (c : Calm s u) (l : Local i s u) (ho : u.block.opened = s.block.opened) (hb : u.bank = s.bank)
    (hz : ∀ z, u.zone z = s.zone z) : QuietEvent i s u := by
  have q := quietEvent_settle c l ho hb
  rwa [settle_of_zones (hz .one) (hz .two)] at q

/-! ## Bytes -/

theorem byte_toNat (b : Byte) : byte b.toNat = b := BitVec.ofNat_toNat ..

theorem bytes2_word2 (a b : Byte) : bytes2 (word2 a b) = [a, b] := by
  have ha := a.isLt
  have hb := b.isLt
  have h1 : byte (word2 a b / 256) = a := BitVec.eq_of_toNat_eq (by simp [byte, word2]; omega)
  have h2 : byte (word2 a b) = b := BitVec.eq_of_toNat_eq (by simp [byte, word2]; omega)
  rw [bytes2, h1, h2]

/-! ## SET_TIMERS and SET_OBSERVATION -/

theorem setTimers_taken (h : ToShelf r m s) {t : TimerSettings} (ht : timerSettings? r.params = some t) :
    exec (.setTimers r) s = .next (({ s with timers := t } : State).replied r
      ⟨.done, bytes2 t.declare ++ bytes2 t.drain ++ [byte t.discharge]⟩) :=
  request_of_zones (b := setTimersBody r) h.toReceived (p := fun _ => _) (by rw [setTimersBody, onShelf_eq h, ht])
    fun z => by cases z <;> rfl

theorem setTimers_refused (h : ToShelf r m s) (ht : timerSettings? r.params = none) :
    exec (.setTimers r) s = .next (s.replied r ⟨.badParam, []⟩) :=
  request_refuse (b := setTimersBody r) h.toReceived (by rw [setTimersBody, onShelf_eq h, ht])

theorem setObservation_taken (h : ToShelf r m s) {w t d : Nat} (ho : observation? r.params = some (w, t, d)) :
    exec (.setObservation r) s = .next ((s.modBlock fun b => { b with window := w, threshold := t, tolerance := d }).replied r
      ⟨.done, [byte w, byte t, byte d]⟩) :=
  request_of_zones (b := setObservationBody r) h.toReceived (p := fun _ => _) (by rw [setObservationBody, onShelf_eq h, ho])
    fun _ => modBlock_zone ..

theorem setObservation_refused (h : ToShelf r m s) (ho : observation? r.params = none) :
    exec (.setObservation r) s = .next (s.replied r ⟨.badParam, []⟩) :=
  request_refuse (b := setObservationBody r) h.toReceived (by rw [setObservationBody, onShelf_eq h, ho])

/-- Settles O39. -/
theorem settingsAreWritten : Obligations.SettingsAreWritten := by
  intro r m s h
  refine ⟨fun a b c d e l hp => ?_, fun w t d l hp => ?_, fun hl => ?_, fun hl => ?_⟩
  · intro declare drain
    split
    · next k =>
      refine (setTimers_taken h (t := ⟨declare, drain, e.toNat⟩) (by rw [hp]; exact if_pos k)).trans ?_
      rw [show declare = word2 a b from rfl, show drain = word2 c d from rfl, bytes2_word2, bytes2_word2, byte_toNat]
      rfl
    · next k => exact setTimers_refused h (by rw [hp]; exact if_neg k)
  · split
    · next k =>
      refine (setObservation_taken h (by rw [hp]; exact if_pos k)).trans ?_
      rw [byte_toNat, byte_toNat]
      have hd : byte (min d.toNat w.toNat) = if w.toNat ≤ d.toNat then w else d := by
        split
        · next hle => rw [Nat.min_eq_right hle, byte_toNat]
        · next hle => rw [Nat.min_eq_left (by omega), byte_toNat]
      rw [hd]
    · next k => exact setObservation_refused h (by rw [hp]; exact if_neg k)
  · refine setTimers_refused h ?_
    unfold timerSettings?
    split
    · next hp => rw [hp] at hl; simp only [List.length_cons] at hl; omega
    · rfl
  · refine setObservation_refused h ?_
    unfold observation?
    split
    · next hp => rw [hp] at hl; simp only [List.length_cons] at hl; omega
    · rfl

/-! ## The counter bank's requests -/

theorem setMonitor_taken (h : ToShelf r m s) {v : MonitorSetting} (hv : monitorSetting? r.params = some v) :
    exec (.setMonitor r) s = .next (({ s with bank := s.bank.select v } : State).replied r ⟨.done, []⟩) :=
  request_of_zones (b := setMonitorBody r) h.toReceived (p := fun _ => _) (by rw [setMonitorBody, onShelf_eq h, hv]; rfl)
    fun z => by cases z <;> rfl

theorem setMonitor_refused (h : ToShelf r m s) (hv : monitorSetting? r.params = none) :
    exec (.setMonitor r) s = .next (s.replied r ⟨.badParam, []⟩) :=
  request_refuse (b := setMonitorBody r) h.toReceived (by rw [setMonitorBody, onShelf_eq h, hv])

theorem clearMonitor_taken (h : ToShelf r m s) {set : BitVec 4} (hv : counterSet? r.params = some set) :
    exec (.clearMonitor r) s = .next (({ s with bank := s.bank.clear set } : State).replied r ⟨.done, []⟩) :=
  request_of_zones (b := clearMonitorBody r) h.toReceived (p := fun _ => _) (by rw [clearMonitorBody, onShelf_eq h, hv]; rfl)
    fun z => by cases z <;> rfl

theorem clearMonitor_refused (h : ToShelf r m s) (hv : counterSet? r.params = none) :
    exec (.clearMonitor r) s = .next (s.replied r ⟨.badParam, []⟩) :=
  request_refuse (b := clearMonitorBody r) h.toReceived (by rw [clearMonitorBody, onShelf_eq h, hv])

theorem counterNumber_byte (k : Fin 4) : counterNumber? (byte (k.val + 1)) = some k := by fin_cases k <;> rfl

theorem eventKind_byte (e : EventKind) : eventKind? (byte (e.index.val + 1)) = some e := by cases e <;> rfl

theorem countMode_byte (c : CountMode) : countMode? (byte c.code) = some c := by cases c <;> rfl

theorem flag_byte (b : Bool) : flag? (byte (flagBit b 0)) = some b := by cases b <;> rfl

theorem counterNumber_none {c : Byte} (h : c = 0 ∨ 4 < c.toNat) : counterNumber? c = none := by
  refine dif_neg fun k => ?_
  rcases h with rfl | h
  · exact absurd k.1 (by decide)
  · omega

theorem eventKind_none {k : Byte} (h : k = 0 ∨ 12 < k.toNat) : eventKind? k = none := by
  rcases h with rfl | h
  · rfl
  · unfold eventKind?
    split
    iterate 12 · omega
    rfl

theorem countMode_none {c : Byte} (h : 2 < c.toNat) : countMode? c = none := by
  have ne : ∀ d : Byte, d.toNat ≤ 2 → c ≠ d := fun d hd e => by rw [e] at h; omega
  unfold countMode?
  rw [if_neg (ne 0 (by decide)), if_neg (ne 1 (by decide)), if_neg (ne 2 (by decide))]

theorem flag_none {c : Byte} (h : 1 < c.toNat) : flag? c = none := by
  have ne : ∀ d : Byte, d.toNat ≤ 1 → c ≠ d := fun d hd e => by rw [e] at h; omega
  unfold flag?
  rw [if_neg (ne 0 (by decide)), if_neg (ne 1 (by decide))]

theorem monitorSetting_none {c k md t iv fz : Byte} {l : List Byte}
    (h : counterNumber? c = none ∨ eventKind? k = none ∨ countMode? md = none ∨ flag? iv = none ∨ flag? fz = none ∨ t = 0) :
    monitorSetting? (c :: k :: md :: t :: iv :: fz :: l) = none := by
  unfold monitorSetting?
  simp only
  split
  · next h1 h2 h3 h4 h5 =>
    rw [h1, h2, h3, h4, h5] at h
    exact if_pos (by simpa using h)
  · rfl

theorem counterSet_setWidth {set : BitVec 4} (h : set ≠ 0) (l : List Byte) :
    counterSet? (set.setWidth 8 :: l) = some set := by
  have h16 : (set.setWidth 8).toNat < 16 := by
    rw [BitVec.toNat_setWidth_of_le (by decide)]
    exact set.isLt
  have h0 : set.setWidth 8 ≠ 0 := fun e => h (BitVec.eq_of_toNat_eq (by
    have := congrArg BitVec.toNat e
    rwa [BitVec.toNat_setWidth_of_le (by decide)] at this))
  refine (if_neg (by rintro (k | k); exacts [h0 k, by omega])).trans ?_
  rw [BitVec.setWidth_setWidth_of_le _ (by decide), BitVec.setWidth_eq]

theorem monitorSetting_bytes (k : Fin 4) (e : EventKind) (mode : CountMode) (invert freeze : Bool) {t : Byte} (ht : t ≠ 0)
    (l : List Byte) : monitorSetting? (byte (k.val + 1) :: byte (e.index.val + 1) :: byte mode.code :: t ::
        byte (flagBit invert 0) :: byte (flagBit freeze 0) :: l) = some
      { counter := k, kind := e, mode := mode, threshold := t.toNat, invert := invert, freezeOn := freeze } := by
  simpa [monitorSetting?, counterNumber_byte, eventKind_byte, countMode_byte, flag_byte] using ht

/-- Settles O40. -/
theorem monitorRequestsSetBank : Obligations.MonitorRequestsSetBank := by
  intro r m s h
  refine ⟨fun k e mode invert freeze t l ht hp => ?_, fun set l hset hp => ?_, fun hl => ?_,
    fun c k mode t iv fz l hp hb => ?_, fun hb => ?_, ?_⟩
  · refine ⟨_, setMonitor_taken h (by rw [hp]; exact monitorSetting_bytes k e mode invert freeze ht l), rfl, rfl, rfl,
      fun j => ⟨fun hj => ?_, fun hj => ?_⟩⟩
    · exact Vector.getElem_set_ne k.isLt j.isLt fun e => hj (Fin.ext e.symm)
    · subst hj
      exact Vector.getElem_set_self ..
  · refine ⟨_, clearMonitor_taken h (by rw [hp]; exact counterSet_setWidth hset l), rfl, rfl, rfl, fun j => ?_⟩
    exact Vector.getElem_ofFn ..
  · refine setMonitor_refused h ?_
    unfold monitorSetting?
    split
    · next hp => rw [hp] at hl; simp only [List.length_cons] at hl; omega
    · rfl
  · refine setMonitor_refused h ?_
    rw [hp]
    refine monitorSetting_none ?_
    rcases hb with k | k | k | k | k | k | k | k
    · exact .inl (counterNumber_none (.inl k))
    · exact .inl (counterNumber_none (.inr k))
    · exact .inr (.inl (eventKind_none (.inl k)))
    · exact .inr (.inl (eventKind_none (.inr k)))
    · exact .inr (.inr (.inl (countMode_none k)))
    · exact .inr (.inr (.inr (.inr (.inr k))))
    · exact .inr (.inr (.inr (.inl (flag_none k))))
    · exact .inr (.inr (.inr (.inr (.inl (flag_none k)))))
  · refine clearMonitor_refused h ?_
    unfold counterSet?
    split
    · next b l hp => exact if_pos ((hb b (by rw [hp]; rfl)).imp_right id)
    · rfl
  · exact request_of_zones (b := unfreezeBody r) h.toReceived (p := fun _ => _) (by rw [unfreezeBody, onShelf_eq h]; rfl)
      fun z => by cases z <;> rfl

/-! ## REFRESH -/

theorem refresh_first (h : FromManager r m s) (hs : r.slot = 0) (ha : (s.manager m).state ≠ .absent) {p : Nat}
    (hp : refreshPhase? r.params = some (.first p)) : exec (.refresh r) s = .next
      ((s.modManager m fun v => { v with pendingPhase := some p }).replied r
        (refreshReply m (s.modManager m fun v => { v with pendingPhase := some p }))) :=
  request_of_zones (b := refreshBody r) h.toReceived
    (by rw [refreshBody, fromManager_eq h, if_neg ha, if_neg (not_not.2 hs), hp]) fun _ => modManager_zone ..

theorem refresh_second (h : FromManager r m s) (hs : r.slot = 0) (ha : (s.manager m).state ≠ .absent) {p : Nat}
    (hp : refreshPhase? r.params = some .second) (hq : (s.manager m).pendingPhase = some p)
    (hz : ∀ z, (s.completePair m p).zone z = s.zone z) : exec (.refresh r) s = .next
      ((s.completePair m p).replied r (refreshReply m (s.completePair m p))) :=
  request_of_zones (b := refreshBody r) h.toReceived
    (by rw [refreshBody, fromManager_eq h, if_neg ha, if_neg (not_not.2 hs), hp]; simp only [hq]) hz

/-- What a completed pair makes of the part: only the sender's record, and a MANAGER notice where it was not ACTIVE (R156). -/
theorem completePair_frame (s : State) (m : ManagerId) (p : Nat) : let u := s.completePair m p
    (u.manager m).quiet = { (s.manager m).quiet with
      state := .active, period := p, pendingPhase := none, timer := .running 0 p } ∧
    (u.manager (ManagerId.other m)).quiet = (s.manager (ManagerId.other m)).quiet ∧
    ((s.manager m).state ≠ .active → u.postedShelf .manager) ∧
    ((s.manager m).state = .active → ∀ n k, u.hasShelfNotice n k ↔ s.hasShelfNotice n k) ∧
    (∀ n k i, u.hasSlotNotice n k i ↔ s.hasSlotNotice n k i) ∧ u.slots = s.slots ∧ (∀ z, u.zone z = s.zone z) ∧
    u.map = s.map ∧ u.block = s.block ∧ u.ref = s.ref := by
  intro u
  by_cases ha : (s.manager m).state = .active
  · have e : u = s.modManager m (Manager.complete p) := if_pos (by cases m <;> exact ha)
    rw [e]
    refine ⟨?_, ?_, fun k => absurd ha k, fun _ n k => ?_, fun n k i => ?_, by cases m <;> rfl,
      fun z => modManager_zone .., by cases m <;> rfl, by cases m <;> rfl, by cases m <;> rfl⟩
    · cases m <;> simp [Manager.quiet, Manager.complete, ← ha]
    · cases m <;> rfl
    · cases m <;> cases n <;> exact Iff.rfl
    · cases m <;> cases n <;> exact Iff.rfl
  · have e : u = (s.modManager m (Manager.complete p)).setManagerState m .active := if_neg (by cases m <;> exact ha)
    rw [e]
    refine ⟨?_, ?_, fun _ => postedShelf_postShelf _ _, fun k => absurd k ha, fun n k i => ?_, by cases m <;> rfl,
      fun z => ?_, by cases m <;> rfl, by cases m <;> rfl, by cases m <;> rfl⟩
    · cases m <;> rfl
    · cases m <;> rfl
    · rw [State.setManagerState, postShelf_hasSlotNotice]
      cases m <;> cases n <;> exact Iff.rfl
    · rw [State.setManagerState, postShelf_zone, modManager_zone, modManager_zone]

theorem refresh_refused (h : FromManager r m s) {c : Completion}
    (hb : (if (s.manager m).state = .absent then Completion.wrongState
      else if r.slot ≠ 0 ∨ refreshPhase? r.params = none then .badParam
      else .wrongState) = c)
    (hr : (s.manager m).state = .absent ∨ r.slot ≠ 0 ∨ refreshPhase? r.params = none ∨
      (refreshPhase? r.params = some .second ∧ (s.manager m).pendingPhase = none)) :
    exec (.refresh r) s = .next (s.replied r ⟨c, []⟩) := by
  refine request_refuse (b := refreshBody r) h.toReceived ?_
  rw [refreshBody, fromManager_eq h, ← hb]
  by_cases ha : (s.manager m).state = .absent
  · rw [if_pos ha, if_pos ha]
  · rw [if_neg ha, if_neg ha]
    by_cases hs : r.slot ≠ 0
    · rw [if_pos hs, if_pos (.inl hs)]
    · rw [if_neg hs]
      rcases (hr.resolve_left ha).resolve_left hs with hp | ⟨hp, hq⟩
      · rw [hp, if_pos (.inr rfl)]
      · rw [hp, if_neg (by rintro (k | k); exacts [hs k, by cases k])]
        simp only [hq]

theorem refreshPhase_none {params : List Byte} (h : (params.head? ≠ some 1 ∧ params.head? ≠ some 2) ∨
    (params.head? = some 1 ∧ (params.length < 3 ∨ ∃ x hi lo l, params = x :: hi :: lo :: l ∧
      (hi.toNat * 256 + lo.toNat < 125 ∨ 4000 < hi.toNat * 256 + lo.toNat)))) : refreshPhase? params = none := by
  match params with
  | [] => rfl
  | ph :: rest =>
    rcases h with ⟨h1, h2⟩ | ⟨h1, h3⟩
    · exact (if_neg fun e => h2 (congrArg some e)).trans (if_neg fun e => h1 (congrArg some e))
    · have hp : ph = 1 := Option.some.inj h1
      subst hp
      match rest with
      | [] => rfl
      | [_] => rfl
      | hi :: lo :: l =>
        refine if_neg fun k => ?_
        unfold word2 at k
        rcases h3 with h3 | ⟨x, hi', lo', l', e, h3⟩
        · simp only [List.length_cons] at h3; omega
        · cases e; omega

/-! ## ADOPT -/

theorem noteCheckpoint_hasSlotNotice (s : State) (i : SlotId) (n : ManagerId) (k : SlotNotice) (j : SlotId) :
    (s.noteCheckpoint i).hasSlotNotice n k j ↔
      s.hasSlotNotice n k j ∨ (k = .checkpoint ∧ j = i ∧ s.awaiting i = true) := by
  unfold State.noteCheckpoint
  split
  · next h => rw [postSlot_hasSlotNotice]; simp [h]
  · next h => simp [h]

theorem noteCheckpoint_eq (s : State) (i : SlotId) :
    s.noteCheckpoint i = s ∨ s.noteCheckpoint i = s.postSlot .checkpoint i := by
  unfold State.noteCheckpoint
  split
  · exact .inr rfl
  · exact .inl rfl

@[simp] theorem noteCheckpoint_map (s : State) (i : SlotId) : (s.noteCheckpoint i).map = s.map := by
  rcases noteCheckpoint_eq s i with e | e <;> rw [e]; rfl

@[simp] theorem noteCheckpoint_block (s : State) (i : SlotId) : (s.noteCheckpoint i).block = s.block := by
  rcases noteCheckpoint_eq s i with e | e <;> rw [e]; rfl

@[simp] theorem noteCheckpoint_bank (s : State) (i : SlotId) : (s.noteCheckpoint i).bank = s.bank := by
  rcases noteCheckpoint_eq s i with e | e <;> rw [e]; rfl

@[simp] theorem noteCheckpoint_zone (s : State) (i : SlotId) (z : ZoneId) : (s.noteCheckpoint i).zone z = s.zone z := by
  rcases noteCheckpoint_eq s i with e | e <;> rw [e]
  exact postSlot_zone ..

@[simp] theorem giveSteering_slot_self (s : State) (i : SlotId) (m : ManagerId) :
    (s.giveSteering i m).slot i = (s.slot i).steeredBy m := modSlot_slot_self ..

theorem giveSteering_awaiting (s : State) (i : SlotId) (m : ManagerId) :
    (s.giveSteering i m).awaiting i = s.awaiting i := by
  unfold State.awaiting
  rw [giveSteering_slot_self]
  rfl

/-- A slot steered by none or by `m` is steered by `m` once `m` has been given its steering. -/
theorem steeredBy_eq {v : Slot} {m : ManagerId} (h : v.steering = none ∨ v.steering = some m) :
    (v.steeredBy m).steering = some m := by
  rcases h with h | h <;> simp [Slot.steeredBy, h]

theorem adopt_steered (h : ToSlot r m i s) (ha : (s.slot i).state.adoptable = true) (hs : (s.slot i).steering = some m) :
    exec (.adopt r) s = .next (s.replied r ⟨.done, [byte (ManagerId.code m)]⟩) := by
  have hb : adoptBody r s = (s, steeringReply i) := by
    rw [adoptBody, onSlot_eq h, if_neg (by simp [ha]), if_pos (by simp [hs])]
  refine (request_of_zones (b := adoptBody r) h.toReceived hb fun _ => rfl).trans ?_
  rw [steeringReply, hs]; rfl

theorem adopt_unsteered (h : ToSlot r m i s) (ha : (s.slot i).state.adoptable = true) (hs : (s.slot i).steering = none) :
    exec (.adopt r) s = .next (((s.giveSteering i m).noteCheckpoint i).replied r
      ⟨.done, [byte (ManagerId.code m)]⟩) := by
  have hb : adoptBody r s = ((s.giveSteering i m).noteCheckpoint i, steeringReply i) := by
    rw [adoptBody, onSlot_eq h, if_neg (by simp [ha]), if_neg (by simp [hs])]
  refine (request_of_zones (b := adoptBody r) h.toReceived hb fun z => ?_).trans ?_
  · rw [noteCheckpoint_zone]; exact modSlot_zone ..
  · rw [steeringReply, noteCheckpoint_slot, giveSteering_slot_self, steeredBy_eq (.inl hs)]; rfl

/-- Settles O41. -/
theorem refreshAndAdoptSupervise : Obligations.RefreshAndAdoptSupervise := by
  intro r m s
  refine ⟨fun h hs ha => ⟨fun hi lo l hp hl hu => ?_, fun l p hp hq => ?_, fun l hp hq => ?_⟩, fun h ha => ?_,
    fun h ha hb => ?_, fun i h ha => ?_⟩
  · refine (refresh_first h hs ha (p := word2 hi lo) ?_).trans ?_
    · rw [hp]
      exact if_pos ⟨hl, hu⟩
    · cases m <;> rfl
  · obtain ⟨hm, ho, hposted, hkept, hslot, hslots, hz, hmap, hblock, href⟩ := completePair_frame s m p
    refine ⟨_, (refresh_second h hs ha (by rw [hp]; rfl) hq hz).trans ?_, hm, ho, hposted, hkept, hslot, hslots, hz, hmap,
      hblock, href⟩
    have h1 : ((s.completePair m p).manager m).state = .active := (congrArg Manager.state hm :)
    have h2 : ((s.completePair m p).manager m).period = p := (congrArg Manager.period hm :)
    have h3 : ((s.completePair m p).manager (ManagerId.other m)).state = (s.manager (ManagerId.other m)).state :=
      (congrArg Manager.state ho :)
    rw [refreshReply, h1, h2, h3]; rfl
  · have hr : refreshPhase? r.params = some .second := by rw [hp]; rfl
    exact refresh_refused h (by rw [if_neg ha, if_neg (by simp [hs, hr])]) (.inr (.inr (.inr ⟨hr, hq⟩)))
  · exact refresh_refused h (if_pos ha) (.inl ha)
  · have hb' : r.slot ≠ 0 ∨ refreshPhase? r.params = none := hb.imp_right refreshPhase_none
    exact refresh_refused h (by rw [if_neg ha, if_pos hb']) (.inr (hb'.imp_right .inl))
  · rcases h.steering with hs | hs
    · have hz : ∀ z, ((s.giveSteering i m).noteCheckpoint i).zone z = s.zone z := fun z => by
        rw [noteCheckpoint_zone]; exact modSlot_zone ..
      refine ⟨_, adopt_unsteered h ha hs, quietEvent_of_zones ((calm_giveSteering ..).trans (calm_noteCheckpoint ..))
        ((local_giveSteering ..).trans (local_noteCheckpoint ..)) ?_ ?_ hz, ?_, ?_, ?_, hz, fun n => ?_⟩
      · rw [noteCheckpoint_block]; rfl
      · rw [noteCheckpoint_bank]; rfl
      · rw [noteCheckpoint_slot, giveSteering_slot_self]
      · rw [noteCheckpoint_map]; rfl
      · rw [noteCheckpoint_block]; rfl
      · rw [noteCheckpoint_hasSlotNotice, giveSteering_awaiting]
        exact or_congr Iff.rfl (by simp [hs])
    · refine ⟨s, adopt_steered h ha hs, quietEvent_of_zones (.refl s) (.refl i s) rfl rfl fun _ => rfl, ?_, rfl, rfl,
        fun _ => rfl, fun n => ?_⟩
      · have e : (s.slot i).steeredBy m = { s.slot i with steering := (s.slot i).steering } := by
          rw [Slot.steeredBy, hs]; rfl
        exact e.symm
      · rw [hs]; simp

end Sys2Proof.Machine
end

section
/-! # Notices collected and masked: O38 -/

namespace Sys2Proof.Machine

/-! ## Bits -/

theorem bits_ne_zero {w : Nat} (x : BitVec w) : x ≠ 0 ↔ ∃ n, n < w ∧ x.getLsbD n = true := by
  constructor
  · intro h
    by_contra k
    push Not at k
    exact h (BitVec.eq_of_getLsbD_eq fun n hn => by
      rw [Bool.eq_false_iff.2 (k n hn)]; simp)
  · rintro ⟨n, -, hn⟩ rfl
    simp at hn

/-- The high and the low byte of a set stand one after the other in a reply (R168). -/
theorem pair_bit {l : List Byte} {n : Nat} {ss : BitVec 16} (h0 : l[n]? = some (ss.extractLsb' 8 8))
    (h1 : l[n + 1]? = some (ss.extractLsb' 0 8)) {j : Nat} (hj : j < 16) :
    (l[n + 1 - j / 8]?.getD 0).getLsbD (j % 8) = ss.getLsbD j := by
  rcases (by omega : j / 8 = 0 ∨ j / 8 = 1) with k | k
  · rw [k, Nat.sub_zero, h1, Option.getD_some, BitVec.getLsbD_extractLsb', decide_eq_true (by omega), Bool.true_and]
    congr 1; omega
  · rw [k, Nat.add_sub_cancel, h0, Option.getD_some, BitVec.getLsbD_extractLsb', decide_eq_true (by omega), Bool.true_and]
    congr 1; omega

/-! ## The kinds in the order of SET_NOTICE_MASK (R176) -/

/-- The place of a slot kind in the order of R176. -/
def SlotNotice.place : SlotNotice → Nat
  | .state => 0
  | .checkpoint => 1
  | .handle => 2
  | .fault => 3
  | .declareOverdue => 4
  | .drainOverdue => 5

/-- The first six places are those of the slot kinds, the other six those of the shelf kinds. -/
theorem place_cases {n : Nat} (h : n < 12) : (∃ k : SlotNotice, n = k.place) ∨ ∃ k : ShelfNotice, n = 6 + k.index := by
  match n, h with
  | 0, _ => exact .inl ⟨.state, rfl⟩
  | 1, _ => exact .inl ⟨.checkpoint, rfl⟩
  | 2, _ => exact .inl ⟨.handle, rfl⟩
  | 3, _ => exact .inl ⟨.fault, rfl⟩
  | 4, _ => exact .inl ⟨.declareOverdue, rfl⟩
  | 5, _ => exact .inl ⟨.drainOverdue, rfl⟩
  | 6, _ => exact .inr ⟨.feed, rfl⟩
  | 7, _ => exact .inr ⟨.reference, rfl⟩
  | 8, _ => exact .inr ⟨.monitor, rfl⟩
  | 9, _ => exact .inr ⟨.manager, rfl⟩
  | 10, _ => exact .inr ⟨.bus, rfl⟩
  | 11, _ => exact .inr ⟨.surveyDone, rfl⟩

theorem place_lt (k : SlotNotice) : k.place < 6 := by cases k <;> decide

theorem index_lt (k : ShelfNotice) : k.index < 6 := by cases k <;> decide

theorem kinds_place (n : SlotNotices) (k : SlotNotice) : n.kinds.getD k.place 0 = n.of k := by cases k <;> rfl

theorem pendingKinds_slot (v : Manager) (k : SlotNotice) :
    v.pendingKinds.getLsbD k.place = true ↔ ∃ i : SlotId, (v.slotNotices.of k).mem i = true := by
  have hlt := place_lt k
  unfold Manager.pendingKinds
  rw [BitVec.getLsbD_ofFnLE, dif_pos (by omega : k.place < 12)]
  simp only [hlt, if_true, kinds_place, decide_eq_true_eq]
  rw [bits_ne_zero]
  exact ⟨fun ⟨n, hn, hb⟩ => ⟨⟨n, hn⟩, hb⟩, fun ⟨i, hb⟩ => ⟨i.val, i.isLt, hb⟩⟩

theorem pendingKinds_shelf (v : Manager) (k : ShelfNotice) :
    v.pendingKinds.getLsbD (6 + k.index) = v.shelfNotices.getLsbD k.index := by
  have hlt := index_lt k
  unfold Manager.pendingKinds
  rw [BitVec.getLsbD_ofFnLE, dif_pos (by omega : 6 + k.index < 12)]
  simp only [show ¬ 6 + k.index < 6 by omega, if_false, Nat.add_sub_cancel_left]

/-- A test of the twelve kinds finds a slot kind with a slot pending, or a shelf kind pending. -/
theorem exists_kind (v : Manager) (P : Nat → Prop) : (∃ n, n < 12 ∧ v.pendingKinds.getLsbD n = true ∧ P n) ↔
    (∃ (k : SlotNotice) (i : SlotId), (v.slotNotices.of k).mem i = true ∧ P k.place) ∨
      ∃ k : ShelfNotice, v.shelfNotices.getLsbD k.index = true ∧ P (6 + k.index) := by
  constructor
  · rintro ⟨n, hn, hb, hP⟩
    rcases place_cases hn with ⟨k, rfl⟩ | ⟨k, rfl⟩
    · obtain ⟨i, hi⟩ := (pendingKinds_slot v k).1 hb
      exact .inl ⟨k, i, hi, hP⟩
    · exact .inr ⟨k, pendingKinds_shelf v k ▸ hb, hP⟩
  · rintro (⟨k, i, hi, hP⟩ | ⟨k, hk, hP⟩)
    · have := place_lt k
      exact ⟨k.place, by omega, (pendingKinds_slot v k).2 ⟨i, hi⟩, hP⟩
    · have := index_lt k
      exact ⟨6 + k.index, by omega, (pendingKinds_shelf v k).trans hk, hP⟩

/-- The attention line is asserted exactly while a notice of an unmasked kind is pending (R176). -/
theorem attention_iff (v : Manager) : v.attention = true ↔
    (∃ (k : SlotNotice) (i : SlotId), (v.slotNotices.of k).mem i = true ∧ v.mask.getLsbD k.place = false) ∨
      ∃ k : ShelfNotice, v.shelfNotices.getLsbD k.index = true ∧ v.mask.getLsbD (6 + k.index) = false := by
  rw [← exists_kind v fun n => v.mask.getLsbD n = false, Manager.attention, decide_eq_true_eq, bits_ne_zero]
  refine exists_congr fun n => and_congr_right fun hn => ?_
  rw [BitVec.getLsbD_and, BitVec.getLsbD_not, decide_eq_true hn]
  simp

/-! ## The bytes of READ_NOTICES (R177) -/

theorem returnedShelf_bit (v : Manager) {j : Nat} (hj : j < 16) : (returnedShelf v).getLsbD j = true ↔
    ∃ k : ShelfNotice, j = 6 + k.index ∧ v.shelfNotices.getLsbD k.index = true ∧ v.mask.getLsbD (6 + k.index) = false := by
  have bit : (returnedShelf v).getLsbD j = true ↔
      6 ≤ j ∧ j < 12 ∧ v.shelfNotices.getLsbD (j - 6) = true ∧ v.mask.getLsbD j = false := by
    unfold returnedShelf
    by_cases h6 : 6 ≤ j
    · by_cases h12 : j < 12
      · simp [hj, show ¬ j < 6 by omega, show j - 6 < 6 by omega, show 6 + (j - 6) = j by omega, h6, h12]
      · have : v.shelfNotices.getLsbD (j - 6) = false := BitVec.getLsbD_of_ge _ _ (by omega)
        simp [this, h12]
    · simp [show j < 6 by omega, h6]
  rw [bit]
  constructor
  · rintro ⟨h6, h12, hs, hm⟩
    rcases place_cases h12 with ⟨k, rfl⟩ | ⟨k, rfl⟩
    · have := place_lt k; omega
    · exact ⟨k, rfl, by rwa [Nat.add_sub_cancel_left] at hs, hm⟩
  · rintro ⟨k, rfl, hs, hm⟩
    have := index_lt k
    exact ⟨by omega, by omega, by rwa [Nat.add_sub_cancel_left], hm⟩

theorem unmasked_bit (v : Manager) (k : SlotNotice) (i : SlotId) :
    (unmaskedSlots (v.mask.getLsbD k.place) (v.slotNotices.of k)).getLsbD i.val = true ↔
      (v.slotNotices.of k).mem i = true ∧ v.mask.getLsbD k.place = false := by
  unfold unmaskedSlots
  cases v.mask.getLsbD k.place <;> simp

theorem readNotices_slot (v : Manager) (k : SlotNotice) (i : SlotId) :
    (((readNoticesData v)[2 + 2 * k.place + 1 - i.val / 8]?.getD 0).getLsbD (i.val % 8) = true) ↔
      (v.slotNotices.of k).mem i = true ∧ v.mask.getLsbD k.place = false := by
  rw [← unmasked_bit, pair_bit (ss := unmaskedSlots (v.mask.getLsbD k.place) (v.slotNotices.of k)) _ _ i.isLt] <;>
    cases k <;> rfl

theorem readNotices_shelf (v : Manager) {j : Nat} (hj : j < 16) :
    (((readNoticesData v)[0 + 1 - j / 8]?.getD 0).getLsbD (j % 8) = true) ↔
      ∃ k : ShelfNotice, j = 6 + k.index ∧ v.shelfNotices.getLsbD k.index = true ∧ v.mask.getLsbD (6 + k.index) = false := by
  rw [← returnedShelf_bit v hj, pair_bit (ss := returnedShelf v) rfl rfl hj]

theorem flags_byte (a b : Bool) : let x := byte (flagBit a 0 + flagBit b 1)
    x.toNat < 4 ∧ x.getLsbD 0 = a ∧ x.getLsbD 1 = b := by
  cases a <;> cases b <;> decide

theorem masked_slots (v : Manager) : (v.pendingKinds &&& v.mask).extractLsb' 0 6 ≠ 0 ↔
    ∃ (k : SlotNotice) (i : SlotId), (v.slotNotices.of k).mem i = true ∧ v.mask.getLsbD k.place = true := by
  rw [bits_ne_zero]
  constructor
  · rintro ⟨n, hn, hb⟩
    rw [BitVec.getLsbD_extractLsb', decide_eq_true hn, Bool.true_and, Nat.zero_add, BitVec.getLsbD_and,
      Bool.and_eq_true] at hb
    rcases place_cases (by omega : n < 12) with ⟨k, rfl⟩ | ⟨k, rfl⟩
    · obtain ⟨i, hi⟩ := (pendingKinds_slot v k).1 hb.1
      exact ⟨k, i, hi, hb.2⟩
    · omega
  · rintro ⟨k, i, hi, hm⟩
    refine ⟨k.place, place_lt k, ?_⟩
    rw [BitVec.getLsbD_extractLsb', decide_eq_true (place_lt k), Bool.true_and, Nat.zero_add, BitVec.getLsbD_and,
      (pendingKinds_slot v k).2 ⟨i, hi⟩, hm]
    rfl

theorem masked_shelf (v : Manager) : (v.pendingKinds &&& v.mask).extractLsb' 6 6 ≠ 0 ↔
    ∃ k : ShelfNotice, v.shelfNotices.getLsbD k.index = true ∧ v.mask.getLsbD (6 + k.index) = true := by
  rw [bits_ne_zero]
  constructor
  · rintro ⟨n, hn, hb⟩
    rw [BitVec.getLsbD_extractLsb', decide_eq_true hn, Bool.true_and, BitVec.getLsbD_and, Bool.and_eq_true] at hb
    rcases place_cases (by omega : 6 + n < 12) with ⟨k, hk⟩ | ⟨k, hk⟩
    · have := place_lt k; omega
    · rw [hk, pendingKinds_shelf] at hb
      exact ⟨k, hb⟩
  · rintro ⟨k, hk, hm⟩
    refine ⟨k.index, index_lt k, ?_⟩
    rw [BitVec.getLsbD_extractLsb', decide_eq_true (index_lt k), Bool.true_and, BitVec.getLsbD_and, pendingKinds_shelf,
      hk, hm]
    rfl

/-! ## What is collected leaves the record (R177) -/

theorem collect_slot (v : Manager) (k : SlotNotice) (i : SlotId) : (v.collect.slotNotices.of k).mem i = true ↔
    (v.slotNotices.of k).mem i = true ∧ v.mask.getLsbD k.place = true := by
  have e : v.collect.slotNotices.of k = if v.mask.getLsbD k.place then v.slotNotices.of k else 0 := by cases k <;> rfl
  rw [e]
  cases v.mask.getLsbD k.place <;> simp

theorem collect_shelf (v : Manager) (k : ShelfNotice) : v.collect.shelfNotices.getLsbD k.index = true ↔
    v.shelfNotices.getLsbD k.index = true ∧ v.mask.getLsbD (6 + k.index) = true := by
  simp [Manager.collect, index_lt k]

theorem collect_attention (v : Manager) : v.collect.attention = false := by
  rw [Bool.eq_false_iff, Ne, attention_iff]
  rintro (⟨k, i, hi, hm⟩ | ⟨k, hk, hm⟩)
  · have h := ((collect_slot v k i).1 hi).2
    rw [show v.collect.mask = v.mask from rfl, h] at hm
    cases hm
  · have h := ((collect_shelf v k).1 hk).2
    rw [show v.collect.mask = v.mask from rfl, h] at hm
    cases hm

/-! ## The requests -/

variable {r : Request} {s : State} {m : ManagerId}

theorem readNotices_eq (h : ReadsShelf r m s) : exec (.readNotices r) s = .next
    ((s.modManager m Manager.collect).replied r ⟨.done, readNoticesData (s.manager m)⟩) :=
  request_of_zones (b := readNoticesBody r) h.toReceived (p := fun _ => _) (by rw [readNoticesBody, readShelfOf_eq h])
    fun _ => modManager_zone ..

theorem setNoticeMask_taken (h : FromManager r m s) (hs : r.slot = 0) {mask : BitVec 12}
    (hm : noticeMask? r.params = some mask) : exec (.setNoticeMask r) s = .next
    ((s.modManager m fun v => { v with mask := mask }).replied r ⟨.done, bytes2 mask.toNat⟩) :=
  request_of_zones (b := setNoticeMaskBody r) h.toReceived (p := fun _ => _)
    (by rw [setNoticeMaskBody, fromManager_eq h, if_neg (not_not.2 hs), hm]) fun _ => modManager_zone ..

theorem setNoticeMask_refused (h : FromManager r m s) (hb : r.slot ≠ 0 ∨ noticeMask? r.params = none) :
    exec (.setNoticeMask r) s = .next (s.replied r ⟨.badParam, []⟩) := by
  refine request_refuse (b := setNoticeMaskBody r) h.toReceived ?_
  rw [setNoticeMaskBody, fromManager_eq h]
  by_cases hs : r.slot = 0
  · rw [if_neg (not_not.2 hs), hb.resolve_left (not_not.2 hs)]
  · rw [if_pos hs]

theorem noticeMask_none {params : List Byte} (h : params.length < 2 ∨ ∃ b, params.head? = some b ∧ 15 < b.toNat) :
    noticeMask? params = none := by
  match params with
  | [] => rfl
  | [_] => rfl
  | hi :: lo :: l =>
    refine if_neg fun k => ?_
    rcases h with h | ⟨b, hb, h⟩
    · simp only [List.length_cons] at h; omega
    · cases hb; omega

/-- Settles O38. -/
theorem noticesAreCollected : Obligations.NoticesAreCollected := by
  intro r m s
  refine ⟨attention_iff _, ⟨rfl, fun j hj => readNotices_shelf _ hj, readNotices_slot _, ?_, ?_, ?_⟩, fun h => ?_,
    fun hi lo l h hs hp hlt => ?_, fun h hb => ?_⟩
  · exact (flags_byte _ _).1
  · refine (Bool.eq_iff_iff.1 (flags_byte _ _).2.1).trans ?_
    rw [decide_eq_true_eq]
    exact masked_slots _
  · refine (Bool.eq_iff_iff.1 (flags_byte _ _).2.2).trans ?_
    rw [decide_eq_true_eq]
    exact masked_shelf _
  · have e := modManager_manager_self s m Manager.collect
    refine ⟨_, readNotices_eq h, by cases m <;> rfl, fun k i => ?_, fun k => ?_, ?_⟩
    · rw [State.hasSlotNotice, e]; exact collect_slot _ k i
    · rw [State.hasShelfNotice, e]; exact collect_shelf _ k
    · rw [e]; exact collect_attention _
  · have hw : (BitVec.ofNat 12 (hi.toNat * 256 + lo.toNat)).toNat = word2 hi lo := by
      have := lo.isLt
      rw [BitVec.toNat_ofNat]
      exact Nat.mod_eq_of_lt (by omega)
    refine (setNoticeMask_taken h hs (by rw [hp]; exact if_pos hlt)).trans ?_
    rw [show BitVec.ofNat 12 (word2 hi lo) = BitVec.ofNat 12 (hi.toNat * 256 + lo.toNat) from rfl, hw, bytes2_word2]
  · exact setNoticeMask_refused h (hb.imp_right noticeMask_none)

end Sys2Proof.Machine
end

section
/-! # A slot that goes to a state within an event: what the end of the event leaves of it -/

namespace Sys2Proof.Machine

variable {s t u v : State} {i : SlotId} {st : SlotState}

/-! ## The end of the event on a slot that stands in no queue -/

/-- The end of the event leaves slot `i` as it finds it. -/
structure Settled (i : SlotId) (v u : State) : Prop where
  slot    : u.slot i = v.slot i
  held    : ∀ j, u.heldGroups j = v.heldGroups j
  posted  : ∀ k, v.posted k i → u.posted k i
  listed  : ∀ x : ChangeEntry, x.slot = i → (x ∈ u.block.list ↔ x ∈ v.block.list)
  inQueue : u.inQueue i = false

theorem settled (before : State) (h : v.inQueue i = false) : Settled i v (before.settle v) where
  slot := settle_slot before h
  held := settle_held before
  posted _ := settle_posted before
  listed _ hx := settle_listed before (hx ▸ h)
  inQueue := settle_inQueue before h

/-! ## Notices beside a transition -/

/-- Only notices of slot `i` are posted. -/
structure Noted (i : SlotId) (t u : State) : Prop where
  slot  : ∀ j, u.slot j = t.slot j
  zone  : ∀ z, u.zone z = t.zone z
  map   : u.map = t.map
  block : u.block = t.block
  bank  : u.bank = t.bank
  calm  : Calm t u
  near  : Local i t u

theorem noted_refl (i : SlotId) (t : State) : Noted i t t :=
  ⟨fun _ => rfl, fun _ => rfl, rfl, rfl, rfl, .refl t, .refl i t⟩

theorem noted_postSlot (t : State) (k : SlotNotice) (i : SlotId) : Noted i t (t.postSlot k i) :=
  ⟨fun _ => rfl, fun _ => postSlot_zone .., rfl, rfl, rfl, calm_postSlot .., local_postSlot ..⟩

theorem noted_noteCheckpoint (t : State) (i : SlotId) : Noted i t (t.noteCheckpoint i) := by
  rcases noteCheckpoint_eq t i with e | e <;> rw [e]
  · exact noted_refl i t
  · exact noted_postSlot t .checkpoint i

theorem Noted.inQueue (n : Noted i t u) (j : SlotId) : u.inQueue j = t.inQueue j := by
  unfold State.inQueue
  rw [show u.zone1 = t.zone1 from n.zone .one, show u.zone2 = t.zone2 from n.zone .two]

/-! ## A slot goes to a state -/

/-- A transition from a state whose end no counter kind reports leaves the bank as it is. -/
theorem moveTo_bank_of (s : State) (i : SlotId) (hl : st = .live → (s.slot i).state ≠ .joinObserve)
    (hp : st = .poweringDown → (s.slot i).state ≠ .leaveObserve) : (s.moveTo i st).bank = s.bank := by
  rw [moveTo_counts, if_neg fun k => hl k.1 k.2, if_neg fun k => hp k.1 k.2]

theorem moveTo_unqueued (hq : s.QueueSound) (l : Local i s v) (h : st ≠ .queued) : (v.moveTo i st).inQueue i = false :=
  moveTo_inQueue h fun z hz e he => QueueSound.apart hq i z hz e (by rwa [l.zone z hz] at he)

/-- What an event in which slot `i` goes from the record `r` to a state `st` other than QUEUED leaves of it, beside what
its end does to the slots that stand in a queue. -/
structure Goes (i : SlotId) (st : SlotState) (r : Slot) (s u : State) : Prop where
  event  : QuietEvent i s u
  record : u.slot i = r.moved st s.timers
  posted : u.posted .state i
  held   : st.groupless = false → st ≠ .draining → u.heldGroups i = s.heldGroups i
  freed  : st.groupless = true → u.heldGroups i = 0
  listed : ∀ x : ChangeEntry, x.slot = i →
    (x ∈ u.block.list ↔ (st = .joinWait ∧ x.kind = .join) ∨ (st = .leaveWait ∧ x.kind = .leave))

theorem goes_settle (hq : s.QueueSound) (c : Calm s v) (l : Local i s v) (hb : v.bank = s.bank)
    (ho : v.block.opened = s.block.opened) (hm : v.map = s.map) (h : st ≠ .queued)
    (hl : st = .live → (v.slot i).state ≠ .joinObserve) (hp : st = .poweringDown → (v.slot i).state ≠ .leaveObserve)
    (n : Noted i (v.moveTo i st) t) : Goes i st (v.slot i) s (s.settle t) := by
  have hn : t.inQueue i = false := by rw [n.inQueue]; exact moveTo_unqueued hq l h
  have e := settled s hn
  refine ⟨quietEvent_settle ((c.trans (calm_moveTo ..)).trans n.calm) ((l.trans (local_moveTo ..)).trans n.near) ?_ ?_,
    ?_, e.posted _ (n.calm.posted (moveTo_posted _ _ _)), fun k d => ?_, fun k => ?_, fun x hx => ?_⟩
  · rw [n.block, moveTo_opened, ho]
  · rw [n.bank, moveTo_bank_of v i hl hp, hb]
  · rw [e.slot, n.slot, moveTo_slot_self, c.timers]
  · rw [e.held, heldGroups_of_map n.map, moveTo_held v i k d, heldGroups_of_map hm]
  · rw [e.held, heldGroups_of_map n.map, moveTo_groupless v i k]
  · rw [e.listed x hx, n.block, moveTo_listed v i st x hx]

theorem Goes.state {r : Slot} (g : Goes i st r s u) : (u.slot i).state = st := by rw [g.record, moved_state]

theorem Goes.entered {r : Slot} (g : Goes i st r s u) : Entered st s.timers r (u.slot i) := by
  rw [g.record]; exact entered_moved ..

/-! ## A slot is barred -/

/-- The cause of a slot that is barred is written as it goes. -/
theorem moved_barred_cause (r : Slot) (c : Option FaultCause) (t : TimerSettings) :
    ({ r with cause := c } : Slot).moved .barred t = { r.moved .barred t with cause := c } := by
  unfold Slot.moved Slot.lanesFor Slot.plain Slot.vacated
  simp only [SlotState.laneMode, reduceCtorEq, if_false]
  split <;> rfl

/-- What an event in which slot `i` is barred from the record `r` leaves of it. -/
structure Bars (i : SlotId) (c : FaultCause) (r : Slot) (s u : State) : Prop where
  record  : u.slot i = ({ r with cause := some c } : Slot).moved .barred s.timers
  fault   : u.posted .fault i
  posted  : u.posted .state i
  freed   : u.heldGroups i = 0
  inQueue : u.inQueue i = false

theorem bar_zone (s : State) (i : SlotId) (c : FaultCause) (z : ZoneId) : (s.bar i c).zone z = (s.moveTo i .barred).zone z := by
  rw [State.bar, postSlot_zone, modSlot_zone]

theorem bar_block (s : State) (i : SlotId) (c : FaultCause) : (s.bar i c).block = (s.moveTo i .barred).block := rfl

theorem bar_bank (s : State) (i : SlotId) (c : FaultCause) : (s.bar i c).bank = s.bank :=
  moveTo_bank s i .barred (by decide) (by decide)

theorem bar_held (s : State) (i : SlotId) (c : FaultCause) : (s.bar i c).heldGroups i = 0 :=
  moveTo_groupless s i (st := .barred) rfl

theorem bar_unqueued (hq : s.QueueSound) (l : Local i s v) (c : FaultCause) : (v.bar i c).inQueue i = false := by
  have h := moveTo_unqueued hq l (st := .barred) (by decide)
  unfold State.inQueue at h ⊢
  rwa [show (v.bar i c).zone1 = (v.moveTo i .barred).zone1 from bar_zone v i c .one,
    show (v.bar i c).zone2 = (v.moveTo i .barred).zone2 from bar_zone v i c .two]

theorem bar_posted (s : State) (i : SlotId) (c : FaultCause) : (s.bar i c).posted .state i :=
  (calm_postSlot ..).posted ((calm_modSlot ..).posted (moveTo_posted _ _ _))

theorem bars_settle (hq : s.QueueSound) (c : Calm s v) (l : Local i s v) (f : FaultCause)
    (n : ∀ k, (v.bar i f).posted k i → t.posted k i) (hs : t.slot i = (v.bar i f).slot i)
    (hz : ∀ z, t.zone z = (v.bar i f).zone z) (hm : t.map = (v.bar i f).map) : Bars i f (v.slot i) s (s.settle t) := by
  have hn : t.inQueue i = false := by
    have h := bar_unqueued hq l f
    unfold State.inQueue at h ⊢
    rwa [show t.zone1 = (v.bar i f).zone1 from hz .one, show t.zone2 = (v.bar i f).zone2 from hz .two]
  have e := settled s hn
  refine ⟨?_, e.posted _ (n _ (posted_postSlot _ _ _)), e.posted _ (n _ (bar_posted _ _ _)), ?_, e.inQueue⟩
  · rw [e.slot, hs, bar_slot_self, moved_barred_cause (v.slot i) (some f), c.timers]
  · rw [e.held, heldGroups_of_map hm, bar_held]

end Sys2Proof.Machine
end

section
/-! # Requests that move a slot: O45, O47 and O48 -/

namespace Sys2Proof.Machine

variable {r : Request} {s : State} {m : ManagerId} {i : SlotId} {st : SlotState}

/-! ## A request on a slot whose reply carries the slot's state -/

/-- A request that takes slot `i` to a state is answered with that state's code. -/
theorem request_goes (h : Received r s) {b : Body} {c : Completion} {t : State} (hb : b s = (t, slotReply c i)) {x : Slot}
    (g : Goes i st x s (s.settle t)) : request r b s = .next ((s.settle t).replied r ⟨c, [byte st.code]⟩) := by
  rw [request_settled h hb, slotReply, g.state]

/-- A request that changes slot `i` but not its state is answered with it; the zones are kept. -/
theorem request_stays (h : Received r s) {b : Body} {c : Completion} {t : State} (hb : b s = (t, slotReply c i))
    (hz : ∀ z, t.zone z = s.zone z) (hs : (t.slot i).state = (s.slot i).state) :
    request r b s = .next (t.replied r ⟨c, [byte (s.slot i).state.code]⟩) := by
  rw [request_of_zones h hb hz, slotReply, hs]

/-- What a transition right after the sender has been given the steering leaves (R159). -/
theorem goes_steered (hq : s.QueueSound) (h : st ≠ .queued) (hl : st = .live → (s.slot i).state ≠ .joinObserve)
    (hp : st = .poweringDown → (s.slot i).state ≠ .leaveObserve) :
    Goes i st ((s.slot i).steeredBy m) s (s.settle ((s.giveSteering i m).moveTo i st)) := by
  have g := goes_settle hq (calm_giveSteering s i m) (local_giveSteering s i m) rfl rfl rfl h
    (by rwa [giveSteering_slot_self]) (by rwa [giveSteering_slot_self]) (noted_refl i _)
  rwa [giveSteering_slot_self] at g

/-- What the start of a drain leaves, in a state before it that ends no observation. -/
theorem goes_startDrain {v : State} (hq : s.QueueSound) (c : Calm s v) (l : Local i s v) (hb : v.bank = s.bank)
    (ho : v.block.opened = s.block.opened) (hm : v.map = s.map) (o : DrainOrigin) :
    Goes i .draining { v.slot i with origin := some o } s (s.settle (v.startDrain i (some o))) := by
  have g := goes_settle (v := v.modSlot i fun r => { r with origin := some o }) (st := .draining) hq
    (c.trans (calm_modSlot ..)) (l.trans (local_modSlot ..)) hb ho hm (by decide) nofun nofun
    (noted_noteCheckpoint _ i)
  rwa [modSlot_slot_self] at g

/-- A drain that starts awaits a manager (R13, R16). -/
theorem startDrain_posted (s : State) (i : SlotId) (o : Option DrainOrigin) : (s.startDrain i o).posted .checkpoint i := by
  intro n
  rw [State.startDrain, noteCheckpoint_hasSlotNotice]
  refine .inr ⟨rfl, rfl, ?_⟩
  unfold State.awaiting
  rw [moveTo_slot_self]
  simp

/-! ## Responses (R163) -/

theorem respond_moves {c : Byte} {cc : Completion} {permits : List SlotState} (h : Responds c r m i s)
    (hr : (s.slot i).state.respondable = true) (hp : (s.slot i).state ∈ permits) (f : SlotId → State → State) {x : Slot}
    (g : Goes i st x s (s.settle (f i (s.giveSteering i m)))) :
    responseCommand c r (respond c permits r (respondMove cc f)) s =
      .next ((s.settle (f i (s.giveSteering i m))).replied r ⟨cc, [byte st.code]⟩) := by
  rw [responseCommand_eq h.code]
  exact request_goes h.toReceived (respond_eq h _ hr hp) g

/-- A response that takes the slot to a state, and nothing more (R20, R23, R147, R148). -/
theorem respond_to {c : Byte} {cc : Completion} {permits : List SlotState} (h : Responds c r m i s) (hq : s.QueueSound)
    (hr : (s.slot i).state.respondable = true) (hp : (s.slot i).state ∈ permits) (h1 : st ≠ .queued)
    (h2 : st = .live → (s.slot i).state ≠ .joinObserve) (h3 : st = .poweringDown → (s.slot i).state ≠ .leaveObserve) :
    ∃ u : State, responseCommand c r (respond c permits r (respondMove cc fun i s => s.moveTo i st)) s =
      .next (u.replied r ⟨cc, [byte st.code]⟩) ∧ Goes i st ((s.slot i).steeredBy m) s u := by
  have g := goes_steered (m := m) hq h1 h2 h3
  exact ⟨_, respond_moves h hr hp _ g, g⟩

theorem reject_bars (h : Responds 3 r m i s) (hq : s.QueueSound) (hs : (s.slot i).state = .declared) :
    ∃ u : State, exec (.respReject r) s = .next (u.replied r ⟨.done, [17]⟩) ∧ QuietEvent i s u ∧
      Bars i .rejected ((s.slot i).steeredBy m) s u := by
  have b := bars_settle hq (calm_giveSteering s i m) (local_giveSteering s i m) .rejected (fun _ => id) rfl (fun _ => rfl) rfl
  rw [giveSteering_slot_self] at b
  have hb : rejectBody r s = ((s.giveSteering i m).bar i .rejected, slotReply .done i) := by
    rw [rejectBody, respond_eq h _ (by rw [hs]; rfl) (by rw [hs]; decide)]; rfl
  refine ⟨_, ?_, quietEvent_settle ((calm_giveSteering ..).trans (calm_bar ..)) ((local_giveSteering ..).trans (local_bar ..))
    ?_ (bar_bank ..), b⟩
  · rw [show exec (.respReject r) s = responseCommand 3 r (rejectBody r) s from rfl, responseCommand_eq h.code,
      request_settled h.toReceived hb, slotReply, b.record, moved_state]
    rfl
  · rw [bar_block, moveTo_opened]; rfl

theorem rollback_goes (h : Responds 4 r m i s) (hq : s.QueueSound)
    (hs : (s.slot i).state = .powered ∨ (s.slot i).state = .listen) :
    ∃ u : State, exec (.respRollback r) s = .next (u.replied r ⟨.accepted, [15]⟩) ∧ QuietEvent i s u ∧
      u.slot i = { ((s.slot i).steeredBy m).moved .poweringDown s.timers with target := .declared } ∧
      u.heldGroups i = 0 ∧ u.posted .state i := by
  have hb : rollbackBody r s = ((s.giveSteering i m).rollback i, slotReply .accepted i) := by
    rw [rollbackBody, respond_eq h _ (by rcases hs with hs | hs <;> rw [hs] <;> rfl)
      (by rcases hs with hs | hs <;> rw [hs] <;> decide)]; rfl
  have bank := moveTo_bank_of (st := .poweringDown) (s.giveSteering i m) i nofun
    (fun _ => by rw [giveSteering_slot_self]; rcases hs with hs | hs <;> exact hs ▸ (by decide))
  have hn : ((s.giveSteering i m).rollback i).inQueue i = false := by
    have k := moveTo_unqueued hq (local_giveSteering s i m) (st := .poweringDown) (by decide)
    exact k
  have e := settled s hn
  have slot : (s.settle ((s.giveSteering i m).rollback i)).slot i =
      { ((s.slot i).steeredBy m).moved .poweringDown s.timers with target := .declared } := by
    rw [e.slot, State.rollback, modSlot_slot_self, moveTo_slot_self, giveSteering_slot_self]; rfl
  refine ⟨_, ?_, quietEvent_settle (((calm_giveSteering ..).trans (calm_moveTo ..)).trans (calm_modSlot ..))
    (((local_giveSteering ..).trans (local_moveTo ..)).trans (local_modSlot ..)) ?_ bank, slot, ?_, e.posted _ ?_⟩
  · rw [show exec (.respRollback r) s = responseCommand 4 r (rollbackBody r) s from rfl, responseCommand_eq h.code,
      request_settled h.toReceived hb, slotReply, slot]
    rfl
  · exact moveTo_opened ..
  · refine (e.held i).trans ?_
    exact moveTo_groupless _ i (st := .poweringDown) rfl
  · exact (calm_modSlot ..).posted (moveTo_posted _ _ _)

theorem joinOrRetry_refused {c : Byte} {permits : List SlotState} (h : Responds c r m i s)
    (hr : (s.slot i).state.respondable = true) (hp : (s.slot i).state ∈ permits) (h0 : s.heldGroups i = 0) :
    responseCommand c r (respond c permits r joinOrRetry) s = .next (s.replied r ⟨.noGroups, []⟩) := by
  rw [responseCommand_eq h.code]
  exact request_refuse h.toReceived ((respond_eq h _ hr hp).trans (if_pos h0))

theorem joinOrRetry_goes {c : Byte} {permits : List SlotState} (h : Responds c r m i s) (hq : s.QueueSound)
    (hr : (s.slot i).state.respondable = true) (hp : (s.slot i).state ∈ permits) (h0 : s.heldGroups i ≠ 0) :
    ∃ u : State, responseCommand c r (respond c permits r joinOrRetry) s = .next (u.replied r ⟨.accepted, [8]⟩) ∧
      Goes i .joinWait ((s.slot i).steeredBy m) s u := by
  have g := goes_steered (m := m) (i := i) (st := .joinWait) hq (by decide) nofun nofun
  refine ⟨_, ?_, g⟩
  rw [responseCommand_eq h.code]
  exact request_goes h.toReceived ((respond_eq h _ hr hp).trans (if_neg h0)) g

theorem forceRetire_goes (h : Names r m i s) (hq : s.QueueSound) (hs : (s.slot i).state = .draining) :
    ∃ u : State, exec (.forceRetire r) s = .next (u.replied r ⟨.accepted, [13]⟩) ∧
      Goes i .leaveWait ((s.slot i).steeredBy m) s u := by
  have g := goes_steered (m := m) (i := i) (st := .leaveWait) hq (by decide) nofun nofun
  refine ⟨_, request_goes (b := forceRetireBody r) h.toReceived ?_ g, g⟩
  rw [forceRetireBody, fromActive_eq h.toFromActive, slotNumber_of h.slot]
  exact if_pos hs

/-- What a slot that waits for its join or its leave leaves (R20, R23, R147). -/
theorem Goes.joins {x : Slot} {u : State} (g : Goes i .joinWait x s u) : ⟨i, .join⟩ ∈ u.block.list :=
  (g.listed ⟨i, .join⟩ rfl).2 (.inl ⟨rfl, rfl⟩)

theorem Goes.leaves {x : Slot} {u : State} (g : Goes i .leaveWait x s u) : ⟨i, .leave⟩ ∈ u.block.list :=
  (g.listed ⟨i, .leave⟩ rfl).2 (.inr ⟨rfl, rfl⟩)

/-- Settles O45. -/
theorem responsesMoveSlot : Obligations.ResponsesMoveSlot := by
  intro r m i s hq
  refine ⟨fun h hs => ?_, fun h hs => ?_, fun c hc h hs => ?_, fun h hs => ?_, fun h hs => ?_, fun h hs => ?_,
    fun h hs => ?_⟩
  · obtain ⟨u, e, q, b⟩ := reject_bars h hq hs
    exact ⟨u, e, q, by rw [b.record]; exact entered_moved .., b.freed, b.fault, b.posted⟩
  · obtain ⟨u, e, q, k, hg, hp⟩ := rollback_goes h hq hs
    refine ⟨u, e, q, ?_, by rw [k], hg, hp⟩
    have target : ({ u.slot i with target := .released } : Slot) = ((s.slot i).steeredBy m).moved .poweringDown s.timers := by
      rw [k]
      have ht : (((s.slot i).steeredBy m).moved .poweringDown s.timers).target = .released := moved_target ..
      rw [← ht]
    rw [target]; exact entered_moved ..
  · rcases List.mem_pair.1 hc with rfl | rfl
    · refine ⟨joinOrRetry_refused h (by rw [hs]; rfl) (by rw [hs]; exact List.mem_singleton.2 rfl), fun h0 => ?_⟩
      obtain ⟨u, e, g⟩ := joinOrRetry_goes (permits := [.listen]) h hq (by rw [hs]; rfl)
        (by rw [hs]; exact List.mem_singleton.2 rfl) h0
      exact ⟨u, e, g.event, g.entered, g.held rfl (by decide), g.joins, g.posted⟩
    · refine ⟨joinOrRetry_refused h (by rw [hs]; rfl) (by rw [hs]; exact List.mem_singleton.2 rfl), fun h0 => ?_⟩
      obtain ⟨u, e, g⟩ := joinOrRetry_goes (permits := [.reverted]) h hq (by rw [hs]; rfl)
        (by rw [hs]; exact List.mem_singleton.2 rfl) h0
      exact ⟨u, e, g.event, g.entered, g.held rfl (by decide), g.joins, g.posted⟩
  · obtain ⟨u, e, g⟩ := respond_to (cc := .accepted) (permits := [.reverted]) (st := .poweringDown) h hq (by rw [hs]; rfl)
      (by rw [hs]; decide) (by decide) nofun (by rw [hs]; decide)
    exact ⟨u, e, g.event, g.entered, g.freed rfl, g.posted⟩
  · obtain ⟨u, e, g⟩ := respond_to (cc := .accepted) (permits := [.draining]) (st := .leaveWait) h hq (by rw [hs]; rfl)
      (by rw [hs]; decide) (by decide) nofun nofun
    exact ⟨u, e, g.event, g.entered, g.leaves, g.held rfl (by decide), g.posted⟩
  · obtain ⟨u, e, g⟩ := respond_to (cc := .done) (permits := [.draining]) (st := .live) h hq (by rw [hs]; rfl)
      (by rw [hs]; decide) (by decide) (by rw [hs]; decide) nofun
    exact ⟨u, e, g.event, g.entered, g.held rfl (by decide), g.posted⟩
  · obtain ⟨u, e, g⟩ := forceRetire_goes h hq hs
    exact ⟨u, e, g.event, g.entered, g.leaves, g.held rfl (by decide), g.posted⟩

/-! ## A retirement that is recorded or found under way -/

/-- What a request leaves that changes slot `i` to the record `x` with the groups, zones and window kept. -/
structure Stays (i : SlotId) (x : Slot) (s u : State) : Prop where
  event  : QuietEvent i s u
  record : u.slot i = x
  map    : u.map = s.map
  block  : u.block = s.block

theorem stays_refl (s : State) (i : SlotId) : Stays i (s.slot i) s s :=
  ⟨quietEvent_of_zones (.refl s) (.refl i s) rfl rfl fun _ => rfl, rfl, rfl, rfl⟩

theorem stays_modSlot (s : State) (i : SlotId) (f : Slot → Slot) : Stays i (f (s.slot i)) s (s.modSlot i f) :=
  ⟨quietEvent_of_zones (calm_modSlot ..) (local_modSlot ..) rfl rfl fun _ => modSlot_zone .., modSlot_slot_self .., rfl, rfl⟩

theorem stays_steered_modSlot (s : State) (i : SlotId) (m : ManagerId) (f : Slot → Slot) :
    Stays i (f ((s.slot i).steeredBy m)) s ((s.giveSteering i m).modSlot i f) :=
  ⟨quietEvent_of_zones ((calm_giveSteering ..).trans (calm_modSlot ..)) ((local_giveSteering ..).trans (local_modSlot ..)) rfl
    rfl fun z => by rw [modSlot_zone]; exact modSlot_zone .., by rw [modSlot_slot_self, giveSteering_slot_self], rfl, rfl⟩

/-- A slot whose retirement waits for the end of its observation (R6). -/
def Slot.retiring (o : DrainOrigin) (r : Slot) : Slot := { r with retirePending := true, origin := some o }

theorem setRetirePending_kept (s : State) (i : SlotId) (o : DrainOrigin) (h : (s.slot i).retirePending = true) :
    s.setRetirePending i o = s := if_pos h

theorem setRetirePending_set (s : State) (i : SlotId) (o : DrainOrigin) (h : (s.slot i).retirePending = false) :
    s.setRetirePending i o = s.modSlot i (Slot.retiring o) := if_neg (by simp [h])

/-! ## RETIRE (R144) -/

theorem retireBody_eq (h : ToSlot r m i s) : retireBody r s = retireSlot m i s := onSlot_eq h _

theorem retire_refused (h : ToSlot r m i s) (hb : retireSlot m i s = refuse .wrongState s) :
    exec (.retire r) s = .next (s.replied r ⟨.wrongState, []⟩) :=
  request_refuse (b := retireBody r) h.toReceived ((retireBody_eq h).trans hb)

theorem retire_goes (h : ToSlot r m i s) {c : Completion} {t : State} {x : Slot}
    (hb : retireSlot m i s = (t, slotReply c i)) (g : Goes i st x s (s.settle t)) :
    ∃ u : State, exec (.retire r) s = .next (u.replied r ⟨c, [byte st.code]⟩) ∧ QuietEvent i s u ∧
      Entered st s.timers x (u.slot i) ∧ u.posted .state i ∧ (st.groupless = true → u.heldGroups i = 0) :=
  ⟨_, request_goes (b := retireBody r) h.toReceived ((retireBody_eq h).trans hb) g, g.event, g.entered, g.posted, g.freed⟩

theorem retire_to (h : ToSlot r m i s) (hq : s.QueueSound) {c : Completion}
    (hb : retireSlot m i s = ((s.giveSteering i m).moveTo i st, slotReply c i)) (h1 : st ≠ .queued) (h2 : st ≠ .live)
    (h3 : (s.slot i).state ≠ .leaveObserve) :
    ∃ u : State, exec (.retire r) s = .next (u.replied r ⟨c, [byte st.code]⟩) ∧ QuietEvent i s u ∧
      Entered st s.timers ((s.slot i).steeredBy m) (u.slot i) ∧ u.posted .state i ∧
      (st.groupless = true → u.heldGroups i = 0) :=
  retire_goes h hb (goes_steered hq h1 (fun k => absurd k h2) fun _ => h3)

theorem retire_drains (h : ToSlot r m i s) (hq : s.QueueSound)
    (hb : retireSlot m i s = ((s.giveSteering i m).startDrain i (some .manager), slotReply .accepted i)) :
    ∃ u : State, exec (.retire r) s = .next (u.replied r ⟨.accepted, [byte SlotState.draining.code]⟩) ∧ QuietEvent i s u ∧
      Entered .draining s.timers { (s.slot i).steeredBy m with origin := some .manager } (u.slot i) ∧ u.posted .state i ∧
      (SlotState.draining.groupless = true → u.heldGroups i = 0) := by
  have g := goes_startDrain hq (calm_giveSteering s i m) (local_giveSteering s i m) rfl rfl rfl .manager
  rw [giveSteering_slot_self] at g
  exact retire_goes h hb g

theorem retire_stays (h : ToSlot r m i s) {c : Completion} {t : State} {x : Slot}
    (hb : retireSlot m i s = (t, slotReply c i)) (y : Stays i x s t)
    (hz : ∀ z, t.zone z = s.zone z) (hx : x.state = (s.slot i).state) :
    ∃ u : State, exec (.retire r) s = .next (u.replied r ⟨c, [byte (s.slot i).state.code]⟩) ∧ QuietEvent i s u ∧
      u.slot i = x ∧ u.map = s.map ∧ u.block = s.block :=
  ⟨t, request_stays (b := retireBody r) h.toReceived ((retireBody_eq h).trans hb) hz (by rw [y.record, hx]), y.event,
    y.record, y.map, y.block⟩

theorem giveSteering_zone (s : State) (i : SlotId) (m : ManagerId) (z : ZoneId) : (s.giveSteering i m).zone z = s.zone z :=
  modSlot_zone ..

theorem stays_giveSteering (s : State) (i : SlotId) (m : ManagerId) :
    Stays i ((s.slot i).steeredBy m) s (s.giveSteering i m) := stays_modSlot s i _

theorem steered_modSlot_zone (s : State) (i : SlotId) (m : ManagerId) (f : Slot → Slot) (z : ZoneId) :
    ((s.giveSteering i m).modSlot i f).zone z = s.zone z := by rw [modSlot_zone, giveSteering_zone]

/-- Settles O47, by the state of the slot. -/
theorem retireActsByState : Obligations.RetireActsByState := by
  intro r m i s h hq v w moves stays
  cases hs : (s.slot i).state with
  | present | declared | queued =>
    exact retire_to h hq (by simp only [retireSlot, hs]) (by decide) (by decide) (by rw [hs]; decide)
  | precharge | powered | listen | joinWait | reverted =>
    exact retire_to h hq (by simp only [retireSlot, hs]) (by decide) (by decide) (by rw [hs]; decide)
  | draining | leaveWait | leaveObserve =>
    exact retire_stays h (by simp only [retireSlot, hs]; rfl) (stays_giveSteering ..) (giveSteering_zone s i m) rfl
  | poweringDown =>
    exact retire_stays h (by simp only [retireSlot, hs]) (stays_steered_modSlot s i m fun r => { r with target := .released })
      (steered_modSlot_zone s i m _) rfl
  | empty | seating | released | barred =>
    exact retire_refused h (by simp only [retireSlot, hs])
  | orphaned =>
    by_cases hj : (s.slot i).lane.commanded = .joined
    · refine (if_pos hj).mpr ?_
      exact retire_drains h hq (by simp only [retireSlot, hs, retireOrphan, hj, if_true])
    · refine (if_neg hj).mpr ?_
      exact retire_to h hq (by simp only [retireSlot, hs, retireOrphan, if_neg hj]) (by decide) (by decide)
        (by rw [hs]; decide)
  | joinObserve =>
    cases hu : (s.slot i).undoWait with
    | true =>
      exact retire_refused h (by simp only [retireSlot, hs, retireJoining, hu, if_true])
    | false =>
      have eb : retireSlot m i s = retireLater i (s.giveSteering i m) := by
        simp only [retireSlot, hs, retireJoining, hu, Bool.false_eq_true, if_false]
      have hr : ((s.giveSteering i m).slot i).retirePending = (s.slot i).retirePending := by rw [giveSteering_slot_self]; rfl
      rw [retireLater, hr] at eb
      cases hp : (s.slot i).retirePending with
      | true =>
        rw [hp, setRetirePending_kept _ _ _ (hr.trans hp)] at eb
        exact retire_stays h eb (stays_giveSteering ..) (giveSteering_zone s i m) rfl
      | false =>
        rw [hp, setRetirePending_set _ _ _ (hr.trans hp)] at eb
        exact retire_stays h eb (stays_steered_modSlot s i m (Slot.retiring .manager)) (steered_modSlot_zone s i m _) rfl
  | live =>
    cases hu : (s.slot i).undoWait with
    | true =>
      exact retire_refused h (by simp only [retireSlot, hs, retireLive, hu, if_true])
    | false =>
      cases hw : s.holdsWindow i with
      | false => exact retire_drains h hq (by
          simp only [retireSlot, hs, retireLive, hu, hw, Bool.false_eq_true, if_false])
      | true =>
        have eb : retireSlot m i s = retireLater i s := by
          simp only [retireSlot, hs, retireLive, hu, hw, Bool.false_eq_true, if_false, if_true]
        rw [retireLater] at eb
        cases hp : (s.slot i).retirePending with
        | true =>
          rw [hp, setRetirePending_kept _ _ _ hp] at eb
          exact retire_stays h eb (stays_refl s i) (fun _ => rfl) rfl
        | false =>
          rw [hp, setRetirePending_set _ _ _ hp] at eb
          have e : (s.slot i).retiring .manager = { (s.slot i).retiring .manager with state := .live } := by rw [← hs]; rfl
          exact e ▸ retire_stays h eb (stays_modSlot s i _) (fun _ => modSlot_zone ..) rfl

/-! ## RETIRE_SELF (R143) and UNBAR (R26) -/

theorem retireSelf_refused (h : FromBlade r i s) (hb : retireSelfSlot i s = refuse .wrongState s) :
    exec (.retireSelf r) s = .next (s.replied r ⟨.wrongState, []⟩) :=
  request_refuse (b := retireSelfBody r) h.toReceived ((fromBlade_eq h _).trans hb)

theorem retireSelf_stays (h : FromBlade r i s) {c : Completion} {t : State} {x : Slot}
    (hb : retireSelfSlot i s = (t, slotReply c i)) (y : Stays i x s t)
    (hz : ∀ z, t.zone z = s.zone z) (hx : x.state = (s.slot i).state) :
    ∃ u : State, exec (.retireSelf r) s = .next (u.replied r ⟨c, [byte (s.slot i).state.code]⟩) ∧ QuietEvent i s u ∧
      u.slot i = x ∧ u.map = s.map ∧ u.block = s.block :=
  ⟨t, request_stays (b := retireSelfBody r) h.toReceived ((fromBlade_eq h _).trans hb) hz (by rw [y.record, hx]),
    y.event, y.record, y.map, y.block⟩

/-- A slot that holds the change window keeps the retirement of its own blade pending (R6). -/
theorem retireSelf_later (h : FromBlade r i s)
    (hb : retireSelfSlot i s = (s.setRetirePending i .blade,
      slotReply (if (s.slot i).retirePending then .done else .accepted) i)) :
    let stays : Slot → Completion → Prop := fun new c =>
      ∃ u : State, exec (.retireSelf r) s = .next (u.replied r ⟨c, [byte (s.slot i).state.code]⟩) ∧ QuietEvent i s u ∧
        u.slot i = new ∧ u.map = s.map ∧ u.block = s.block
    if (s.slot i).retirePending then stays (s.slot i) .done
    else stays ((s.slot i).retiring .blade) .accepted := by
  cases hp : (s.slot i).retirePending with
  | true =>
    rw [hp, setRetirePending_kept _ _ _ hp] at hb
    exact retireSelf_stays h hb (stays_refl s i) (fun _ => rfl) rfl
  | false =>
    rw [hp, setRetirePending_set _ _ _ hp] at hb
    exact retireSelf_stays h hb (stays_modSlot s i _) (fun _ => modSlot_zone ..) rfl

theorem retireSelf_drains (h : FromBlade r i s) (hq : s.QueueSound)
    (hb : retireSelfSlot i s = (s.startDrain i (some .blade), slotReply .accepted i)) :
    ∃ u : State, exec (.retireSelf r) s = .next (u.replied r ⟨.accepted, [12]⟩) ∧ QuietEvent i s u ∧
      Entered .draining s.timers { s.slot i with origin := some .blade } (u.slot i) ∧ u.posted .state i ∧
      u.posted .checkpoint i := by
  have g := goes_startDrain hq (.refl s) (.refl i s) rfl rfl rfl .blade
  exact ⟨_, request_goes (b := retireSelfBody r) h.toReceived ((fromBlade_eq h _).trans hb) g, g.event, g.entered, g.posted,
    settle_posted s (startDrain_posted s i _)⟩

/-- The record of a slot that is no longer barred, before it goes on. -/
def Slot.unbarred (r : Slot) : Slot := { r with decl := none, oversize := false, clamped := false, attempts := 0 }

theorem unbar_goes (h : ToSlot r m i s) (hq : s.QueueSound) (hs : (s.slot i).state = .barred) :
    let st : SlotState := if (s.slot i).handleClosed then .present else .released
    ∃ u : State, exec (.unbar r) s = .next (u.replied r ⟨.done, [byte st.code]⟩) ∧ Goes i st (s.slot i).unbarred s u := by
  intro st
  have hb : unbarBody r s = ((s.modSlot i Slot.unbarred).moveTo i st, slotReply .done i) := by
    rw [unbarBody, onSlot_eq h, if_pos hs]
    have e : s.unbar i = if (s.slot i).handleClosed then (s.modSlot i Slot.unbarred).moveTo i .present
        else (s.modSlot i Slot.unbarred).moveTo i .released := by
      have hc : ((s.modSlot i Slot.unbarred).slot i).handleClosed = (s.slot i).handleClosed := by
        rw [modSlot_slot_self]; rfl
      rw [← hc]; rfl
    rw [e]
    unfold st
    cases (s.slot i).handleClosed <;> rfl
  have hst : st ≠ .queued ∧ st ≠ .live ∧ st ≠ .poweringDown := by
    unfold st
    cases (s.slot i).handleClosed <;> exact ⟨by decide, by decide, by decide⟩
  have g := goes_settle hq (calm_modSlot s i Slot.unbarred) (local_modSlot s i Slot.unbarred) rfl rfl rfl hst.1
    (fun k => absurd k hst.2.1) (fun k => absurd k hst.2.2) (noted_refl i _)
  rw [modSlot_slot_self] at g
  exact ⟨_, request_goes (b := unbarBody r) h.toReceived hb g, g⟩

/-- Settles O48, by the state of the slot. -/
theorem retireSelfAndUnbar : Obligations.RetireSelfAndUnbar := by
  intro r i s hq v
  refine ⟨fun h => ?_, fun m h => ⟨fun hs => ?_, fun hs => ?_⟩⟩
  · intro stays refused
    cases hs : (s.slot i).state with
    | live =>
      have e (x : Slot) (hx : x.state = (s.slot i).state) : x = { x with state := .live } := by rw [← hs, ← hx]
      cases hu : (s.slot i).undoWait with
      | true => exact retireSelf_refused h (by simp only [retireSelfSlot, hs, retireSelfLater, hu, true_or, if_true])
      | false =>
        cases hw : s.holdsWindow i with
        | true =>
          exact e ((s.slot i).retiring .blade) rfl ▸ retireSelf_later h (by
            simp only [retireSelfSlot, hs, retireSelfLater, hu, hw, or_true, Bool.false_eq_true, if_true, if_false])
        | false =>
          exact e { s.slot i with origin := some .blade } rfl ▸ retireSelf_drains h hq (by
            simp only [retireSelfSlot, hs, hu, hw, Bool.false_eq_true, or_self, if_false])
    | joinObserve =>
      have e (x : Slot) (hx : x.state = (s.slot i).state) : x = { x with state := .joinObserve } := by rw [← hs, ← hx]
      cases hu : (s.slot i).undoWait with
      | true => exact retireSelf_refused h (by simp only [retireSelfSlot, hs, retireSelfLater, hu, if_true])
      | false =>
        exact e ((s.slot i).retiring .blade) rfl ▸ retireSelf_later h (by
          simp only [retireSelfSlot, hs, retireSelfLater, hu, Bool.false_eq_true, if_false])
    | draining | leaveWait | leaveObserve | poweringDown =>
      exact retireSelf_stays h (by simp only [retireSelfSlot, hs]) (stays_refl s i) (fun _ => rfl) rfl
    | empty | seating | present | declared | queued | precharge | powered | listen | joinWait | reverted | released | barred
    | orphaned =>
      exact retireSelf_refused h (by simp only [retireSelfSlot, hs])
  · exact request_refuse (b := unbarBody r) h.toReceived (by rw [unbarBody, onSlot_eq h, if_neg hs])
  · obtain ⟨u, e, g⟩ := unbar_goes h hq hs
    exact ⟨u, e, g.event, g.entered, g.posted⟩

end Sys2Proof.Machine
end

section
/-! # The sample report: its handle changes in the history (R36), a loss of PG (R34), a rise of presence (R38) -/

namespace Sys2Proof.Machine

variable {s t u : State} {i j : SlotId}

/-! ## The fifth step of a report that completes no precharge -/

theorem completes_of_state (h : (s.slot i).state ≠ .precharge) : s.completes i = false := by
  unfold State.completes
  split
  · simp [h]
  · rfl

theorem reportPg_eq (h : s.completes i = false) (lost : Bool) : s.reportPg i lost =
    if (s.slot i).state.isPowered = true ∧ (s.slot i).state ≠ .precharge ∧ lost = true then s.postSlot .fault i else s := by
  unfold State.reportPg
  dsimp only
  rw [h, if_neg (by decide)]

theorem reportPg_noted (h : s.completes i = false) (lost : Bool) : Noted i s (s.reportPg i lost) := by
  rw [reportPg_eq h]
  split
  · exact noted_postSlot ..
  · exact noted_refl ..

/-! ## What the handing on of the levels leaves -/

theorem enterHandles_rest (s : State) (i : SlotId) (moves : List Bool) : (s.enterHandles i moves).block = s.block ∧
    (s.enterHandles i moves).bank = s.bank ∧ (s.enterHandles i moves).map = s.map ∧
    ∀ z, (s.enterHandles i moves).zone z = s.zone z := by
  induction moves generalizing s with
  | nil => exact ⟨rfl, rfl, rfl, fun _ => rfl⟩
  | cons c l ih =>
    obtain ⟨hb, hn, hm, hz⟩ := ih ((s.modSlot i (Slot.enterHandle c)).postSlot .handle i)
    exact ⟨hb, hn, hm, fun z => (hz z).trans ((postSlot_zone ..).trans (modSlot_zone ..))⟩

theorem handedOn_rest (s : State) (i : SlotId) (p : LineReport) : (s.handedOn i p).block = s.block ∧
    (s.handedOn i p).bank = s.bank ∧ (s.handedOn i p).map = s.map ∧ ∀ z, (s.handedOn i p).zone z = s.zone z := by
  obtain ⟨hb, hn, hm, hz⟩ := enterHandles_rest (s.modSlot i fun v => { v with lines := v.lines.take p }) i
    (p.handleMoves (s.slot i).lines.handed.handleClosed)
  exact ⟨hb, hn, hm, fun z => (hz z).trans (modSlot_zone ..)⟩

theorem handedOn_state (s : State) (i : SlotId) (p : LineReport) : ((s.handedOn i p).slot i).state = (s.slot i).state := by
  rw [handedOn_slot, reportedBy_state]

theorem takeReport_eq (s : State) (i : SlotId) : s.takeReport i =
    (s.reportLines i (s.slot i).lines.report).reportPg i
      ((s.slot i).lines.report.losesPg (s.slot i).lines.handed.pg) := rfl

/-! ## A report with nothing but PG in it (R34) -/

/-- The handle changes of a report whose levels at the end of the survey, if it brings any, are those last handed on. -/
theorem handleMoves_same {p : LineReport} {was : Bool} (h : ∀ e, p.surveyEnd = some e → e.handleClosed = was) :
    p.handleMoves was = if p.levels.handleClosed = was then [] else [p.levels.handleClosed] := by
  cases he : p.surveyEnd with
  | none => exact handleMoves_of he was
  | some e => unfold LineReport.handleMoves; simp [he, h e he]

theorem reportLines_still {p : LineReport} (hp : p.levels.presence = (s.slot i).lines.handed.presence) (hc : p.oc = false)
    (hm : p.handleMoves (s.slot i).lines.handed.handleClosed = []) : s.reportLines i p = s.handedOn i p := by
  rw [reportLines_eq]
  dsimp only
  rw [hp, if_neg (lt_irrefl _), if_neg (lt_irrefl _), if_neg (by simp [hc]), State.handedOn, hm]
  rfl

theorem handedOn_still {p : LineReport} (h : p.handleMoves (s.slot i).lines.handed.handleClosed = []) :
    s.handedOn i p = s.modSlot i fun v => { v with lines := v.lines.take p } := by
  rw [State.handedOn, h]
  rfl

theorem losesPg_some {p : LineReport} {e : Levels} (h : p.surveyEnd = some e) (was : Bool) : p.losesPg was = true ↔
    (was = true ∧ e.pg = false) ∨ (e.pg = true ∧ p.levels.pg = false) := by
  unfold LineReport.losesPg
  simp [h]

/-- Settles O18. -/
theorem pgLossPostsFault : Obligations.PgLossPostsFault := by
  intro s i r was now hd hp hc hh he hw hs
  have hm : r.lines.report.handleMoves r.lines.handed.handleClosed = [] := by
    exact (handleMoves_same he).trans (if_pos hh)
  have hl : s.reportLines i r.lines.report = s.handedOn i r.lines.report := reportLines_still hp hc hm
  have hst : ((s.handedOn i r.lines.report).slot i).state = r.state := handedOn_state ..
  have hn := completes_of_state (s := s.handedOn i r.lines.report) (hst ▸ hs)
  have n := reportPg_noted hn (r.lines.report.losesPg r.lines.handed.pg)
  obtain ⟨hb, hk, hmap, hz⟩ := handedOn_rest s i r.lines.report
  have ht : s.takeReport i = (s.handedOn i r.lines.report).reportPg i (r.lines.report.losesPg r.lines.handed.pg) := by
    rw [takeReport_eq, hl]
  have hzt : ∀ z, (s.takeReport i).zone z = s.zone z := fun z => by rw [ht, n.zone, hz]
  have hfault : ∀ m, (s.takeReport i).hasSlotNotice m .fault i ↔
      s.hasSlotNotice m .fault i ∨ r.lines.report.losesPg r.lines.handed.pg = true := by
    intro m
    have h0 : (s.handedOn i r.lines.report).hasSlotNotice m .fault i ↔ s.hasSlotNotice m .fault i := by
      rw [handedOn_still hm]
      exact hasSlotNotice_congr (modSlot_manager _ _ _) ..
    rw [ht, reportPg_eq hn, hst, ← h0]
    split
    · next h => rw [postSlot_hasSlotNotice]; simp [h.2.2]
    · next h => simp [show r.lines.report.losesPg r.lines.handed.pg = false by simpa [hw, hs] using h]
  refine ⟨s.takeReport i, ?_, ?_, ?_, hzt, ?_, ?_, fun h m => ?_, fun e h m => ?_⟩
  · rw [exec_sampleReport hd, settle_of_zones (hzt .one) (hzt .two)]
  · exact quietEvent_of_zones (takeReport_frame s i).2 (takeReport_frame s i).1 (by rw [ht, n.block, hb])
      (by rw [ht, n.bank, hk]) hzt
  · rw [ht, n.slot, handedOn_slot]; rfl
  · rw [ht, n.map, hmap]
  · rw [ht, n.block, hb]
  · rw [hfault, losesPg_of (show r.lines.report.surveyEnd = none from h)]
    simp [was, now, SlotLines.report]
  · rw [hfault, losesPg_some (show r.lines.report.surveyEnd = some e from h)]
    rfl

/-! ## A rise of presence (R38) -/

theorem reportLines_gain {p : LineReport} (h : (s.slot i).lines.handed.presence.rank < p.levels.presence.rank) :
    s.reportLines i p = (s.handedOn i p).presenceGained i := by
  rw [reportLines_eq]
  exact if_pos h

theorem presenceGained_empty (h : (s.slot i).state = .empty) : s.presenceGained i =
    if (s.slot i).lines.handed.presence = .full ∧ (s.slot i).lines.handed.handleClosed = true
    then (s.moveTo i .seating).moveTo i .present else s.moveTo i .seating := by
  unfold State.presenceGained
  simp only [h]

theorem presenceGained_seating (h : (s.slot i).state = .seating) : s.presenceGained i =
    if (s.slot i).lines.handed.presence = .full ∧ (s.slot i).lines.handed.handleClosed = true
    then s.moveTo i .present else s := by
  unfold State.presenceGained
  simp only [h]

theorem presenceGained_other (he : (s.slot i).state ≠ .empty) (hs : (s.slot i).state ≠ .seating) : s.presenceGained i = s := by
  unfold State.presenceGained
  dsimp only
  split
  · next h => exact absurd h he
  · next h => exact absurd h hs
  · rfl

/-- A rise of presence moves a slot at most to SEATING and PRESENT. -/
theorem presenceGained_rest (s : State) (i : SlotId) : (s.presenceGained i).block.opened = s.block.opened ∧
    (s.presenceGained i).bank = s.bank ∧
    ((s.slot i).state ≠ .precharge → ((s.presenceGained i).slot i).state ≠ .precharge) := by
  have move : ∀ (v : State) (st : SlotState), st ≠ .live → st ≠ .poweringDown → st ≠ .precharge →
      (v.moveTo i st).block.opened = v.block.opened ∧ (v.moveTo i st).bank = v.bank ∧
      ((v.moveTo i st).slot i).state ≠ .precharge := fun v st h1 h2 h3 =>
    ⟨moveTo_opened .., moveTo_bank v i st h1 h2, by rw [moveTo_slot_self, moved_state]; exact h3⟩
  have h1 := move s .seating (by decide) (by decide) (by decide)
  have h2 := move s .present (by decide) (by decide) (by decide)
  have h3 := move (s.moveTo i .seating) .present (by decide) (by decide) (by decide)
  by_cases he : (s.slot i).state = .empty
  · rw [presenceGained_empty he]
    split
    · exact ⟨h3.1.trans h1.1, h3.2.1.trans h1.2.1, fun _ => h3.2.2⟩
    · exact ⟨h1.1, h1.2.1, fun _ => h1.2.2⟩
  · by_cases hs : (s.slot i).state = .seating
    · rw [presenceGained_seating hs]
      split
      · exact ⟨h2.1, h2.2.1, fun _ => h2.2.2⟩
      · exact ⟨rfl, rfl, id⟩
    · rw [presenceGained_other he hs]
      exact ⟨rfl, rfl, id⟩

/-- A report that leaves the zones as they are, and completes no precharge, is taken with no examination. -/
theorem takeReport_settled {v : State} (hl : s.reportLines i (s.slot i).lines.report = v) (hc : v.completes i = false)
    (hz : ∀ z, v.zone z = s.zone z) (j : SlotId) : (s.settle (s.takeReport i)).slot j = v.slot j := by
  have n := reportPg_noted hc ((s.slot i).lines.report.losesPg (s.slot i).lines.handed.pg)
  have ht : ∀ z, (s.takeReport i).zone z = s.zone z := fun z => by rw [takeReport_eq, hl, n.zone, hz]
  rw [settle_of_zones (ht .one) (ht .two), takeReport_eq, hl, n.slot]

/-- A report whose slot goes to a state other than QUEUED and PRECHARGE is taken with nothing of the slot in its event's
end. -/
theorem takeReport_moved {v : State} {st : SlotState} (hq : s.QueueSound) (l : Local i s v)
    (hl : s.reportLines i (s.slot i).lines.report = v.moveTo i st) (h1 : st ≠ .queued) (h2 : st ≠ .precharge) :
    (s.settle (s.takeReport i)).slot i = (v.moveTo i st).slot i ∧ (s.settle (s.takeReport i)).posted .state i ∧
      (s.settle (s.takeReport i)).heldGroups i = (v.moveTo i st).heldGroups i := by
  have hc : (v.moveTo i st).completes i = false :=
    completes_of_state (by rw [moveTo_slot_self, moved_state]; exact h2)
  have n := reportPg_noted hc ((s.slot i).lines.report.losesPg (s.slot i).lines.handed.pg)
  rw [← hl, ← takeReport_eq, hl] at n
  have e := settled (v := s.takeReport i) s (by rw [n.inQueue]; exact moveTo_unqueued hq l h1)
  exact ⟨by rw [e.slot, n.slot], e.posted _ (n.calm.posted (moveTo_posted _ _ _)),
    by rw [e.held, heldGroups_of_map n.map]⟩

/-- Settles O15, by the state that the report finds the slot in. -/
theorem presenceGainSeatsSlot : Obligations.PresenceGainSeatsSlot := by
  intro s i r now hq hd hr hs
  have hl := reportLines_gain (s := s) (i := i) (p := r.lines.report) hr
  have hv : (s.handedOn i r.lines.report).slot i = r.reported := handedOn_slot ..
  have l := (handedOn_frame s i r.lines.report).1
  have c := (handedOn_frame s i r.lines.report).2
  obtain ⟨hb, hk, -, hz⟩ := handedOn_rest s i r.lines.report
  generalize s.handedOn i r.lines.report = v at hl hv l c hb hk hz
  obtain ⟨ho, hbank, hp⟩ := presenceGained_rest v i
  have hc : (v.presenceGained i).completes i = false := completes_of_state (hp (by rw [hv]; exact hs))
  have n := reportPg_noted hc (r.lines.report.losesPg r.lines.handed.pg)
  rw [← hl, ← takeReport_eq] at n
  have hst : (v.slot i).state = r.state := by rw [hv]; rfl
  have hnow : (v.slot i).lines.handed = now := by rw [hv]; rfl
  refine ⟨_, exec_sampleReport hd, quietEvent_settle (takeReport_frame s i).2 (takeReport_frame s i).1 ?_ ?_,
    fun he hf hh => ?_, fun he hn => ?_, fun he hf hh => ?_, fun he hn => ?_, fun he hn => ?_⟩
  · rw [n.block, hl, ho, hb]
  · rw [n.bank, hl, hbank, hk]
  · rw [presenceGained_empty (hst.trans he), hnow, if_pos ⟨hf, hh⟩] at hl
    obtain ⟨e, p, -⟩ := takeReport_moved hq (l.trans (local_moveTo ..)) hl (by decide) (by decide)
    rw [e, moveTo_slot_self, moveTo_slot_self, (calm_moveTo ..).timers, c.timers]
    refine ⟨moved_state .., moved_mgmtPower .., moved_declareTimer .., ?_, ?_, ?_, ?_, p⟩ <;> simp [SlotState.unsteered]
  · rw [presenceGained_empty (hst.trans he), hnow, if_neg (by simpa [imp_iff_not_or] using hn)] at hl
    obtain ⟨e, p, -⟩ := takeReport_moved hq l hl (by decide) (by decide)
    refine ⟨?_, p⟩
    rw [e, moveTo_slot_self, hv, c.timers]
    exact entered_moved ..
  · rw [presenceGained_seating (hst.trans he), hnow, if_pos ⟨hf, hh⟩] at hl
    obtain ⟨e, p, -⟩ := takeReport_moved hq l hl (by decide) (by decide)
    refine ⟨?_, p⟩
    rw [e, moveTo_slot_self, hv, c.timers]
    exact entered_moved ..
  · rw [presenceGained_seating (hst.trans he), hnow, if_neg (by simpa [imp_iff_not_or] using hn)] at hl
    rw [takeReport_settled hl (completes_of_state (by rw [hst]; exact hs)) hz, hv]
  · rw [presenceGained_other (by rwa [hst]) (by rwa [hst])] at hl
    rw [takeReport_settled hl (completes_of_state (by rw [hst]; exact hs)) hz, hv]

end Sys2Proof.Machine
end

section
/-! # What the slot's other operations leave of its report and its handle history (R36) -/

namespace Sys2Proof.Machine

variable {s t u : State} {i j : SlotId}

/-! ## The notices of a transition -/

theorem switchLanes_manager (s : State) (i : SlotId) (m : LaneMode) (g : GroupSet) (k : SwitchKind) (b : Bool)
    (w : ManagerId) : (s.switchLanes i m g k b).manager w = s.manager w := modSlot_manager ..

theorem cleared_manager (s : State) (i : SlotId) (st : SlotState) (m : ManagerId) :
    (s.cleared i st).manager m = s.manager m := by
  have discard (v : State) : (v.discardRegroup i).manager m = v.manager m := by
    unfold State.discardRegroup
    split <;> simp
  have vacate : (s.vacate i st).manager m = s.manager m := by
    have leave : (((s.leaveQueue i).freeChannel i).dropChange i).manager m = s.manager m := by
      simp only [State.leaveQueue, State.freeChannel, State.dropChange, modBlock_manager, modZone_manager]
    unfold State.vacate
    dsimp only
    split
    · rw [discard, leave]
    · exact leave
  have lanes (v : State) : (v.lanesFor i st).manager m = v.manager m := by
    unfold State.lanesFor State.plainLanes
    split
    · split
      · rfl
      · exact switchLanes_manager ..
    · rfl
  have power (v : State) : (v.powerFor i st).manager m = v.manager m := by
    unfold State.powerFor State.setReservation
    split <;> simp
  have groups (v : State) : (v.groupsFor i st).manager m = v.manager m := by
    unfold State.groupsFor State.freeGroups
    split <;> simp
  rw [State.cleared, groups, power, lanes, vacate]

/-- A transition changes nothing of a manager's record but that the slot's STATE notice is entered. -/
theorem moveTo_manager (s : State) (i : SlotId) (st : SlotState) (m : ManagerId) :
    (s.moveTo i st).manager m = { s.manager m with slotNotices := (s.manager m).slotNotices.add .state i } := by
  have take (v : State) : (v.takePlace i st).manager m = v.manager m := by
    unfold State.takePlace State.joinQueue State.addChange
    split <;> simp
  have count (v : State) (a : SlotState) : (v.countMove a st).manager m = v.manager m := by
    unfold State.countMove
    split
    · exact count_manager ..
    · split
      · exact count_manager ..
      · rfl
  show ((((s.cleared i st).modSlot i _).postSlot .state i).countMove _ _ |>.takePlace i st).manager m = _
  rw [take, count, postSlot_manager, modSlot_manager, cleared_manager]

theorem moveTo_hasSlotNotice (s : State) (i : SlotId) (st : SlotState) (m : ManagerId) (k : SlotNotice) (j : SlotId) :
    (s.moveTo i st).hasSlotNotice m k j ↔ s.hasSlotNotice m k j ∨ (k = .state ∧ j = i) := by
  rw [← postSlot_hasSlotNotice]
  unfold State.hasSlotNotice
  rw [moveTo_manager, postSlot_manager]

/-! ## The report and the history -/

/-- The report of slot `i` and its handle history are kept. -/
structure Unlogged (i : SlotId) (s t : State) : Prop where
  lines   : (t.slot i).lines = (s.slot i).lines
  first   : (t.slot i).firstCode = (s.slot i).firstCode
  latest  : (t.slot i).latestCode = (s.slot i).latestCode
  notices : ∀ m, t.hasSlotNotice m .handle i ↔ s.hasSlotNotice m .handle i

theorem Unlogged.refl (i : SlotId) (s : State) : Unlogged i s s := ⟨rfl, rfl, rfl, fun _ => Iff.rfl⟩

theorem Unlogged.trans (h : Unlogged i s t) (k : Unlogged i t u) : Unlogged i s u :=
  ⟨k.lines.trans h.lines, k.first.trans h.first, k.latest.trans h.latest, fun m => (k.notices m).trans (h.notices m)⟩

theorem Unlogged.foldl {α : Type} (f : State → α → State) (h : ∀ s a, Unlogged i s (f s a)) (l : List α) (s : State) :
    Unlogged i s (l.foldl f s) := by
  induction l generalizing s with
  | nil => exact .refl i s
  | cons a l ih => exact (h s a).trans (ih _)

theorem unlogged_of (hs : t.slot i = s.slot i) (hm : ∀ m, t.hasSlotNotice m .handle i ↔ s.hasSlotNotice m .handle i) :
    Unlogged i s t := ⟨by rw [hs], by rw [hs], by rw [hs], hm⟩

theorem unlogged_modSlot (s : State) (i j : SlotId) (f : Slot → Slot) (h : ∀ r, (f r).lines = r.lines ∧
    (f r).firstCode = r.firstCode ∧ (f r).latestCode = r.latestCode := by exact fun _ => ⟨rfl, rfl, rfl⟩) :
    Unlogged i s (s.modSlot j f) := by
  obtain ⟨hl, hf, hc⟩ := h (s.slot j)
  have hm := hasSlotNotice_congr (modSlot_manager s j f)
  by_cases e : i = j
  · subst e
    exact ⟨by rw [modSlot_slot_self, hl], by rw [modSlot_slot_self, hf], by rw [modSlot_slot_self, hc], fun m => hm m _ _⟩
  · exact unlogged_of (modSlot_slot_ne s j f e) fun m => hm m _ _

theorem unlogged_postSlot (s : State) (i j : SlotId) {k : SlotNotice} (h : k ≠ .handle) : Unlogged i s (s.postSlot k j) :=
  unlogged_of rfl fun m => by rw [postSlot_hasSlotNotice]; simp [Ne.symm h]

theorem unlogged_modZone (s : State) (i : SlotId) (z : ZoneId) (f : Zone → Zone) : Unlogged i s (s.modZone z f) :=
  unlogged_of (modZone_slot ..) fun _ => hasSlotNotice_congr (modZone_manager s z f) ..

theorem unlogged_moveTo (s : State) (i j : SlotId) (st : SlotState) : Unlogged i s (s.moveTo j st) := by
  have hm (m : ManagerId) : (s.moveTo j st).hasSlotNotice m .handle i ↔ s.hasSlotNotice m .handle i := by
    rw [moveTo_hasSlotNotice]; simp
  by_cases h : i = j
  · subst h
    exact ⟨by rw [moveTo_slot_self, moved_lines], by rw [moveTo_slot_self, moved_firstCode],
      by rw [moveTo_slot_self, moved_latestCode], hm⟩
  · exact unlogged_of ((local_moveTo ..).slots i h) hm

theorem unlogged_noteCheckpoint (s : State) (i j : SlotId) : Unlogged i s (s.noteCheckpoint j) := by
  rcases noteCheckpoint_eq s j with e | e <;> rw [e]
  · exact .refl ..
  · exact unlogged_postSlot s i j (by decide)

/-! ## The end of an event -/

theorem unlogged_grantTo (s : State) (i j : SlotId) (z : ZoneId) : Unlogged i s (s.grantTo z j) := by
  unfold State.grantTo State.setReservation
  split
  · exact .refl ..
  · exact (((unlogged_moveTo ..).trans (unlogged_modZone ..)).trans
      (unlogged_modSlot ..)).trans (unlogged_modZone ..)

theorem unlogged_examine (s : State) (i : SlotId) (z : ZoneId) : Unlogged i s (s.examine z) := by
  have sweep : Unlogged i s (s.sweepQueue z) :=
    .foldl _ (fun _ _ => (unlogged_moveTo ..).trans (unlogged_noteCheckpoint ..)) _ s
  refine sweep.trans ?_
  unfold State.examine State.testHead
  split
  · exact unlogged_grantTo ..
  · exact unlogged_modZone ..

theorem unlogged_settle (before s : State) (i : SlotId) : Unlogged i s (before.settle s) := by
  have one (u : State) (z : ZoneId) : Unlogged i u (u.examineAfter z before) := by
    unfold State.examineAfter
    split
    · exact unlogged_examine ..
    · exact .refl ..
  unfold State.settle
  extract_lets v
  have hv : Unlogged i s v := (one s .one).trans (one _ .two)
  split
  · exact hv.trans (unlogged_of rfl fun m => by rw [postShelf_hasSlotNotice])
  · exact hv

/-! ## The operations on the slot -/

theorem unlogged_oversizeTest (s : State) (i : SlotId) : Unlogged i s (s.oversizeTest i) := by
  unfold State.oversizeTest
  dsimp only
  split
  · exact unlogged_modSlot ..
  · exact .refl ..

theorem unlogged_autoAdvance (s : State) (i : SlotId) : Unlogged i s (s.autoAdvance i) := by
  unfold State.autoAdvance
  dsimp only
  split
  · exact unlogged_moveTo ..
  · exact .refl ..

theorem unlogged_atDeclared (s : State) (i : SlotId) : Unlogged i s (s.atDeclared i) := by
  unfold State.atDeclared
  extract_lets v
  have hv : Unlogged i s v := unlogged_autoAdvance ..
  split
  · exact hv.trans (unlogged_noteCheckpoint ..)
  · exact hv

theorem unlogged_toDeclared (s : State) (i : SlotId) (b : Bool) (c : Option FaultCause) :
    Unlogged i s (s.toDeclared i b c) := by
  unfold State.toDeclared
  split
  · exact (((unlogged_moveTo ..).trans (unlogged_modSlot ..)).trans
      (unlogged_oversizeTest ..)).trans (unlogged_atDeclared ..)
  · exact unlogged_moveTo ..

theorem unlogged_advanceListen (s : State) (i : SlotId) : Unlogged i s (s.advanceListen i) := by
  have assign : Unlogged i s (s.autoAssign i) := by
    unfold State.autoAssign
    extract_lets l g
    split
    · exact .refl ..
    · refine Unlogged.trans (unlogged_of (claimSet_slot ..) fun _ => ?_) (unlogged_postSlot _ _ _ (by decide))
      exact hasSlotNotice_congr (claimSet_manager s i g) ..
  unfold State.advanceListen
  extract_lets v
  have hv : Unlogged i s v := by
    unfold v
    split
    · exact assign
    · exact .refl ..
  split
  · split
    · exact hv
    · exact hv.trans (unlogged_moveTo ..)
  · exact .refl ..

theorem unlogged_atPowered (s : State) (i : SlotId) : Unlogged i s (s.atPowered i) := by
  refine Unlogged.trans ?_ (unlogged_noteCheckpoint ..)
  unfold State.advancePowered
  split
  · exact (unlogged_moveTo ..).trans (unlogged_advanceListen ..)
  · exact .refl ..

theorem unlogged_setRetirePending (s : State) (i : SlotId) (o : DrainOrigin) : Unlogged i s (s.setRetirePending i o) := by
  unfold State.setRetirePending
  split
  · exact .refl ..
  · exact unlogged_modSlot ..

theorem unlogged_startDrain (s : State) (i : SlotId) (o : Option DrainOrigin) : Unlogged i s (s.startDrain i o) :=
  ((unlogged_modSlot ..).trans (unlogged_moveTo ..)).trans
    (unlogged_noteCheckpoint ..)

theorem unlogged_handleOpened (s : State) (i : SlotId) : Unlogged i s (s.handleOpened i) := by
  unfold State.handleOpened
  cases (s.slot i).state with
  | present | declared | queued | precharge | powered | listen | joinWait | reverted => exact unlogged_moveTo ..
  | joinObserve =>
    dsimp only
    split
    · exact .refl ..
    · exact unlogged_setRetirePending ..
  | live =>
    dsimp only
    split
    · exact .refl ..
    · split
      · exact unlogged_setRetirePending ..
      · exact unlogged_startDrain ..
  | poweringDown => exact unlogged_modSlot ..
  | empty | seating | draining | leaveWait | leaveObserve | released | barred | orphaned => exact .refl ..

theorem unlogged_handleClosed (s : State) (i : SlotId) : Unlogged i s (s.handleClosed i) := by
  unfold State.handleClosed
  dsimp only
  cases (s.slot i).state with
  | seating | draining =>
    dsimp only
    split
    · exact unlogged_moveTo ..
    · exact .refl ..
  | released => exact unlogged_toDeclared ..
  | joinObserve | live =>
    dsimp only
    split
    · exact unlogged_modSlot ..
    · exact .refl ..
  | empty | present | declared | queued | precharge | powered | listen | joinWait | reverted | leaveWait | leaveObserve
  | poweringDown | barred | orphaned => exact .refl ..

theorem unlogged_count (s : State) (i : SlotId) (k : EventKind) (n : Nat) : Unlogged i s (s.count k n) :=
  unlogged_of rfl fun _ => hasSlotNotice_congr (count_manager s k n) ..

theorem unlogged_isolate (s : State) (i : SlotId) (c : IsolationCause) : Unlogged i s (s.isolate i c) := by
  have free (v : State) : Unlogged i v (v.freeGroups i) :=
    .trans (t := v.freeSet i (BitVec.allOnes 32))
      (unlogged_of (freeSet_slot ..) fun _ => hasSlotNotice_congr (freeSet_manager _ _ _) ..)
      (by unfold State.freeGroups State.modLane; exact unlogged_modSlot ..)
  have lanes : Unlogged i s (s.isolateLanes i) :=
    .trans (t := s.switchLanes i .openMode 0 .plain false) (unlogged_modSlot ..) (free _)
  have window (v : State) : Unlogged i v (v.isolateWindow i) :=
    unlogged_of rfl fun _ => hasSlotNotice_congr (modBlock_manager _ _) ..
  have send (v : State) (d : SlotState) : Unlogged i v (v.sendIsolated i d c) := by
    unfold State.sendIsolated
    split
    · exact unlogged_toDeclared ..
    · exact (unlogged_moveTo ..).trans (unlogged_modSlot ..)
  have count (v : State) : Unlogged i v (v.countIsolation c) := by
    unfold State.countIsolation
    split
    · exact unlogged_count ..
    · exact unlogged_count ..
    · exact .refl ..
    · exact .refl ..
    · exact .refl ..
  exact ((((lanes.trans (window _)).trans (unlogged_modSlot ..)).trans
    (send _ _)).trans (unlogged_postSlot _ _ _ (by decide))).trans (count _)

/-! ## The steps of a report -/

theorem unlogged_presenceGained (s : State) (i : SlotId) : Unlogged i s (s.presenceGained i) := by
  unfold State.presenceGained
  dsimp only
  split
  · split
    · exact (unlogged_moveTo ..).trans (unlogged_moveTo ..)
    · exact unlogged_moveTo ..
  · split
    · exact unlogged_moveTo ..
    · exact .refl ..
  · exact .refl ..

theorem unlogged_presenceLost (s : State) (i : SlotId) : Unlogged i s (s.presenceLost i) := by
  unfold State.presenceLost
  dsimp only
  split
  · exact unlogged_isolate ..
  · split
    · split
      · exact .refl ..
      · exact unlogged_moveTo ..
    · split
      · exact .refl ..
      · exact unlogged_moveTo ..

theorem unlogged_reportPg (s : State) (i : SlotId) (lost : Bool) : Unlogged i s (s.reportPg i lost) := by
  unfold State.reportPg
  dsimp only
  split
  · exact (unlogged_moveTo ..).trans (unlogged_atPowered ..)
  · split
    · exact unlogged_postSlot _ _ _ (by decide)
    · exact .refl ..

/-- Where neither presence nor overcurrent acts, the handle changes do. -/
theorem reportLines_acts {p : LineReport} (hp : p.levels.presence = (s.slot i).lines.handed.presence)
    (ho : ¬ (p.oc = true ∧ (s.slot i).state.isPowered = true)) : s.reportLines i p =
    (s.modSlot i fun v => { v with lines := v.lines.take p }).actOnHandle i
      (p.handleMoves (s.slot i).lines.handed.handleClosed) := by
  rw [reportLines_eq]
  dsimp only
  rw [hp, if_neg (lt_irrefl _), if_neg (lt_irrefl _), if_neg ho]

/-- Where a report brings at most one handle change, or presence or overcurrent acts, its handle changes are entered at
once, and nothing that follows touches the history. -/
theorem reportLines_logs {p : LineReport} (h : p.levels.presence ≠ (s.slot i).lines.handed.presence ∨
    (p.oc = true ∧ (s.slot i).state.isPowered = true) ∨
    (p.handleMoves (s.slot i).lines.handed.handleClosed).length ≤ 1) : Unlogged i (s.handedOn i p) (s.reportLines i p) := by
  rw [reportLines_eq]
  dsimp only
  split
  · exact unlogged_presenceGained ..
  · next h1 =>
    split
    · exact unlogged_presenceLost ..
    · next h2 =>
      split
      · exact unlogged_isolate ..
      · next h3 =>
        have hl := (h.resolve_left fun k => k (presence_of_rank (by omega))).resolve_left h3
        unfold State.handedOn
        match p.handleMoves (s.slot i).lines.handed.handleClosed, hl with
        | [], _ => exact .refl ..
        | [true], _ => exact unlogged_handleClosed ..
        | [false], _ => exact unlogged_handleOpened ..

theorem handedOn_handle (s : State) (i : SlotId) (p : LineReport) (m : ManagerId) :
    (s.handedOn i p).hasSlotNotice m .handle i ↔
      s.hasSlotNotice m .handle i ∨ p.handleMoves (s.slot i).lines.handed.handleClosed ≠ [] := by
  have key (l : List Bool) (v : State) :
      (v.enterHandles i l).hasSlotNotice m .handle i ↔ v.hasSlotNotice m .handle i ∨ l ≠ [] := by
    cases l with
    | nil => simp [State.enterHandles]
    | cons c l => exact iff_of_true (enterHandles_posted v i (List.cons_ne_nil c l) m) (Or.inr (List.cons_ne_nil c l))
  rw [State.handedOn, key]
  exact or_congr_left (hasSlotNotice_congr (modSlot_manager _ _ _) ..)

/-- What entering one handle change leaves of the history (R36). -/
theorem enterHandle_history (s : State) (i : SlotId) (c : Bool) :
    ((s.enterHandles i [c]).slot i).firstCode = some ((s.slot i).firstCode.getD ⟨!c, (s.slot i).state⟩) ∧
    ((s.enterHandles i [c]).slot i).latestCode = some ⟨!c, (s.slot i).state⟩ ∧
    ((s.enterHandles i [c]).slot i).lines = (s.slot i).lines := by
  rw [enterHandles_slot]
  refine ⟨?_, rfl, rfl⟩
  cases h : (s.slot i).firstCode <;> rfl

theorem unlogged_actOnHandle (s : State) (i : SlotId) (c : Bool) :
    Unlogged i (s.enterHandles i [c]) (s.actOnHandle i [c]) := by
  cases c with
  | true => exact unlogged_handleClosed ..
  | false => exact unlogged_handleOpened ..

/-- Two handle changes that act in turn are entered in turn (R36, R180). -/
theorem actOnHandle_two_history (s : State) (i : SlotId) (a b : Bool) :
    let v := s.actOnHandle i [a, b]
    (v.slot i).firstCode = some ((s.slot i).firstCode.getD ⟨!a, (s.slot i).state⟩) ∧
    (v.slot i).latestCode.map (·.opened) = some (!b) ∧ (v.slot i).lines = (s.slot i).lines ∧ v.posted .handle i := by
  intro v
  obtain ⟨f1, -, l1⟩ := enterHandle_history s i a
  have u1 := unlogged_actOnHandle s i a
  obtain ⟨f2, c2, l2⟩ := enterHandle_history (s.actOnHandle i [a]) i b
  have u2 := unlogged_actOnHandle (s.actOnHandle i [a]) i b
  refine ⟨?_, ?_, ?_, fun m => (u2.notices m).2 (enterHandles_posted _ i (List.cons_ne_nil b []) m)⟩
  · rw [show v = (s.actOnHandle i [a]).actOnHandle i [b] from rfl, u2.first, f2, u1.first, f1]
    rfl
  · rw [show v = (s.actOnHandle i [a]).actOnHandle i [b] from rfl, u2.latest, c2]
    rfl
  · rw [show v = (s.actOnHandle i [a]).actOnHandle i [b] from rfl, u2.lines, l2, u1.lines, l1]

/-- The handle changes of a report, by the level the end of the survey found, if it brings one. -/
theorem handleMoves_some {p : LineReport} {e : Levels} (h : p.surveyEnd = some e) (was : Bool) : p.handleMoves was =
    (if e.handleClosed = was then [] else [e.handleClosed]) ++
      (if p.levels.handleClosed = e.handleClosed then [] else [p.levels.handleClosed]) := by
  unfold LineReport.handleMoves
  rw [h]

/-- What the taking of a slot's report leaves of its history: `moves` are its handle changes. -/
structure Logged (i : SlotId) (moves : List Bool) (s t : State) : Prop where
  lines  : (t.slot i).lines = (s.slot i).lines.take (s.slot i).lines.report
  kept   : moves = [] → (t.slot i).latestCode = (s.slot i).latestCode ∧ (t.slot i).firstCode = (s.slot i).firstCode ∧
    ∀ m, t.hasSlotNotice m .handle i ↔ s.hasSlotNotice m .handle i
  one    : ∀ c, moves = [c] → (t.slot i).latestCode = some ⟨!c, (s.slot i).state⟩ ∧
    (t.slot i).firstCode = some ((s.slot i).firstCode.getD ⟨!c, (s.slot i).state⟩) ∧ t.posted .handle i
  two    : ∀ a b, moves = [a, b] → t.posted .handle i ∧
    (t.slot i).firstCode = some ((s.slot i).firstCode.getD ⟨!a, (s.slot i).state⟩) ∧
    (t.slot i).latestCode.map (·.opened) = some (!b) ∧
    ((s.slot i).lines.accepted.presence ≠ (s.slot i).lines.handed.presence ∨
      ((s.slot i).lines.reportOc = true ∧ (s.slot i).state.isPowered = true) →
      (t.slot i).latestCode = some ⟨!b, (s.slot i).state⟩)

theorem logged_takeReport (s : State) (i : SlotId) :
    Logged i ((s.slot i).lines.report.handleMoves (s.slot i).lines.handed.handleClosed) s (s.settle (s.takeReport i)) := by
  have tail : Unlogged i (s.reportLines i (s.slot i).lines.report) (s.settle (s.takeReport i)) :=
    (unlogged_reportPg ..).trans (unlogged_settle ..)
  by_cases h : (s.slot i).lines.accepted.presence ≠ (s.slot i).lines.handed.presence ∨
      ((s.slot i).lines.reportOc = true ∧ (s.slot i).state.isPowered = true) ∨
      ((s.slot i).lines.report.handleMoves (s.slot i).lines.handed.handleClosed).length ≤ 1
  · have u := (reportLines_logs h).trans tail
    have e := handedOn_slot s i (s.slot i).lines.report
    have first (c : HandleCode) : (s.slot i).firstCode.or (some c) = some ((s.slot i).firstCode.getD c) := by
      cases (s.slot i).firstCode <;> rfl
    have hc := u.latest
    have hf := u.first
    have hn (m : ManagerId) := (u.notices m).trans (handedOn_handle ..)
    rw [e] at hc hf
    unfold Slot.reportedBy at hc hf
    refine ⟨by rw [u.lines, e, reportedBy_lines], fun k => ?_, fun c k => ?_, fun a b k => ?_⟩
    · simp only [k, List.getLast?_nil, List.head?_nil, Option.map_none, Option.none_or, Option.or_none, ne_eq,
        not_true_eq_false, or_false] at hc hf hn
      exact ⟨hc, hf, hn⟩
    · simp only [k, List.getLast?_singleton, List.head?_cons, Option.map_some, Option.some_or, first] at hc hf
      exact ⟨hc, hf, fun m => (hn m).2 (Or.inr (by rw [k]; exact List.cons_ne_nil _ _))⟩
    · simp only [k, List.getLast?_cons_cons, List.getLast?_singleton, List.head?_cons, Option.map_some, Option.some_or,
        first] at hc hf
      exact ⟨fun m => (hn m).2 (Or.inr (by rw [k]; exact List.cons_ne_nil _ _)), hf, by rw [hc]; rfl, fun _ => hc⟩
  · simp only [not_or, not_not, not_le] at h
    obtain ⟨hp, ho, hlen⟩ := h
    have e := reportLines_acts (p := (s.slot i).lines.report) hp ho
    obtain ⟨a, b, k⟩ : ∃ a b, (s.slot i).lines.report.handleMoves (s.slot i).lines.handed.handleClosed = [a, b] := by
      rcases handleMoves_cases (s.slot i).lines.report (s.slot i).lines.handed.handleClosed with k | ⟨c, k⟩ | k | ⟨k, -⟩
      · rw [k] at hlen; exact absurd hlen (by decide)
      · rw [k] at hlen; exact absurd hlen (by simp)
      · exact ⟨_, _, k⟩
      · exact ⟨_, _, k⟩
    rw [k] at e ⊢
    obtain ⟨f, c, l, n⟩ := actOnHandle_two_history
      (s.modSlot i fun v => { v with lines := v.lines.take (s.slot i).lines.report }) i a b
    rw [← e] at f c l n
    rw [modSlot_slot_self] at f l
    refine ⟨by rw [tail.lines, l], nofun, nofun, fun x y xy => ?_⟩
    obtain ⟨rfl, rfl⟩ : a = x ∧ b = y := by simpa using xy
    exact ⟨fun m => (tail.notices m).2 (n m), tail.first.trans f, by rw [tail.latest, c],
      fun k => absurd k (by simp only [not_or]; exact ⟨fun q => q hp, ho⟩)⟩

/-- Settles O13. -/
theorem reportEntersHandleHistory : Obligations.ReportEntersHandleHistory := by
  intro s i hd
  have g := logged_takeReport s i
  refine ⟨_, exec_sampleReport hd, slotEvent_settle (takeReport_frame s i).2 (takeReport_frame s i).1, ?_⟩
  intro r v
  refine ⟨by rw [g.lines]; rfl, by rw [g.lines]; rfl, by rw [g.lines]; rfl, by rw [g.lines]; rfl, by rw [g.lines]; rfl, ?_⟩
  intro was now kept entered
  have none_moves : r.lines.surveyEnd = none → r.lines.report.handleMoves was = if now = was then [] else [now] :=
    fun h => handleMoves_of h was
  have some_moves (e : Levels) : r.lines.surveyEnd = some e → r.lines.report.handleMoves was =
      (if e.handleClosed = was then [] else [e.handleClosed]) ++ (if now = e.handleClosed then [] else [now]) :=
    fun h => handleMoves_some h was
  refine ⟨fun h => ⟨fun k => ?_, fun k => ?_⟩, fun e h => ⟨fun k l => ?_, fun k l => ?_, fun k l => ?_, fun k l => ?_⟩⟩
  · exact g.kept ((none_moves h).trans (if_pos k))
  · exact g.one _ ((none_moves h).trans (if_neg k))
  · exact g.kept ((some_moves e h).trans (by rw [if_pos k, if_pos (l.trans k.symm)]; rfl))
  · exact g.one _ ((some_moves e h).trans (by rw [if_pos k, if_neg (k ▸ l)]; rfl))
  · exact g.one _ ((some_moves e h).trans (by rw [if_neg k, if_pos l, l]; rfl))
  · exact g.two _ _ ((some_moves e h).trans (by rw [if_neg k, if_neg (l ▸ Ne.symm k)]; rfl))

end Sys2Proof.Machine
end

section
/-! # Emergency isolation (R28, R123, R152): what it leaves of the slot, and after the end of its event -/

namespace Sys2Proof.Machine

variable {s t u v : State} {i : SlotId} {st : SlotState}

/-! ## Changes beside a transition: the slot's own record, and notices of it -/

/-- Only the record of slot `i` and notices of it change. -/
structure Beside (i : SlotId) (v t : State) : Prop where
  zone  : ∀ z, t.zone z = v.zone z
  map   : t.map = v.map
  block : t.block = v.block
  calm  : Calm v t
  near  : Local i v t

theorem Beside.refl (i : SlotId) (v : State) : Beside i v v := ⟨fun _ => rfl, rfl, rfl, .refl v, .refl i v⟩

theorem Beside.trans (h : Beside i s t) (k : Beside i t u) : Beside i s u :=
  ⟨fun z => (k.zone z).trans (h.zone z), k.map.trans h.map, k.block.trans h.block, h.calm.trans k.calm, h.near.trans k.near⟩

theorem Noted.beside (n : Noted i s t) : Beside i s t := ⟨n.zone, n.map, n.block, n.calm, n.near⟩

theorem beside_modSlot (v : State) (i : SlotId) (f : Slot → Slot) : Beside i v (v.modSlot i f) :=
  ⟨fun _ => modSlot_zone .., rfl, rfl, calm_modSlot .., local_modSlot ..⟩

theorem beside_oversizeTest (v : State) (i : SlotId) : Beside i v (v.oversizeTest i) := by
  unfold State.oversizeTest
  dsimp only
  split
  · exact beside_modSlot ..
  · exact .refl ..

theorem beside_count (v : State) (i : SlotId) (k : EventKind) (n : Nat) : Beside i v (v.count k n) :=
  ⟨fun _ => count_zone .., rfl, rfl, calm_count .., local_count ..⟩

theorem beside_countIsolation (v : State) (i : SlotId) (c : IsolationCause) : Beside i v (v.countIsolation c) := by
  unfold State.countIsolation
  split
  · exact beside_count ..
  · exact beside_count ..
  · exact .refl ..
  · exact .refl ..
  · exact .refl ..

theorem Beside.inQueue (b : Beside i s t) (j : SlotId) : t.inQueue j = s.inQueue j := by
  unfold State.inQueue
  rw [show t.zone1 = s.zone1 from b.zone .one, show t.zone2 = s.zone2 from b.zone .two]

/-! ## The slot cut off: lanes open, groups freed, its window closed, no retirement pending -/

/-- The record of a slot whose lanes are opened and whose groups are freed, with no retirement pending. -/
def Slot.cutOff (r : Slot) : Slot := { (r.switched .openMode 0 .plain false).ungrouped with retirePending := false }

/-- The state as an isolated slot goes to its destination. -/
def State.cutOff (i : SlotId) (s : State) : State :=
  ((s.isolateLanes i).isolateWindow i).modSlot i fun r => { r with retirePending := false }

theorem isolate_eq (s : State) (i : SlotId) (c : IsolationCause) : s.isolate i c =
    (((s.cutOff i).sendIsolated i (c.destination (s.slot i)) c).postSlot .fault i).countIsolation c := rfl

theorem cutOff_slot (s : State) (i : SlotId) : (s.cutOff i).slot i = (s.slot i).cutOff := by
  rw [State.cutOff, modSlot_slot_self, isolateWindow_slot, State.isolateLanes, freeGroups_slot_self,
    switchLanes_slot_self]
  rfl

theorem cutOff_zone (s : State) (i : SlotId) (z : ZoneId) : (s.cutOff i).zone z = s.zone z := by
  rw [State.cutOff, modSlot_zone, State.isolateWindow, modBlock_zone, State.isolateLanes, freeGroups_zone, switchLanes_zone]

theorem cutOff_held (s : State) (i : SlotId) : (s.cutOff i).heldGroups i = 0 :=
  (heldGroups_of_map (s := (s.switchLanes i .openMode 0 .plain false).freeGroups i) rfl i).trans (freeGroups_heldGroups ..)

theorem cutOff_block (s : State) (i : SlotId) : (s.cutOff i).block = (s.isolateWindow i).block := rfl

theorem calm_cutOff (s : State) (i : SlotId) : Calm s (s.cutOff i) :=
  ((calm_isolateLanes ..).trans (calm_isolateWindow ..)).trans (calm_modSlot ..)

theorem local_cutOff (s : State) (i : SlotId) : Local i s (s.cutOff i) :=
  ((local_isolateLanes ..).trans (local_isolateWindow ..)).trans (local_modSlot ..)

/-! ## The destination (Table 1-16) -/

/-- What is so of every state that an isolation leads to. -/
structure SlotState.OffHighway (st : SlotState) : Prop where
  power     : st.isPowered = false
  path      : st.powerPath = .off
  lanes     : st.laneMode = some .openMode
  queued    : st ≠ .queued
  precharge : st ≠ .precharge
  draining  : st ≠ .draining
  discharge : st ≠ .poweringDown
  reverted  : st ≠ .reverted
  live      : st ≠ .live
  joinWait  : st ≠ .joinWait
  leaveWait : st ≠ .leaveWait
  clears    : st = .present ∨ st = .released ∨ st = .barred ∨ st = .declared ∨ st = .empty ∨ st = .seating

theorem offHighway_of (h : st = .present ∨ st = .released ∨ st = .barred ∨ st = .declared ∨ st = .empty ∨ st = .seating) :
    st.OffHighway := by
  rcases h with rfl | rfl | rfl | rfl | rfl | rfl <;> constructor <;> decide

theorem destination_offHighway (c : IsolationCause) (r : Slot) : (c.destination r).OffHighway := by
  refine offHighway_of ?_
  unfold IsolationCause.destination Slot.darkDestination
  cases c with
  | presenceLost p => cases p <;> simp
  | overcurrent | stuckLane | revertDisturbed => simp
  | zoneDark =>
    dsimp only
    split
    · simp
    · split
      · simp
      · split <;> simp

theorem destination_declared {c : IsolationCause} {r : Slot} (h : c.destination r = .declared) : r.decl.isSome = true := by
  obtain rfl := isolation_declared h
  unfold IsolationCause.destination Slot.darkDestination at h
  dsimp only at h
  split at h
  · cases h
  · split at h
    · cases h
    · split at h
      · assumption
      · cases h

/-- The fault cause that an isolated slot's record holds. -/
def IsolationCause.recorded (c : IsolationCause) (st : SlotState) : Option FaultCause :=
  if st = .declared then some .zoneDark else if st = .barred then c.faultCause else none

/-! ## The isolated slot -/

/-- What an isolation leaves beside the record: what the transition to the destination leaves. -/
theorem beside_sendIsolated (u : State) (i : SlotId) (c : IsolationCause)
    (hs : st = .declared → (u.slot i).decl.isSome = true ∧ (u.zone (zoneOf i)).protection = .dark) :
    Beside i (u.moveTo i st) (u.sendIsolated i st c) ∧ (u.sendIsolated i st c).bank = (u.moveTo i st).bank ∧
    ∃ h o, (u.sendIsolated i st c).slot i =
      { (u.slot i).moved st u.timers with heldMark := h, oversize := o, cause := c.recorded st } := by
  unfold State.sendIsolated
  split
  · next h =>
    subst h
    obtain ⟨hd, hz⟩ := hs rfl
    unfold State.toDeclared
    rw [if_pos hd]
    generalize hw : (u.moveTo i .declared).modSlot i (fun r => { r with heldMark := false, cause := some .zoneDark }) = w
    have hc : Calm u w := by rw [← hw]; exact (calm_moveTo ..).trans (calm_modSlot ..)
    obtain ⟨o, ho⟩ := oversizeTest_slot w i
    have blocked : (w.oversizeTest i).autoAdvance i = w.oversizeTest i := autoAdvance_blocked (Or.inr ⟨by
      rw [ho, ← hw, modSlot_slot_self], (protection_of_calm (hc.trans (calm_oversizeTest ..)) _).trans hz⟩)
    have at_eq : (w.oversizeTest i).atDeclared i = (w.oversizeTest i).noteCheckpoint i := by
      unfold State.atDeclared
      rw [blocked, if_pos]
      rw [ho, ← hw, modSlot_slot_self, moveTo_slot_self]
      exact moved_state .declared u.timers (u.slot i)
    have n := noted_noteCheckpoint (w.oversizeTest i) i
    have bo : (w.oversizeTest i).bank = w.bank := by
      unfold State.oversizeTest
      dsimp only
      split <;> rfl
    refine ⟨?_, ?_, false, o, ?_⟩
    · rw [at_eq, ← hw]
      exact (beside_modSlot ..).trans ((beside_oversizeTest ..).trans (hw ▸ n.beside))
    · rw [at_eq, n.bank, bo, ← hw]; rfl
    · rw [at_eq, n.slot, ho, ← hw, modSlot_slot_self, moveTo_slot_self]; rfl
  · next h =>
    refine ⟨beside_modSlot .., rfl, ((u.slot i).moved st u.timers).heldMark, ((u.slot i).moved st u.timers).oversize, ?_⟩
    rw [modSlot_slot_self, moveTo_slot_self, IsolationCause.recorded, if_neg h]

/-- The record of a slot that has been isolated, with the HELD mark and the OVERSIZE flag that it comes to hold. -/
def Slot.isolated (c : IsolationCause) (t : TimerSettings) (h o : Bool) (r : Slot) : Slot :=
  { r.cutOff.moved (c.destination r) t with heldMark := h, oversize := o, cause := c.recorded (c.destination r) }

section
variable (c : IsolationCause) (T : TimerSettings) (h o : Bool) (r : Slot)

theorem isolated_state : (r.isolated c T h o).state = c.destination r := moved_state (c.destination r) T r.cutOff

theorem isolated_decl : (r.isolated c T h o).decl =
    if c.destination r = .empty ∨ c.destination r = .seating then none else r.decl := moved_decl (c.destination r) T r.cutOff

theorem isolated_attempts : (r.isolated c T h o).attempts =
    if c.destination r = .empty ∨ c.destination r = .seating then 0 else r.attempts := by
  have g := destination_offHighway c r
  refine (moved_attempts (c.destination r) T r.cutOff).trans ?_
  simp only [g.live, g.draining, false_or, false_and, or_false]
  rfl

theorem isolated_cause : (r.isolated c T h o).cause = c.recorded (c.destination r) := rfl

theorem isolated_steering : (r.isolated c T h o).steering = if (c.destination r).unsteered then none else r.steering :=
  moved_steering (c.destination r) T r.cutOff

theorem isolated_mgmtPower : (r.isolated c T h o).mgmtPower = (c.destination r).mgmtPower :=
  moved_mgmtPower (c.destination r) T r.cutOff

theorem isolated_declareTimer : (r.isolated c T h o).declareTimer =
    if c.destination r = .present then .running 0 T.declare else .stopped := moved_declareTimer (c.destination r) T r.cutOff

theorem isolated_policy : (r.isolated c T h o).policy = r.policy := moved_policy (c.destination r) T r.cutOff

theorem isolated_override : (r.isolated c T h o).override = r.override := moved_override (c.destination r) T r.cutOff

end

/-- An isolation in a zone that is DARK where the cause says so. -/
structure Isolates (i : SlotId) (c : IsolationCause) (v t : State) : Prop where
  beside : Beside i ((v.cutOff i).moveTo i (c.destination (v.slot i))) t
  bank   : t.bank = (v.countIsolation c).bank
  record : ∃ h o, t.slot i = (v.slot i).isolated c v.timers h o
  fault  : t.posted .fault i

theorem isolates (v : State) (i : SlotId) {c : IsolationCause}
    (hd : c = .zoneDark → (v.zone (zoneOf i)).protection = .dark) : Isolates i c v (v.isolate i c) := by
  have hs : c.destination (v.slot i) = .declared →
      ((v.cutOff i).slot i).decl.isSome = true ∧ ((v.cutOff i).zone (zoneOf i)).protection = .dark := fun h =>
    ⟨by rw [cutOff_slot]; exact destination_declared (r := v.slot i) h, by rw [cutOff_zone]; exact hd (isolation_declared h)⟩
  obtain ⟨b, k, h, o, e⟩ := beside_sendIsolated (v.cutOff i) i c hs
  have g := destination_offHighway c (v.slot i)
  have hb : ((v.cutOff i).sendIsolated i (c.destination (v.slot i)) c).bank = v.bank := by
    rw [k, moveTo_bank _ _ _ g.live g.discharge]; rfl
  rw [isolate_eq]
  refine ⟨(b.trans (noted_postSlot ..).beside).trans (beside_countIsolation ..), ?_, ⟨h, o, ?_⟩, ?_⟩
  · cases c with
    | presenceLost p => simp only [State.countIsolation, State.count, Bank.total, postSlot_bank, hb]
    | overcurrent => simp only [State.countIsolation, State.count, Bank.total, postSlot_bank, hb]
    | stuckLane | revertDisturbed | zoneDark => simp only [State.countIsolation, postSlot_bank, hb]
  · rw [countIsolation_slot, postSlot_slot, e, cutOff_slot, (calm_cutOff v i).timers]
    rfl
  · exact (beside_countIsolation _ i c).calm.posted (posted_postSlot _ _ _)

theorem Isolates.state {c : IsolationCause} (k : Isolates i c v t) : (t.slot i).state = c.destination (v.slot i) := by
  obtain ⟨h, o, e⟩ := k.record
  rw [e, isolated_state]

theorem Isolates.held {c : IsolationCause} (k : Isolates i c v t) : t.heldGroups i = 0 := by
  have g := destination_offHighway c (v.slot i)
  rw [heldGroups_of_map k.beside.map]
  cases hg : (c.destination (v.slot i)).groupless with
  | true => exact moveTo_groupless _ _ hg
  | false => rw [moveTo_held _ _ hg g.draining, cutOff_held]

theorem Isolates.listed {c : IsolationCause} (k : Isolates i c v t) : ∀ x ∈ t.block.list, x.slot ≠ i := by
  intro x hx e
  have g := destination_offHighway c (v.slot i)
  rw [k.beside.block, moveTo_listed _ _ _ _ e] at hx
  exact hx.elim (fun h => g.joinWait h.1) fun h => g.leaveWait h.1

theorem Isolates.opened {c : IsolationCause} (k : Isolates i c v t) : t.block.opened = (v.isolateWindow i).block.opened := by
  rw [k.beside.block, moveTo_opened, cutOff_block]

theorem Isolates.channel {c : IsolationCause} (k : Isolates i c v t) (p : Precharge)
    (h : (t.zone (zoneOf i)).precharge = some p) : p.holder ≠ i := by
  rw [k.beside.zone] at h
  exact moveTo_channel _ _ _ p h

theorem Isolates.posted {c : IsolationCause} (k : Isolates i c v t) : t.posted .state i :=
  k.beside.calm.posted (moveTo_posted _ _ _)

theorem Isolates.unqueued {c : IsolationCause} (k : Isolates i c v t) (hq : s.QueueSound) (l : Local i s v) :
    t.inQueue i = false := by
  rw [k.beside.inQueue]
  exact moveTo_unqueued hq (l.trans (local_cutOff v i)) (destination_offHighway c _).queued

/-- What is so of the record of an isolated slot. -/
structure Slot.Cut (r : Slot) : Prop where
  lanes       : r.lane.commanded = .openMode ∧ r.lane.transmit = 0 ∧ r.lane.pending = none ∧ r.lane.restore = none
  power       : r.powerPath = .off ∧ r.latch.power = .off
  reservation : r.reservation = 0
  timers      : r.drainTimer = .stopped ∧ r.dischargeTimer = .stopped ∧ r.backoffTimer = .stopped
  retirement  : r.retirePending = false

theorem cutOff_cut (h : st.OffHighway) (T : TimerSettings) (r : Slot) : (r.cutOff.moved st T).Cut where
  lanes := by
    refine ⟨?_, ?_, moved_pending .., ?_⟩
    · rw [moved_commanded, h.lanes]; rfl
    · rw [moved_transmit, h.lanes]; rfl
    · rw [moved_restore]
      split <;> rfl
  power := ⟨by rw [moved_powerPath, h.path], by rw [moved_latch_power, h.path]⟩
  reservation := by rw [moved_reservation, h.power, if_neg (by decide)]
  timers := ⟨by rw [moved_drainTimer, if_neg h.draining], by rw [moved_dischargeTimer, if_neg h.discharge],
    by rw [moved_backoffTimer, if_neg fun k => h.reverted k.1]⟩
  retirement := by
    rw [moved_retirePending]
    split <;> rfl

theorem Isolates.cut {c : IsolationCause} (k : Isolates i c v t) : (t.slot i).Cut := by
  obtain ⟨h, o, e⟩ := k.record
  have g := cutOff_cut (destination_offHighway c (v.slot i)) v.timers (v.slot i)
  rw [e]
  exact ⟨g.lanes, g.power, g.reservation, g.timers, g.retirement⟩

/-! ## The window (R136) -/

theorem isolateWindow_holder (h : s.holdsWindow i = true) : (s.isolateWindow i).block.opened = none := by
  unfold State.holdsWindow at h
  rw [State.isolateWindow, modBlock_block]
  cases e : s.block.opened with
  | none => exact e
  | some w =>
    rw [e] at h
    exact congrArg WindowBlock.opened (if_pos (of_decide_eq_true h))

theorem isolateWindow_closed (h : s.block.opened = none) : (s.isolateWindow i).block.opened = none := by
  rw [State.isolateWindow, modBlock_block]
  simp only [h]

theorem isolateWindow_other {w : OpenWindow} (h : s.block.opened = some w) (hi : w.holder ≠ i) :
    (s.isolateWindow i).block.opened = some
      (if (w.phase = .observeChange ∨ w.phase = .observeRevert) ∧ w.observed < w.window then
        { w with observed := 0, after := 0, before := s.block.disturbedMarks w.window } else w) := by
  rw [State.isolateWindow, modBlock_block]
  simp only [h, if_neg hi]
  have e : (w.counting && !w.observedAll) = true ↔
      (w.phase = .observeChange ∨ w.phase = .observeRevert) ∧ w.observed < w.window := by
    simp [OpenWindow.counting, OpenWindow.observedAll]
  by_cases k : (w.phase = .observeChange ∨ w.phase = .observeRevert) ∧ w.observed < w.window
  · rw [if_pos k, if_pos (e.2 k)]
  · rw [if_neg k, if_neg fun x => k (e.1 x)]
    exact h

/-! ## After the end of the event -/

/-- An event in which slot `i` is isolated, and nothing more happens to it but notices. -/
theorem Isolates.isolated {c : IsolationCause} (k : Isolates i c v u) (hq : s.QueueSound) (l : Local i s v) (q : Calm s v)
    (ho : v.block.opened = s.block.opened) (n : Noted i u t) : Isolated i s (s.settle t) ∧ (s.settle t).slot i = u.slot i := by
  have hn : t.inQueue i = false := by rw [n.inQueue]; exact k.unqueued hq l
  have e := settled s hn
  have es : (s.settle t).slot i = u.slot i := by rw [e.slot, n.slot]
  have open_eq : (s.settle t).block.opened = (v.isolateWindow i).block.opened := by
    rw [settle_opened, n.block, k.opened]
  have hw : v.holdsWindow i = s.holdsWindow i := by unfold State.holdsWindow; rw [ho]
  have hd (m : Nat) : v.block.disturbedMarks m = s.block.disturbedMarks m := by
    unfold WindowBlock.disturbedMarks
    rw [show v.block.history = s.block.history from (congrArg WindowBlock.history q.block :)]
  have g := k.cut
  refine ⟨⟨by rw [es]; exact g.lanes, ?_, by rw [es]; exact g.power, by rw [es]; exact g.reservation,
    by rw [es]; exact g.timers, by rw [es]; exact g.retirement, ?_, ?_, ?_, ⟨?_, ?_⟩, ?_, ?_, ?_⟩, es⟩
  · rw [e.held, heldGroups_of_map n.map, k.held]
  · exact settle_channel s hn (zoneOf i) (fun p hp => k.channel p (by rwa [n.zone] at hp))
  · intro x hx hxi
    have := e.inQueue
    exact absurd (inQueue_iff.2 ⟨_, x, hx, hxi⟩) (by rw [this]; decide)
  · intro x hx hxi
    rw [e.listed x hxi, n.block] at hx
    exact k.listed x hx hxi
  · exact e.posted _ (n.calm.posted k.fault)
  · exact e.posted _ (n.calm.posted k.posted)
  · exact fun h => by rw [open_eq, isolateWindow_holder (hw.trans h)]
  · exact fun h => by rw [open_eq, isolateWindow_closed (ho.trans h)]
  · intro w h hi
    rw [open_eq, isolateWindow_other (ho.trans h) hi, hd]

/-! ## A loss of presence and an overcurrent (R28, R33, R40) -/

theorem reportLines_lost {p : LineReport} (h : p.levels.presence.rank < (s.slot i).lines.handed.presence.rank) :
    s.reportLines i p = (s.handedOn i p).presenceLost i := by
  rw [reportLines_eq]
  dsimp only
  rw [if_neg (by omega), if_pos h]

theorem reportLines_overcurrent {p : LineReport} (hp : p.levels.presence = (s.slot i).lines.handed.presence)
    (hc : p.oc = true) (hw : (s.slot i).state.isPowered = true) :
    s.reportLines i p = (s.handedOn i p).isolate i .overcurrent := by
  rw [reportLines_eq]
  dsimp only
  rw [hp, if_neg (lt_irrefl _), if_neg (lt_irrefl _), if_pos ⟨hc, hw⟩]

theorem presenceLost_powered (h : (s.slot i).state.isPowered = true) :
    s.presenceLost i = s.isolate i (.presenceLost (s.slot i).lines.handed.presence) := by
  unfold State.presenceLost
  exact if_pos h

/-- The state a slot without power goes to as it loses its presence. -/
def Presence.lostTo : Presence → SlotState
  | .none => .empty
  | _ => .seating

theorem lostTo_eq (p : Presence) : p.lostTo = if p = .none then .empty else .seating := by cases p <;> rfl

theorem destination_lost (p : Presence) (r : Slot) : (IsolationCause.presenceLost p).destination r = p.lostTo := by
  cases p <;> rfl

theorem presenceLost_unpowered (h : (s.slot i).state.isPowered = false) : s.presenceLost i =
    if (s.slot i).state = .empty ∨ ((s.slot i).lines.handed.presence ≠ .none ∧ (s.slot i).state = .seating) then s
    else s.moveTo i (s.slot i).lines.handed.presence.lostTo := by
  unfold State.presenceLost
  dsimp only
  rw [if_neg (by simp [h])]
  cases (s.slot i).lines.handed.presence <;> simp [Presence.lostTo]

/-- The report that isolates its slot. -/
theorem takeReport_isolated {c : IsolationCause} (hq : s.QueueSound)
    (hl : s.reportLines i (s.slot i).lines.report = (s.handedOn i (s.slot i).lines.report).isolate i c) (hc : c ≠ .zoneDark) :
    Isolated i s (s.settle (s.takeReport i)) ∧ (s.settle (s.takeReport i)).bank = (s.countIsolation c).bank ∧
    ∃ h o, (s.settle (s.takeReport i)).slot i = (s.slot i).reported.isolated c s.timers h o := by
  obtain ⟨l, q⟩ := handedOn_frame s i (s.slot i).lines.report
  obtain ⟨hb, hk, -, -⟩ := handedOn_rest s i (s.slot i).lines.report
  have hs : (s.handedOn i (s.slot i).lines.report).slot i = (s.slot i).reported := handedOn_slot ..
  generalize s.handedOn i (s.slot i).lines.report = v at *
  have k := isolates v i (c := c) fun h => absurd h hc
  rw [← hl] at k
  have hn : (s.reportLines i (s.slot i).lines.report).completes i = false := completes_of_state (by
    rw [k.state]; exact (destination_offHighway c _).precharge)
  have n := reportPg_noted hn ((s.slot i).lines.report.losesPg (s.slot i).lines.handed.pg)
  rw [← takeReport_eq] at n
  obtain ⟨iso, e⟩ := k.isolated hq l q (by rw [hb]) n
  refine ⟨iso, ?_, ?_⟩
  · rw [settle_bank, n.bank, k.bank]
    unfold State.countIsolation State.count Bank.total
    cases c <;> simp [hk]
  · obtain ⟨h, o, r⟩ := k.record
    exact ⟨h, o, by rw [e, r, hs, q.timers]⟩

/-- Settles O14. -/
theorem linesIsolatePoweredSlot : Obligations.LinesIsolatePoweredSlot := by
  refine ⟨fun s i => ?_, fun s i => ?_⟩
  · intro r now hq hd hr
    have hl := reportLines_lost (s := s) (i := i) (p := r.lines.report) hr
    have hv : (s.handedOn i r.lines.report).slot i = r.reported := handedOn_slot ..
    refine ⟨_, exec_sampleReport hd, slotEvent_settle (takeReport_frame s i).2 (takeReport_frame s i).1,
      fun hw => ?_, fun hw => ?_⟩
    · rw [presenceLost_powered (by rw [hv]; exact hw), hv] at hl
      obtain ⟨iso, hb, h, o, e⟩ := takeReport_isolated hq hl nofun
      rw [e]
      have ed : (IsolationCause.presenceLost r.reported.lines.handed.presence).destination r.reported = now.lostTo :=
        destination_lost ..
      have hne : now.lostTo ≠ .barred ∧ now.lostTo ≠ .declared ∧ (now.lostTo = .empty ∨ now.lostTo = .seating) := by
        rw [lostTo_eq]; split <;> simp
      obtain ⟨h1, h2, h3⟩ := hne
      have hm : now.lostTo.mgmtPower = false ∧ now.lostTo.unsteered = true := by rcases h3 with h | h <;> rw [h] <;> decide
      refine ⟨iso, ?_, ?_, ?_, ?_, ?_, ?_, isolated_policy .., isolated_override .., hb⟩
      · rw [isolated_state, ed, lostTo_eq]
      · rw [isolated_decl, ed, if_pos h3]
      · rw [isolated_attempts, ed, if_pos h3]
      · rw [isolated_cause, ed, IsolationCause.recorded, if_neg h2, if_neg h1]
      · rw [isolated_steering, ed, if_pos hm.2]
      · rw [isolated_mgmtPower, ed, hm.1]
    · obtain ⟨hb, hk, hm, hz⟩ := handedOn_rest s i r.lines.report
      have hn : ∀ m, (s.handedOn i r.lines.report).hasSlotNotice m .fault i ↔ s.hasSlotNotice m .fault i := by
        intro m
        have key (x : List Bool) (y : State) : (y.enterHandles i x).hasSlotNotice m .fault i ↔ y.hasSlotNotice m .fault i := by
          induction x generalizing y with
          | nil => exact Iff.rfl
          | cons c x ih => exact (ih _).trans ((postSlot_hasSlotNotice _ _ _ _ _ _).trans (by
              simp only [reduceCtorEq, false_and, or_false]; exact hasSlotNotice_congr (modSlot_manager _ _ _) ..))
        exact (key _ _).trans (hasSlotNotice_congr (modSlot_manager _ _ _) ..)
      obtain ⟨l, q⟩ := handedOn_frame s i r.lines.report
      generalize s.handedOn i r.lines.report = v at *
      have hst : (v.slot i).state = r.state := by rw [hv]; rfl
      rw [presenceLost_unpowered (by rw [hst]; exact hw), hst,
        show (v.slot i).lines.handed.presence = now by rw [hv]; rfl] at hl
      have still (w : State) (hw' : (w.slot i).state.isPowered = false) :
          w.reportPg i (r.lines.report.losesPg r.lines.handed.pg) = w := reportPg_of (completes_of_state (by
            intro e; rw [e] at hw'; cases hw')) (Or.inl hw')
      by_cases hc : r.state = .empty ∨ (now ≠ .none ∧ r.state = .seating)
      · rw [if_pos hc] at hl
        have ht : s.takeReport i = v := by rw [takeReport_eq, hl, still v (by rw [hst]; exact hw)]
        rw [ht, settle_of_zones (hz .one) (hz .two)]
        refine ⟨by rw [hb], hk, hn, fun h1 h2 => ?_, fun _ => hv⟩
        rcases hc with hc | ⟨c1, c2⟩
        · exact absurd hc h1
        · exact absurd c2 (h2.resolve_left c1)
      · rw [if_neg hc] at hl
        have g : now.lostTo.OffHighway := offHighway_of (by rw [lostTo_eq]; split <;> simp)
        have ht : s.takeReport i = v.moveTo i now.lostTo := by
          rw [takeReport_eq, hl, still _ (by rw [moveTo_slot_self, moved_state]; exact g.power)]
        have e := settled s (moveTo_unqueued hq l g.queued)
        rw [ht]
        refine ⟨by rw [settle_opened, moveTo_opened, hb], by rw [settle_bank, moveTo_bank _ _ _ g.live g.discharge, hk],
          fun m => ⟨fun h => ?_, fun h => ?_⟩, fun _ _ => ⟨?_, ?_⟩, fun h => absurd h hc⟩
        · have := (endOfEvent_settle (v.moveTo i now.lostTo) s).notices m .fault i (moveTo_unqueued hq l g.queued) h
          rw [moveTo_hasSlotNotice, hn] at this
          simpa using this
        · exact (calm_settle (v.moveTo i now.lostTo) s).notices m .fault i ((moveTo_hasSlotNotice ..).2 (Or.inl ((hn m).2 h)))
        · rw [e.slot, moveTo_slot_self, hv, q.timers, ← lostTo_eq]
          exact entered_moved ..
        · rw [e.held]
          exact moveTo_groupless _ _ (by rw [lostTo_eq]; split <;> rfl)
  · intro r hq hd hp hc hw
    have hl := reportLines_overcurrent (s := s) (i := i) (p := r.lines.report) hp hc hw
    obtain ⟨iso, hb, h, o, e⟩ := takeReport_isolated hq hl nofun
    refine ⟨_, exec_sampleReport hd, slotEvent_settle (takeReport_frame s i).2 (takeReport_frame s i).1, iso, ?_⟩
    rw [e]
    refine ⟨isolated_state .., rfl, isolated_steering .., ?_, ?_, isolated_mgmtPower .., hb⟩
    · exact (isolated_decl ..).trans (if_neg (by simp [IsolationCause.destination]))
    · exact (isolated_attempts ..).trans (if_neg (by simp [IsolationCause.destination]))

end Sys2Proof.Machine
end

section
/-! # CP-L in AUTO (R20, R115), and the precharge channel: grant, completion and timeout (R89, R92, R93) -/

namespace Sys2Proof.Machine

variable {s t u v w : State} {i : SlotId} {z : ZoneId}

/-! ## How an AUTO slot comes out of CP-L -/

/-- The groups that the automatic assignment gives a slot (R115). -/
def State.gain (i : SlotId) (s : State) : GroupSet :=
  BitVec.ofFnLE fun g : GroupId => decide (g ∈ (match (s.slot i).decl with | some d => d.preferred | none => []) ∧
    s.map[g.val] = none)

theorem gain_mem (s : State) (i : SlotId) (g : GroupId) :
    (s.gain i).mem g = true ↔ s.map[g.val] = none ∧ ∃ d, (s.slot i).decl = some d ∧ g ∈ d.preferred := by
  rw [State.gain, GroupSet.mem, BitVec.getLsbD_ofFnLE, dif_pos g.isLt, decide_eq_true_iff]
  cases (s.slot i).decl <;> simp [and_comm]

theorem autoAssign_eq (s : State) (i : SlotId) :
    s.autoAssign i = if s.gain i = 0 then s else (s.claimSet i (s.gain i)).postSlot .state i := by
  unfold State.autoAssign State.gain
  rfl

theorem autoAssign_map (s : State) (i : SlotId) (g : GroupId) : (s.autoAssign i).map[g.val] = some i ↔
    s.map[g.val] = some i ∨ (s.map[g.val] = none ∧ ∃ d, (s.slot i).decl = some d ∧ g ∈ d.preferred) := by
  have hg := gain_mem s i g
  rw [← hg, autoAssign_eq]
  split
  · next h =>
    have h0 : (s.gain i).mem g = false := by rw [h]; simp [GroupSet.mem]
    rw [h0]
    exact (or_iff_left (by decide)).symm
  · have e : ((s.claimSet i (s.gain i)).postSlot .state i).map[g.val] = if (s.gain i).mem g then some i else s.map[g.val] :=
      claimSet_map s i (s.gain i) g
    rw [e]
    split
    · next h => exact iff_of_true rfl (Or.inr h)
    · next h => exact (or_iff_left h).symm

theorem autoAssign_rest (s : State) (i : SlotId) : (s.autoAssign i).block = s.block ∧ (s.autoAssign i).bank = s.bank ∧
    ∀ z, (s.autoAssign i).zone z = s.zone z := by
  rw [autoAssign_eq]
  split
  · exact ⟨rfl, rfl, fun _ => rfl⟩
  · exact ⟨(postSlot_block ..).trans (claimSet_block ..), (postSlot_bank ..).trans (claimSet_bank ..),
      fun _ => (postSlot_zone ..).trans (claimSet_zone ..)⟩

/-- The state of an AUTO slot in LISTEN once it has been given the groups of R115. -/
def State.assigned (i : SlotId) (s : State) : State := if s.heldGroups i = 0 then s.autoAssign i else s

theorem assigned_slot (s : State) (i j : SlotId) : (s.assigned i).slot j = s.slot j := by
  unfold State.assigned
  split
  · exact autoAssign_slot ..
  · rfl

theorem assigned_rest (s : State) (i : SlotId) : (s.assigned i).block = s.block ∧ (s.assigned i).bank = s.bank ∧
    ∀ z, (s.assigned i).zone z = s.zone z := by
  unfold State.assigned
  split
  · exact autoAssign_rest ..
  · exact ⟨rfl, rfl, fun _ => rfl⟩

theorem assigned_map (s : State) (i : SlotId) (g : GroupId) : (s.assigned i).map[g.val] = some i ↔
    s.map[g.val] = some i ∨
      (s.heldGroups i = 0 ∧ s.map[g.val] = none ∧ ∃ d, (s.slot i).decl = some d ∧ g ∈ d.preferred) := by
  unfold State.assigned
  split
  · next h => rw [autoAssign_map, and_iff_right h]
  · next h => exact (or_iff_left fun k => h k.1).symm

theorem advanceListen_auto (h : (s.slot i).policy = .auto) : s.advanceListen i =
    if (s.assigned i).heldGroups i = 0 then s.assigned i else (s.assigned i).moveTo i .joinWait := by
  unfold State.advanceListen State.assigned
  rw [if_pos h]

/-- What the way of an AUTO slot out of CP-L leaves of the block and the zones. -/
theorem advanceListen_opened (s : State) (i : SlotId) : (s.advanceListen i).block.opened = s.block.opened ∧
    (s.advanceListen i).bank = s.bank := by
  obtain ⟨hb, hk, -⟩ := assigned_rest s i
  unfold State.advanceListen
  split
  · extract_lets a
    have ha : a = s.assigned i := by unfold a State.assigned; rfl
    rw [ha]
    split
    · exact ⟨by rw [hb], hk⟩
    · exact ⟨by rw [moveTo_opened, hb], by rw [moveTo_bank _ _ _ (by decide) (by decide), hk]⟩
  · exact ⟨rfl, rfl⟩

theorem moveTo_joinWait_held (s : State) (i j : SlotId) : (s.moveTo i .joinWait).heldGroups j = s.heldGroups j :=
  moveTo_held s i (st := .joinWait) rfl (by decide) j

/-- An AUTO slot in LISTEN goes on as R20 and R115 say. -/
theorem advanceListen_listens (hs : (s.slot i).state = .listen) (hp : (s.slot i).policy = .auto) :
    AutoListens i (s.slot i).decl s ((s.advanceListen i).noteCheckpoint i) := by
  have hw : ((s.assigned i).slot i).state = .listen := by rw [assigned_slot, hs]
  have hm := assigned_map s i
  rw [advanceListen_auto hp]
  split
  · next h =>
    refine ⟨fun g => ?_, fun _ => ⟨by rw [noteCheckpoint_slot, hw], fun m => ?_⟩, fun k => absurd ?_ k⟩
    · rw [noteCheckpoint_map, hm]
    · refine (noteCheckpoint_hasSlotNotice ..).2 (Or.inr ⟨rfl, rfl, ?_⟩)
      unfold State.awaiting
      simp [hw, h]
    · rw [heldGroups_of_map (noteCheckpoint_map ..), h]
  · next h =>
    have e : (((s.assigned i).moveTo i .joinWait).noteCheckpoint i).heldGroups i = (s.assigned i).heldGroups i := by
      rw [heldGroups_of_map (noteCheckpoint_map ..), moveTo_joinWait_held]
    refine ⟨fun g => ?_, fun k => absurd (e ▸ k) h, fun _ => ⟨?_, ?_⟩⟩
    · rw [noteCheckpoint_map, moveTo_map _ _ _ rfl (by decide), hm]
    · rw [noteCheckpoint_slot, moveTo_slot_self, moved_state]
    · rw [noteCheckpoint_block, moveTo_listed _ i .joinWait ⟨i, .join⟩ rfl]
      exact Or.inl ⟨rfl, rfl⟩

theorem AutoListens.of_map {d : Option Declaration} (h : AutoListens i d v t) (hm : v.map = s.map) : AutoListens i d s t :=
  ⟨fun g => by rw [← hm, ← heldGroups_of_map hm]; exact h.groups g, h.waits, h.joins⟩

/-- The end of the event leaves the slot where R20 and R115 take it. -/
theorem AutoListens.settle {d : Option Declaration} (h : AutoListens i d v t) (before : State)
    (hq : t.inQueue i = false) : AutoListens i d v (before.settle t) := by
  have e := settled before hq
  refine ⟨fun g => ?_, fun k => ?_, fun k => ?_⟩
  · rw [(endOfEvent_settle t before).map]; exact h.groups g
  · rw [e.held] at k
    exact ⟨by rw [e.slot]; exact (h.waits k).1, e.posted _ (h.waits k).2⟩
  · rw [e.held] at k
    exact ⟨by rw [e.slot]; exact (h.joins k).1, (e.listed _ rfl).2 (h.joins k).2⟩

/-- A slot that an event takes to LISTEN, and on from there, stands in no queue. -/
theorem advanceListen_unqueued (h : s.inQueue i = false) (hz : ∀ z, z ≠ zoneOf i → ∀ e ∈ (s.zone z).queue, e.slot ≠ i) :
    (s.advanceListen i).inQueue i = false := by
  obtain ⟨-, -, k⟩ := assigned_rest s i
  have ha : (s.assigned i).inQueue i = false := by
    unfold State.inQueue at h ⊢
    rwa [show (s.assigned i).zone1 = s.zone1 from k .one, show (s.assigned i).zone2 = s.zone2 from k .two]
  unfold State.advanceListen
  split
  · extract_lets a
    have e : a = s.assigned i := by unfold a State.assigned; rfl
    rw [e]
    split
    · exact ha
    · exact moveTo_inQueue (by decide) fun z hz' e he => hz z hz' e (by rwa [k z] at he)
  · exact h

/-! ## PRECHARGE_LIMIT_EXPIRY (R93) -/

/-- Settles O21. -/
theorem prechargeLimitBarsHolder : Obligations.PrechargeLimitBarsHolder := by
  intro s z p hq hp hz hl
  have b : Bars p.holder .prechargeTimeout (s.slot p.holder) s
      (s.settle ((s.bar p.holder .prechargeTimeout).count .prechargeFault 1)) :=
    bars_settle hq (.refl s) (.refl p.holder s) .prechargeTimeout
      (fun k h => (calm_count (s.bar p.holder .prechargeTimeout) _ _).posted h) rfl (fun _ => count_zone ..) rfl
  have rec_eq := b.record
  rw [moved_barred_cause] at rec_eq
  refine ⟨s.settle ((s.bar p.holder .prechargeTimeout).count .prechargeFault 1), ?_,
    slotEvent_settle ((calm_bar ..).trans (calm_count ..)) ((local_bar ..).trans (local_count ..)), ?_, ?_, b.fault, b.posted,
    ?_, b.freed, ?_, ?_⟩
  · show execPrechargeLimitExpiry z s = _
    unfold execPrechargeLimitExpiry
    simp only [hp]
    exact if_pos hl
  · have e : ({ (s.slot p.holder).moved .barred s.timers with cause := (s.slot p.holder).cause } : Slot) =
        (s.slot p.holder).moved .barred s.timers := by
      rw [← (moved_cause .barred s.timers (s.slot p.holder)).trans (if_pos (Or.inl rfl))]
    have key := entered_moved .barred s.timers (s.slot p.holder)
    rw [← e] at key
    rw [rec_eq]
    exact key
  · rw [rec_eq]
  · refine settle_channel s ?_ z ?_
    · exact bar_unqueued hq (.refl p.holder s) .prechargeTimeout
    · intro q hq'
      rw [count_zone, bar_zone, ← hz] at hq'
      exact moveTo_channel _ _ _ q hq'
  · rw [settle_opened, count_block, bar_block, moveTo_opened]
  · rw [settle_bank]
    simp only [State.count, Bank.total, bar_bank]

/-! ## GRANT (R89) -/

/-- The sweep of queued slots that have no reservation leaves the account of a zone as it is, and its channel with its
holder, which is not among them. -/
theorem sweep_account (l : List QueueEntry) (u : State) (p : Precharge) (hp : (u.zone z).precharge = some p)
    (hr : ∀ e ∈ l, (u.slot e.slot).reservation = 0) (hn : ∀ e ∈ l, e.slot ≠ p.holder) :
    let v := l.foldl (fun s e => (s.moveTo e.slot .declared).noteCheckpoint e.slot) u
    (v.zone z).reserved = (u.zone z).reserved ∧ (v.zone z).precharge = some p := by
  induction l generalizing u with
  | nil => exact ⟨rfl, hp⟩
  | cons e l ih =>
    have hz : (((u.moveTo e.slot .declared).noteCheckpoint e.slot).zone z).reserved = (u.zone z).reserved ∧
        (((u.moveTo e.slot .declared).noteCheckpoint e.slot).zone z).precharge = some p := by
      rw [noteCheckpoint_zone, moveTo_reserved, hr e List.mem_cons_self, moveTo_precharge]
      refine ⟨by simp, ?_⟩
      split
      · rw [Zone.freeFrom, hp]
        exact (congrArg Zone.precharge (if_neg (Ne.symm (hn e List.mem_cons_self)))).trans hp
      · exact hp
    have rest : ∀ x ∈ l, (((u.moveTo e.slot .declared).noteCheckpoint e.slot).slot x.slot).reservation = 0 := by
      intro x hx
      rw [noteCheckpoint_slot]
      by_cases k : x.slot = e.slot
      · rw [k, moveTo_slot_self, moved_reservation]; exact if_neg (by decide)
      · rw [(local_moveTo ..).slots _ k]; exact hr x (List.mem_cons_of_mem _ hx)
    obtain ⟨h1, h2⟩ := ih _ hz.2 rest fun x hx => hn x (List.mem_cons_of_mem _ hx)
    exact ⟨h1.trans hz.1, h2⟩

theorem headWait_held {p : Precharge} (h : (s.zone z).precharge = some p) : s.headWait z =
    if (s.zone z).queue = [] then .none else .channelBusy := by
  unfold State.headWait
  cases (s.zone z).queue with
  | nil => rfl
  | cons e l => simp [h]

/-- The examination of the head of a zone whose channel is held makes it wait for the channel. -/
theorem testHead_held {p : Precharge} (h : (s.zone z).precharge = some p) : s.testHead z =
    s.setWait z (if (s.zone z).queue = [] then .none else .channelBusy) := by
  unfold State.testHead
  rw [headWait_held h]
  cases (s.zone z).queue with
  | nil => rfl
  | cons e l => rfl

/-- A zone whose channel is held, and whose head waits for it. -/
structure Zone.Busy (p : Precharge) (n : Nat) (v : Zone) : Prop where
  channel  : v.precharge = some p
  reserved : v.reserved = n
  wait     : v.wait = if v.queue = [] then .none else .channelBusy

theorem examine_busy {p : Precharge} (hp : (s.zone z).precharge = some p)
    (hr : ∀ e ∈ (s.zone z).queue, (s.slot e.slot).reservation = 0) (hn : ∀ e ∈ (s.zone z).queue, e.slot ≠ p.holder) :
    ((s.examine z).zone z).Busy p (s.zone z).reserved := by
  obtain ⟨h1, h2⟩ := sweep_account (z := z) ((s.zone z).queue.filter fun e => (s.slot e.slot).oversize) s p hp
    (fun e he => hr e (List.mem_filter.1 he).1) (fun e he => hn e (List.mem_filter.1 he).1)
  show (((s.sweepQueue z).testHead z).zone z).Busy p _
  rw [testHead_held (s := s.sweepQueue z) h2, State.setWait, modZone_zone_self]
  exact ⟨h2, h1, rfl⟩

/-- The end of an event that changes one zone alone examines at most that zone's head. -/
theorem settle_of_zone {before : State} (h : ∀ w, w ≠ z → u.zone w = before.zone w)
    (hq : ∀ e ∈ (u.zone z).queue, zoneOf e.slot = z) : before.settle u = u.examineAfter z before ∨
      before.settle u = (u.examineAfter z before).postShelf .feed := by
  have same (v : State) (w : ZoneId) (hv : v.zone w = before.zone w) : v.examineAfter w before = v := by
    unfold State.examineAfter
    rw [hv, needsExamination_self]
    rfl
  have other (w : ZoneId) (hw : w ≠ z) : (u.examineAfter z before).zone w = before.zone w := by
    unfold State.examineAfter
    split
    · rw [examine_zone_ne u hw hq, h w hw]
    · exact h w hw
  have both : (u.examineAfter .one before).examineAfter .two before = u.examineAfter z before := by
    cases z with
    | one => exact same _ _ (other .two (by decide))
    | two => rw [same u .one (h .one (by decide))]
  unfold State.settle
  rw [both]
  dsimp only
  split
  · exact Or.inr rfl
  · exact Or.inl rfl

theorem local_grantTo {d : Declaration} (hd : (s.slot i).decl = some d) : Local i s (s.grantTo (zoneOf i) i) := by
  rw [grantTo_eq hd]
  exact ((local_moveTo ..).trans (local_setReservation ..)).trans (local_modZone _ _ _ fun _ => rfl)

theorem grantTo_posted {d : Declaration} (hd : (s.slot i).decl = some d) : (s.grantTo z i).posted .state i := by
  rw [grantTo_eq hd]
  exact ((calm_setReservation ..).trans (calm_modZone _ _ _ fun v => hold_quiet _ v)).posted (moveTo_posted _ _ _)

theorem grantTo_rest {d : Declaration} (hd : (s.slot i).decl = some d) :
    (s.grantTo z i).block.opened = s.block.opened ∧ (s.grantTo z i).bank = s.bank := by
  have hb : (s.grantTo z i).block = (s.moveTo i .precharge).block ∧ (s.grantTo z i).bank = (s.moveTo i .precharge).bank := by
    rw [grantTo_eq hd, modZone_block, modZone_bank, State.setReservation, modSlot_block, modSlot_bank, modZone_block,
      modZone_bank]
    exact ⟨rfl, rfl⟩
  exact ⟨by rw [hb.1, moveTo_opened], by rw [hb.2, moveTo_bank _ _ _ (by decide) (by decide)]⟩

/-- The reservation of a grant is the power with its margin, rounded up (R63). -/
theorem reservationFor_bounds (p m : Nat) :
    p * (256 + m) ≤ 256 * reservationFor p m ∧ 256 * reservationFor p m < p * (256 + m) + 256 := by
  unfold reservationFor
  omega

/-- Settles O20. -/
theorem grantStartsPrecharge : Obligations.GrantStartsPrecharge := by
  intro s z e l d hq hbook hqueue hd hc hadm hroom
  obtain ⟨hst, hz⟩ := (hq.member z e.slot).1 ⟨e, by rw [hqueue]; exact List.mem_cons_self, rfl⟩
  have g : Grantable s z e d := ⟨hz, hst, hd, hc, hadm, hroom⟩
  have hwait : s.headWait z = .none := by
    unfold State.headWait
    rw [hqueue]
    dsimp only
    have room : (s.zone z).hasRoom (s.demand e.slot) = true := by
      unfold State.demand
      rw [hd, hz]
      exact decide_eq_true hroom
    rw [hc, if_neg (by simp), if_neg (by simp [hadm]), if_neg (by simp [room])]
  have hex : exec (.grant z) s = .next (s.settle (s.grantTo z e.slot)) := by
    show execGrant z s = _
    unfold execGrant
    rw [hqueue, hwait]
    rfl
  obtain ⟨hp, hr⟩ := grantTo_account (z := z) hd hz
  have hfree : (s.slot e.slot).reservation = 0 := hbook.unpowered _ (by rw [hst]; rfl)
  rw [hfree, Nat.sub_zero] at hr
  have hself : (s.grantTo z e.slot).slot e.slot = (s.slot e.slot).granted s.timers (reservationFor d.power (s.zone z).margin) :=
    grantTo_slot_self hd
  have hqs := g.queueSound hq
  have hn : (s.grantTo z e.slot).inQueue e.slot = false := QueueSound.notIn hqs (by rw [g.state]; decide)
  have se := settled s hn
  have hsub : ∀ x ∈ ((s.grantTo z e.slot).zone z).queue, x ∈ l := by
    intro x hx
    rw [grantTo_queue hd, if_pos hz.symm, hqueue, List.mem_filter] at hx
    obtain ⟨hx, hne⟩ := hx
    exact (List.mem_cons.1 hx).resolve_left fun k => by simp [k] at hne
  have hqz : ∀ x ∈ ((s.grantTo z e.slot).zone z).queue,
      ((s.grantTo z e.slot).slot x.slot).reservation = 0 ∧ x.slot ≠ e.slot := by
    intro x hx
    have hxs := ((hqs.member z x.slot).1 ⟨x, hx, rfl⟩).1
    have hne : x.slot ≠ e.slot := fun k => by rw [k, g.state] at hxs; cases hxs
    rw [grantTo_slot_ne _ _ hne] at hxs ⊢
    exact ⟨hbook.unpowered _ (by rw [hxs]; rfl), hne⟩
  have busy : ((s.settle (s.grantTo z e.slot)).zone z).Busy (prechargeFor e.slot d.bulk (s.zone z).current)
      ((s.zone z).reserved + reservationFor d.power (s.zone z).margin) := by
    have now : ((s.grantTo z e.slot).zone z).Busy (prechargeFor e.slot d.bulk (s.zone z).current)
        ((s.zone z).reserved + reservationFor d.power (s.zone z).margin) := by
      refine ⟨hp, hr, ?_⟩
      rw [grantTo_eq hd, modZone_zone_self]
      rfl
    have hzq : ∀ x ∈ ((s.grantTo z e.slot).zone z).queue, zoneOf x.slot = z := fun x hx =>
      ((hqs.member z x.slot).1 ⟨x, hx, rfl⟩).2
    have hex' : (((s.grantTo z e.slot).examineAfter z s).zone z).Busy (prechargeFor e.slot d.bulk (s.zone z).current)
        ((s.zone z).reserved + reservationFor d.power (s.zone z).margin) := by
      unfold State.examineAfter
      split
      · exact now.reserved ▸ examine_busy hp (fun x hx => (hqz x hx).1) fun x hx => (hqz x hx).2
      · exact now
    rcases settle_of_zone (fun w hw => grantTo_zone_ne s hz hw) hzq with k | k <;> rw [k]
    · exact hex'
    · rw [postShelf_zone]; exact hex'
  obtain ⟨hle, hlt⟩ := reservationFor_bounds d.power (s.zone z).margin
  have hloc : Local e.slot s (s.grantTo z e.slot) := by
    have := local_grantTo hd
    rwa [hz] at this
  obtain ⟨ho, hb⟩ := grantTo_rest (z := z) hd
  refine ⟨_, hex, quietEvent_settle (calm_grantTo ..) hloc ho hb, ?_, ?_, ?_, ?_, ?_, ?_,
    ⟨_, busy.channel, rfl, rfl, rfl, rfl, rfl, rfl⟩,
    fun x hx => hsub x ((endOfEvent_settle (s.grantTo z e.slot) s).queue z x hx), busy.wait, se.posted _ (grantTo_posted hd)⟩
  · rw [se.slot, hself, granted_state]
  · rw [se.slot, hself, granted_powerPath]
  · rw [se.slot, hself, granted_commanded]
  · rw [se.slot, hself]; exact hlt
  · rw [se.slot, hself]; exact hle
  · rw [se.slot, hself]; exact busy.reserved

/-! ## PRECHARGE_COMPLETE (R92) -/

theorem advanceListen_record (s : State) (i : SlotId) :
    (s.advanceListen i).slot i = s.slot i ∨ (s.advanceListen i).slot i = (s.slot i).moved .joinWait s.timers := by
  unfold State.advanceListen
  split
  · extract_lets a
    have e : a = s.assigned i := by unfold a State.assigned; rfl
    rw [e]
    split
    · exact Or.inl (assigned_slot ..)
    · right
      rw [moveTo_slot_self, assigned_slot]
      congr 1
      unfold State.assigned
      split
      · exact (calm_autoAssign ..).timers
      · rfl
  · exact Or.inl rfl

/-- PRECHARGE does not act on a handle that closes (Table 9-1). -/
theorem handleClosed_precharge (h : (s.slot i).state = .precharge) : s.handleClosed i = s := by
  unfold State.handleClosed
  simp only [h]

/-- The first four steps of a report in PRECHARGE that brings no change but perhaps of the handle to CLOSED. -/
theorem reportLines_precharge {p : LineReport} (hs : (s.slot i).state = .precharge)
    (hp : p.levels.presence = (s.slot i).lines.handed.presence) (hc : p.oc = false)
    (hm : p.handleMoves (s.slot i).lines.handed.handleClosed = [] ∨
      p.handleMoves (s.slot i).lines.handed.handleClosed = [true]) : s.reportLines i p = s.handedOn i p := by
  rcases hm with hm | hm
  · exact reportLines_still hp hc hm
  · rw [reportLines_acts hp (by simp [hc]), State.handedOn, hm, actOnHandle_one, if_pos rfl, handleClosed_precharge]
    rw [enterHandles_slot, modSlot_slot_self]
    exact hs

theorem completes_of {p : Precharge} (hs : (s.slot i).state = .precharge) (hp : (s.zone (zoneOf i)).precharge = some p)
    (hh : p.holder = i) (hn : 2 ≤ p.count) (hg : (s.slot i).lines.handed.pg = true) : s.completes i = true := by
  unfold State.completes
  simp [hp, hs, hh, hn, hg]

/-- What a slot that goes on from CP-P has become: one on the full connection, with its reservation. -/
theorem atPowered_record (s : State) (i : SlotId) (hw : (s.slot i).powerPath = .full) :
    ((s.atPowered i).slot i).powerPath = .full ∧ ((s.atPowered i).slot i).reservation = (s.slot i).reservation := by
  rw [State.atPowered, noteCheckpoint_slot]
  unfold State.advancePowered
  split
  · have h1 : ((s.moveTo i .listen).slot i).powerPath = .full ∧
        ((s.moveTo i .listen).slot i).reservation = (s.slot i).reservation := by
      rw [moveTo_slot_self, moved_powerPath, moved_reservation]
      exact ⟨rfl, rfl⟩
    rcases advanceListen_record (s.moveTo i .listen) i with e | e <;> rw [e]
    · exact h1
    · rw [moved_powerPath, moved_reservation]
      exact ⟨rfl, h1.2⟩
  · exact ⟨hw, rfl⟩

theorem advanceListen_channel (s : State) (i : SlotId) (h : ∀ q, (s.zone (zoneOf i)).precharge = some q → q.holder ≠ i) (q : Precharge)
    (k : ((s.advanceListen i).zone (zoneOf i)).precharge = some q) : q.holder ≠ i := by
  unfold State.advanceListen at k
  split at k
  · extract_lets a at k
    have e : a = s.assigned i := by unfold a State.assigned; rfl
    rw [e] at k
    split at k
    · rw [(assigned_rest s i).2.2] at k; exact h q k
    · exact moveTo_channel _ _ _ q k
  · exact h q k

theorem atPowered_channel (s : State) (i : SlotId) (h : ∀ q, (s.zone (zoneOf i)).precharge = some q → q.holder ≠ i) (q : Precharge)
    (k : ((s.atPowered i).zone (zoneOf i)).precharge = some q) : q.holder ≠ i := by
  rw [State.atPowered, noteCheckpoint_zone] at k
  unfold State.advancePowered at k
  split at k
  · exact advanceListen_channel _ i (moveTo_channel _ _ _) q k
  · exact h q k

theorem atPowered_rest (s : State) (i : SlotId) :
    (s.atPowered i).block.opened = s.block.opened ∧ (s.atPowered i).bank = s.bank := by
  rw [State.atPowered, noteCheckpoint_block, noteCheckpoint_bank]
  unfold State.advancePowered
  split
  · obtain ⟨ho, hb⟩ := advanceListen_opened (s.moveTo i .listen) i
    exact ⟨by rw [ho, moveTo_opened], by rw [hb, moveTo_bank _ _ _ (by decide) (by decide)]⟩
  · exact ⟨rfl, rfl⟩

theorem atPowered_unqueued (hz : ∀ z, z ≠ zoneOf i → ∀ e ∈ (s.zone z).queue, e.slot ≠ i) (h : s.inQueue i = false) :
    (s.atPowered i).inQueue i = false := by
  rw [State.atPowered, (noted_noteCheckpoint ..).inQueue]
  unfold State.advancePowered
  split
  · refine advanceListen_unqueued (moveTo_inQueue (by decide) hz) fun z hz' e he => ?_
    rw [(local_moveTo ..).zone z hz'] at he
    exact hz z hz' e he
  · exact h

/-- An AUTO slot that goes on from CP-P (R20). -/
theorem atPowered_listens (hp : (s.slot i).policy = .auto) : AutoListens i (s.slot i).decl s (s.atPowered i) := by
  have k := advanceListen_listens (s := s.moveTo i .listen) (i := i) (by rw [moveTo_slot_self, moved_state])
    (by rw [moveTo_slot_self, moved_policy, hp])
  rw [moveTo_slot_self, moved_decl, if_neg (by decide)] at k
  rw [State.atPowered, State.advancePowered, if_pos hp]
  exact k.of_map (moveTo_map _ _ _ rfl (by decide))

/-- A SUPERVISED slot waits at CP-P with a CHECKPOINT notice (R92). -/
theorem atPowered_waits (hs : (s.slot i).state = .powered) (hp : (s.slot i).policy = .supervised) :
    (s.atPowered i).slot i = s.slot i ∧ (s.atPowered i).posted .checkpoint i := by
  rw [State.atPowered, State.advancePowered, if_neg (by rw [hp]; decide)]
  refine ⟨noteCheckpoint_slot .., fun m => (noteCheckpoint_hasSlotNotice ..).2 (Or.inr ⟨rfl, rfl, ?_⟩)⟩
  unfold State.awaiting
  simp [hs, hp]

/-- Settles O19. -/
theorem pgCompletesPrecharge : Obligations.PgCompletesPrecharge := by
  intro s i p r hq hd hpr hoc hh he hs hz hhold hcount hpg
  have hm : r.lines.report.handleMoves r.lines.handed.handleClosed = [] ∨
      r.lines.report.handleMoves r.lines.handed.handleClosed = [true] := by
    rw [handleMoves_same he]
    split
    · exact Or.inl rfl
    · next h =>
      right
      rcases hh with hh | hh
      · exact congrArg (fun b => [b]) hh
      · refine congrArg (fun b => [b]) ?_
        rw [hh] at h
        simpa using h
  have hl : s.reportLines i r.lines.report = s.handedOn i r.lines.report := reportLines_precharge hs hpr hoc hm
  have hv : (s.handedOn i r.lines.report).slot i = r.reported := handedOn_slot ..
  obtain ⟨hb, hk, hmap, hzone⟩ := handedOn_rest s i r.lines.report
  obtain ⟨l, c⟩ := handedOn_frame s i r.lines.report
  generalize s.handedOn i r.lines.report = v at *
  have hc : v.completes i = true :=
    completes_of (p := p) (by rw [hv]; exact hs) (by rw [hzone, hz]) hhold hcount (by rw [hv]; exact hpg)
  have ht : s.takeReport i = (v.moveTo i .powered).atPowered i := by
    rw [takeReport_eq, hl, State.reportPg, if_pos hc]
    rfl
  have hw : (v.moveTo i .powered).slot i = r.reported.moved .powered s.timers := by rw [moveTo_slot_self, hv, c.timers]
  have apart : ∀ z, z ≠ zoneOf i → ∀ e ∈ ((v.moveTo i .powered).zone z).queue, e.slot ≠ i := fun z hz' e he' =>
    QueueSound.apart hq i z hz' e (by rwa [(local_moveTo ..).zone z hz', hzone] at he')
  have hn : (s.takeReport i).inQueue i = false := by
    rw [ht]
    exact atPowered_unqueued apart (moveTo_unqueued hq l (by decide))
  have se := settled s hn
  obtain ⟨hpath, hres⟩ := atPowered_record (v.moveTo i .powered) i (by rw [hw, moved_powerPath]; rfl)
  obtain ⟨ho, hbank⟩ := atPowered_rest (v.moveTo i .powered) i
  refine ⟨_, ?_, exec_sampleReport hd, quietEvent_settle (takeReport_frame s i).2 (takeReport_frame s i).1 ?_ ?_, ?_, ?_,
    se.posted _ ?_, settle_channel s hn _ ?_, fun hp => ?_, fun hp => ?_⟩
  · show execPrechargeComplete i s = _
    unfold execPrechargeComplete State.reportCompletes
    rw [hl, if_pos ⟨hd, hc⟩]
    rfl
  · rw [ht, ho, moveTo_opened, hb]
  · rw [ht, hbank, moveTo_bank _ _ _ (by decide) (by decide), hk]
  · rw [se.slot, ht, hpath]
  · rw [se.slot, ht, hres, hw, moved_reservation]
    rfl
  · rw [ht]
    exact (calm_atPowered ..).posted (moveTo_posted _ _ _)
  · rw [ht]
    exact atPowered_channel _ i (moveTo_channel _ _ _)
  · obtain ⟨e1, e2⟩ := atPowered_waits (s := v.moveTo i .powered) (i := i) (by rw [hw, moved_state])
      (by rw [hw, moved_policy]; exact hp)
    rw [← ht] at e1 e2
    refine ⟨?_, se.posted _ e2⟩
    rw [se.slot, e1, hw]
    exact entered_moved ..
  · have k := atPowered_listens (s := v.moveTo i .powered) (i := i) (by rw [hw, moved_policy]; exact hp)
    rw [← ht, hw, moved_decl, if_neg (by decide)] at k
    exact (k.settle s hn).of_map (by rw [moveTo_map _ _ _ rfl (by decide), hmap])

end Sys2Proof.Machine
end

section
/-! # The handle (Table 9-1): what a level accepted OPEN or CLOSED leaves of its slot -/

namespace Sys2Proof.Machine

variable {s t u v : State} {i j : SlotId} {st : SlotState}

/-! ## What the end of an event leaves of a slot that is not OVERSIZE (R85) -/

/-- The examination of the heads makes no slot QUEUED, and admits a slot just by a grant. -/
theorem Examines.granted (h : Examines s t) : s.QueueSound → ∀ j,
    ((t.slot j).state = .queued → t.slot j = s.slot j) ∧
    ((t.slot j).state = .precharge → t.slot j = s.slot j ∨
      ((s.slot j).state = .queued ∧ ∃ T n, t.slot j = (s.slot j).granted T n)) := by
  induction h with
  | rest hs hz =>
    intro _ j
    unfold State.slot
    rw [hs]
    exact ⟨fun _ => rfl, fun _ => Or.inl rfl⟩
  | @sweep s i _ =>
    intro _ j
    by_cases hj : j = i
    · subst hj
      rw [moveTo_slot_self, moved_state]
      exact ⟨nofun, nofun⟩
    · rw [(local_moveTo ..).slots j hj]
      exact ⟨fun _ => rfl, fun _ => Or.inl rfl⟩
  | @grant s z e l hq hw =>
    intro h j
    obtain ⟨d, g⟩ := h.grantable hq hw
    by_cases hj : j = e.slot
    · subst hj
      rw [grantTo_slot_self g.decl, granted_state]
      exact ⟨nofun, fun _ => Or.inr ⟨g.queued, _, _, rfl⟩⟩
    · rw [grantTo_slot_ne _ _ hj]
      exact ⟨fun _ => rfl, fun _ => Or.inl rfl⟩
  | trans h1 _ h k =>
    intro hq j
    obtain ⟨a1, a2⟩ := h hq j
    obtain ⟨b1, b2⟩ := k (h1.queueSound hq) j
    refine ⟨fun e => ?_, fun e => ?_⟩
    · have ht := b1 e
      exact ht.trans (a1 (ht ▸ e))
    · rcases b2 e with ht | ⟨ht, T, n, hu⟩
      · rw [ht] at e ⊢; exact a2 e
      · have hst := a1 ht
        rw [hst] at ht hu
        exact Or.inr ⟨ht, T, n, hu⟩

theorem granted_rests (T U : TimerSettings) (n : Nat) (y : Slot) (h : y.state = .queued) : Rests U y (y.granted T n) := by
  refine Or.inr ⟨h, ?_⟩
  have e : ({ y.granted T n with reservation := y.reservation } : Slot) = y.moved .precharge U := by
    have hr : (y.moved .precharge U).reservation = y.reservation := moved_reservation .precharge U y
    rw [← hr]
    rfl
  rw [e]
  exact entered_moved ..

/-- A slot that is not OVERSIZE rests where an event leaves it, or is granted its zone's channel from its queue. -/
theorem settle_rests (before : State) (hq : u.QueueSound) (T : TimerSettings) (h : (u.slot j).oversize = false) :
    Rests T (u.slot j) ((before.settle u).slot j) := by
  rcases (endOfEvent_settle u before).granted j h with e | e
  · exact Or.inl e
  · rcases ((examines_settle before hq).granted hq j).2 e with k | ⟨hs, T', n, k⟩
    · exact Or.inl k
    · rw [k]; exact granted_rests T' T n _ hs

/-! ## A handle accepted OPEN -/

/-- What a handle accepted OPEN does: the slot goes to RELEASED or POWERING_DOWN, starts to drain, or stays in its state
with nothing but its record changed. -/
inductive Opens (i : SlotId) (s t : State) : Prop
  | released : (s.slot i).state = .present ∨ (s.slot i).state = .declared ∨ (s.slot i).state = .queued →
      t = s.moveTo i .released → Opens i s t
  | discharges : (s.slot i).state = .precharge ∨ (s.slot i).state = .powered ∨ (s.slot i).state = .listen ∨
      (s.slot i).state = .joinWait ∨ (s.slot i).state = .reverted → t = s.moveTo i .poweringDown → Opens i s t
  | drains : (s.slot i).state = .live → t = s.startDrain i (some .handle) → Opens i s t
  | stays : (s.slot i).state ≠ .present → (s.slot i).state ≠ .declared → (s.slot i).state ≠ .queued →
      (s.slot i).state ≠ .precharge → (s.slot i).state ≠ .powered → (s.slot i).state ≠ .listen →
      (s.slot i).state ≠ .joinWait → (s.slot i).state ≠ .reverted → Beside i s t → t.bank = s.bank →
      (t.slot i).state = (s.slot i).state → Opens i s t

theorem setRetirePending_beside (s : State) (i : SlotId) (o : DrainOrigin) : Beside i s (s.setRetirePending i o) ∧
    (s.setRetirePending i o).bank = s.bank ∧ ((s.setRetirePending i o).slot i).state = (s.slot i).state := by
  unfold State.setRetirePending
  split
  · exact ⟨.refl .., rfl, rfl⟩
  · exact ⟨beside_modSlot .., rfl, by rw [modSlot_slot_self]⟩

theorem handleOpened_opens (s : State) (i : SlotId) : Opens i s (s.handleOpened i) := by
  have stay (k : SlotState) (hk : (s.slot i).state = k) (b : Beside i s (s.handleOpened i))
      (hb : (s.handleOpened i).bank = s.bank) (hs : ((s.handleOpened i).slot i).state = (s.slot i).state)
      (h : k ≠ .present ∧ k ≠ .declared ∧ k ≠ .queued ∧ k ≠ .precharge ∧ k ≠ .powered ∧ k ≠ .listen ∧ k ≠ .joinWait ∧
        k ≠ .reverted) : Opens i s (s.handleOpened i) := by
    subst hk
    obtain ⟨h1, h2, h3, h4, h5, h6, h7, h8⟩ := h
    exact .stays h1 h2 h3 h4 h5 h6 h7 h8 b hb hs
  have pend := setRetirePending_beside s i .handle
  cases hs : (s.slot i).state with
  | present | declared | queued => exact .released (by simp [hs]) (by simp only [State.handleOpened, hs])
  | precharge | powered | listen | joinWait | reverted =>
    exact .discharges (by simp [hs]) (by simp only [State.handleOpened, hs])
  | live =>
    have e : s.handleOpened i = if (s.slot i).undoWait then s
        else if s.holdsWindow i then s.setRetirePending i .handle else s.startDrain i (some .handle) := by
      simp only [State.handleOpened, hs]
    by_cases hu : (s.slot i).undoWait = true
    · rw [if_pos hu] at e
      exact stay _ hs (by rw [e]; exact .refl ..) (by rw [e]) (by rw [e]) (by decide)
    · rw [if_neg hu] at e
      by_cases hw : s.holdsWindow i = true
      · rw [if_pos hw] at e
        exact stay _ hs (by rw [e]; exact pend.1) (by rw [e]; exact pend.2.1) (by rw [e]; exact pend.2.2) (by decide)
      · rw [if_neg hw] at e
        exact .drains hs e
  | joinObserve =>
    have e : s.handleOpened i = if (s.slot i).undoWait then s else s.setRetirePending i .handle := by
      simp only [State.handleOpened, hs]
    by_cases hu : (s.slot i).undoWait = true
    · rw [if_pos hu] at e
      exact stay _ hs (by rw [e]; exact .refl ..) (by rw [e]) (by rw [e]) (by decide)
    · rw [if_neg hu] at e
      exact stay _ hs (by rw [e]; exact pend.1) (by rw [e]; exact pend.2.1) (by rw [e]; exact pend.2.2) (by decide)
  | poweringDown =>
    have e : s.handleOpened i = s.modSlot i fun r => { r with target := .released } := by
      simp only [State.handleOpened, hs]
    exact stay _ hs (by rw [e]; exact beside_modSlot ..) (by rw [e]; rfl) (by rw [e, modSlot_slot_self]) (by decide)
  | empty | seating | draining | leaveWait | leaveObserve | released | barred | orphaned =>
    have e : s.handleOpened i = s := by simp only [State.handleOpened, hs]
    exact stay _ hs (by rw [e]; exact .refl ..) (by rw [e]) (by rw [e]) (by decide)

theorem startDrain_state (s : State) (i : SlotId) (o : Option DrainOrigin) : ((s.startDrain i o).slot i).state = .draining := by
  rw [startDrain_slot_self, moved_state]

section
variable (h : Opens i s t)
include h

theorem Opens.ne_queued : (t.slot i).state ≠ .queued ∧ (t.slot i).state ≠ .precharge := by
  cases h with
  | released k e => rw [e, moveTo_slot_self, moved_state]; exact ⟨by decide, by decide⟩
  | discharges k e => rw [e, moveTo_slot_self, moved_state]; exact ⟨by decide, by decide⟩
  | drains k e => rw [e, startDrain_state]; exact ⟨by decide, by decide⟩
  | stays _ _ hq hp _ _ _ _ _ _ e => rw [e]; exact ⟨hq, hp⟩

theorem Opens.rest : t.block.opened = s.block.opened ∧ t.bank = s.bank := by
  have move (st : SlotState) (hl : st ≠ .live) (hp : st = .poweringDown → (s.slot i).state ≠ .leaveObserve) :
      (s.moveTo i st).block.opened = s.block.opened ∧ (s.moveTo i st).bank = s.bank :=
    ⟨moveTo_opened .., moveTo_bank_of s i (fun k => absurd k hl) hp⟩
  cases h with
  | released k e => rw [e]; exact move _ (by decide) nofun
  | discharges k e =>
    rw [e]
    exact move _ (by decide) fun _ hs => by rw [hs] at k; simp at k
  | drains k e =>
    rw [e, State.startDrain, noteCheckpoint_block, noteCheckpoint_bank, moveTo_opened,
      moveTo_bank_of _ _ (by nofun) (by nofun)]
    exact ⟨rfl, rfl⟩
  | stays _ _ _ _ _ _ _ _ b hb _ => exact ⟨by rw [b.block], hb⟩

theorem Opens.posted (hs : (t.slot i).state ≠ (s.slot i).state) : t.posted .state i := by
  cases h with
  | released k e => rw [e]; exact moveTo_posted _ _ _
  | discharges k e => rw [e]; exact moveTo_posted _ _ _
  | drains k e => rw [e]; exact (calm_noteCheckpoint ..).posted (moveTo_posted _ _ _)
  | stays _ _ _ _ _ _ _ _ _ _ e => exact absurd e hs

/-- A slot that a handle accepted OPEN takes to a state without groups holds none, no entry of the change list, and no
channel. -/
theorem Opens.freed (hs : (t.slot i).state ≠ (s.slot i).state) (hg : (t.slot i).state.groupless = true) :
    t.heldGroups i = 0 ∧ (∀ x ∈ t.block.list, x.slot ≠ i) ∧
      ∀ p, (t.zone (zoneOf i)).precharge = some p → p.holder ≠ i := by
  have move (st : SlotState) (hg : st.groupless = true) (hw : st ≠ .joinWait ∧ st ≠ .leaveWait) :
      (s.moveTo i st).heldGroups i = 0 ∧ (∀ x ∈ (s.moveTo i st).block.list, x.slot ≠ i) ∧
        ∀ p, ((s.moveTo i st).zone (zoneOf i)).precharge = some p → p.holder ≠ i :=
    ⟨moveTo_groupless _ _ hg, fun x hx e => ((moveTo_listed s i st x e).1 hx).elim (fun k => hw.1 k.1) fun k => hw.2 k.1,
      moveTo_channel s i st⟩
  cases h with
  | released k e => rw [e]; exact move _ rfl ⟨by decide, by decide⟩
  | discharges k e => rw [e]; exact move _ rfl ⟨by decide, by decide⟩
  | drains k e => rw [e, startDrain_state] at hg; cases hg
  | stays _ _ _ _ _ _ _ _ _ _ e => exact absurd e hs

theorem Opens.drained (hs : (t.slot i).state ≠ (s.slot i).state) (hd : (t.slot i).state = .draining) :
    t.posted .checkpoint i := by
  cases h with
  | released k e => rw [e, moveTo_slot_self, moved_state] at hd; cases hd
  | discharges k e => rw [e, moveTo_slot_self, moved_state] at hd; cases hd
  | drains k e => rw [e]; exact startDrain_posted s i _
  | stays _ _ _ _ _ _ _ _ _ _ e => exact absurd e hs

end

/-! ## A handle accepted CLOSED -/

/-- What a handle accepted CLOSED does: the slot goes to PRESENT, LIVE or DECLARED, or stays in its state with nothing but its
record changed. -/
inductive Closes (i : SlotId) (s t : State) : Prop
  | seated : (s.slot i).state = .seating ∨ (s.slot i).state = .released → t = s.moveTo i .present → Closes i s t
  | live : (s.slot i).state = .draining → t = s.moveTo i .live → Closes i s t
  | declared : (s.slot i).state = .released → (s.slot i).decl.isSome = true → t = s.toDeclared i false none → Closes i s t
  | stays : Beside i s t → t.bank = s.bank → (t.slot i).state = (s.slot i).state →
      ((s.slot i).state ≠ .joinObserve ∧ (s.slot i).state ≠ .live → t = s) →
      ((s.slot i).state ≠ .released) → Closes i s t

theorem handleClosed_closes (s : State) (i : SlotId) : Closes i s (s.handleClosed i) := by
  have same {k : SlotState} (hs : (s.slot i).state = k) (hk : k ≠ .released) (e : s.handleClosed i = s) :
      Closes i s (s.handleClosed i) :=
    .stays (by rw [e]; exact .refl ..) (by rw [e]) (by rw [e]) (fun _ => e) (hs ▸ hk)
  cases hs : (s.slot i).state with
  | seating =>
    have e : s.handleClosed i = if (s.slot i).lines.handed.presence = .full then s.moveTo i .present else s := by
      simp only [State.handleClosed, hs]
    split at e
    · exact .seated (Or.inl hs) e
    · exact same hs (by decide) e
  | released =>
    have e : s.handleClosed i = s.toDeclared i false none := by simp only [State.handleClosed, hs]
    cases hd : (s.slot i).decl.isSome with
    | true => exact .declared hs hd e
    | false => exact .seated (Or.inr hs) (by rw [e, State.toDeclared, if_neg (by simp [hd])])
  | draining =>
    have e : s.handleClosed i = if (s.slot i).origin = some .handle then s.moveTo i .live else s := by
      simp only [State.handleClosed, hs]
    split at e
    · exact .live hs e
    · exact same hs (by decide) e
  | joinObserve | live =>
    have e : s.handleClosed i = if (s.slot i).undoWait = false ∧ (s.slot i).retirePending = true ∧
        (s.slot i).origin = some .handle then s.modSlot i fun r => { r with retirePending := false, origin := none }
        else s := by simp only [State.handleClosed, hs]
    split at e
    · exact .stays (by rw [e]; exact beside_modSlot ..) (by rw [e]; rfl) (by rw [e, modSlot_slot_self]) (fun k => by simp [hs] at k)
        (by rw [hs]; decide)
    · exact same hs (by decide) e
  | empty | present | declared | queued | precharge | powered | listen | joinWait | reverted | leaveWait | leaveObserve
  | poweringDown | barred | orphaned => exact same hs (by decide) (by simp only [State.handleClosed, hs])

/-! ### To DECLARED -/

theorem oversizeTest_rest (s : State) (i : SlotId) : (s.oversizeTest i).bank = s.bank ∧ (s.oversizeTest i).block = s.block ∧
    (s.oversizeTest i).map = s.map := by
  unfold State.oversizeTest
  dsimp only
  split <;> exact ⟨rfl, rfl, rfl⟩

theorem autoAdvance_rest (s : State) (i : SlotId) : (s.autoAdvance i).bank = s.bank ∧
    (s.autoAdvance i).block.opened = s.block.opened ∧ (s.autoAdvance i).map = s.map := by
  unfold State.autoAdvance
  dsimp only
  split
  · exact ⟨moveTo_bank _ _ _ (by decide) (by decide), moveTo_opened .., moveTo_map _ _ _ rfl (by decide)⟩
  · exact ⟨rfl, rfl, rfl⟩

theorem atDeclared_rest (s : State) (i : SlotId) : (s.atDeclared i).bank = s.bank ∧
    (s.atDeclared i).block.opened = s.block.opened ∧ (s.atDeclared i).map = s.map := by
  unfold State.atDeclared
  dsimp only
  split
  · rw [noteCheckpoint_bank, noteCheckpoint_block, noteCheckpoint_map]
    exact autoAdvance_rest s i
  · exact autoAdvance_rest s i

/-- A slot that goes to DECLARED and on from there keeps its groups; nothing is counted, and the window is kept. -/
theorem toDeclared_rest (s : State) (i : SlotId) (b : Bool) (c : Option FaultCause) (hd : (s.slot i).decl.isSome = true) :
    (s.toDeclared i b c).bank = s.bank ∧ (s.toDeclared i b c).block.opened = s.block.opened ∧
      (s.toDeclared i b c).map = s.map ∧ (s.toDeclared i b c).posted .state i := by
  rw [State.toDeclared, if_pos hd]
  generalize hw : (s.moveTo i .declared).modSlot i (fun r => { r with heldMark := b, cause := c }) = w
  obtain ⟨a1, a2, a3⟩ := atDeclared_rest (w.oversizeTest i) i
  obtain ⟨o1, o2, o3⟩ := oversizeTest_rest w i
  have w1 : w.bank = s.bank := by rw [← hw]; exact moveTo_bank s i .declared (by decide) (by decide)
  have w2 : w.block.opened = s.block.opened := by rw [← hw]; exact moveTo_opened ..
  have w3 : w.map = s.map := by rw [← hw]; exact moveTo_map s i .declared rfl (by decide)
  have w4 : w.posted .state i := by rw [← hw]; exact (calm_modSlot ..).posted (moveTo_posted _ _ _)
  exact ⟨by rw [a1, o1, w1], by rw [a2, o2, w2], by rw [a3, o3, w3],
    ((calm_oversizeTest ..).trans (calm_atDeclared ..)).posted w4⟩

/-- A SUPERVISED slot that goes to DECLARED waits there with a CHECKPOINT notice (R19). -/
theorem toDeclared_waits (s : State) (i : SlotId) (b : Bool) (c : Option FaultCause) (hd : (s.slot i).decl.isSome = true)
    (hp : (s.slot i).policy = .supervised) :
    ((s.toDeclared i b c).slot i).state = .declared ∧ (s.toDeclared i b c).posted .checkpoint i := by
  rw [State.toDeclared, if_pos hd]
  generalize hw : (s.moveTo i .declared).modSlot i (fun r => { r with heldMark := b, cause := c }) = w
  obtain ⟨o, ho⟩ := oversizeTest_slot w i
  have hs : ((w.oversizeTest i).slot i).state = .declared := by
    rw [ho, ← hw, modSlot_slot_self, moveTo_slot_self]
    exact moved_state .declared s.timers (s.slot i)
  have hpol : ((w.oversizeTest i).slot i).policy = .supervised := by
    rw [ho, ← hw, modSlot_slot_self, moveTo_slot_self]
    exact (moved_policy .declared s.timers (s.slot i)).trans hp
  have e : (w.oversizeTest i).atDeclared i = (w.oversizeTest i).noteCheckpoint i := by
    have ha : (w.oversizeTest i).autoAdvance i = w.oversizeTest i := by
      unfold State.autoAdvance
      exact if_neg fun k => by rw [hpol] at k; exact absurd k.2.1 (by decide)
    unfold State.atDeclared
    rw [ha, if_pos hs]
  rw [e]
  refine ⟨by rw [noteCheckpoint_slot, hs], fun m => (noteCheckpoint_hasSlotNotice ..).2 (Or.inr ⟨rfl, rfl, ?_⟩)⟩
  unfold State.awaiting
  simp [hs, hpol]

/-- A slot that a handle accepted CLOSED takes to DECLARED stays there, or goes on to QUEUED, with its OVERSIZE flag clear. -/
theorem toDeclared_reaches (s : State) (i : SlotId) (hd : (s.slot i).decl.isSome = true) (hs : (s.slot i).state ≠ .declared) :
    ((s.toDeclared i false none).slot i).state = .declared ∨
      (((s.toDeclared i false none).slot i).state = .queued ∧ ((s.toDeclared i false none).slot i).oversize = false) := by
  obtain ⟨d, hd⟩ := Option.isSome_iff_exists.1 hd
  obtain ⟨y, hy, e⟩ := toDeclared_slot s i hd hs
  rw [e]
  split
  · next k =>
    refine Or.inr ⟨moved_state .., ?_⟩
    rw [moved_oversize, if_neg (by decide)]
    exact (hy.oversize.trans (if_neg (by decide))).trans k.2
  · exact Or.inl hy.state

section
variable (h : Closes i s t)
include h

theorem Closes.rest : t.block.opened = s.block.opened ∧ t.bank = s.bank := by
  cases h with
  | seated k e => rw [e]; exact ⟨moveTo_opened .., moveTo_bank _ _ _ (by decide) (by decide)⟩
  | live k e =>
    rw [e]
    exact ⟨moveTo_opened .., moveTo_bank_of _ _ (fun _ => by rw [k]; decide) nofun⟩
  | declared k hd e =>
    obtain ⟨h1, h2, -, -⟩ := toDeclared_rest s i false none hd
    rw [e]; exact ⟨h2, h1⟩
  | stays b hb _ _ _ => exact ⟨by rw [b.block], hb⟩

theorem Closes.posted (hs : (t.slot i).state ≠ (s.slot i).state) : t.posted .state i := by
  cases h with
  | seated k e => rw [e]; exact moveTo_posted _ _ _
  | live k e => rw [e]; exact moveTo_posted _ _ _
  | declared k hd e => rw [e]; exact (toDeclared_rest s i false none hd).2.2.2
  | stays _ _ e _ _ => exact absurd e hs

/-- A handle accepted CLOSED gives a slot no groups. -/
theorem Closes.held (hz : s.heldGroups i = 0) : t.heldGroups i = 0 := by
  cases h with
  | seated k e => rw [e]; exact moveTo_groupless _ _ rfl
  | live k e => rw [e, moveTo_held _ _ rfl (by decide), hz]
  | declared k hd e => rw [e, heldGroups_of_map (toDeclared_rest s i false none hd).2.2.1, hz]
  | stays b _ _ _ _ => rw [heldGroups_of_map b.map, hz]

/-- A slot that a handle accepted CLOSED leaves QUEUED was so before, with nothing changed, or is not OVERSIZE. -/
theorem Closes.queued (hq : (t.slot i).state = .queued) : (t = s ∧ (s.slot i).state = .queued) ∨ (t.slot i).oversize = false := by
  cases h with
  | seated k e => rw [e, moveTo_slot_self, moved_state] at hq; cases hq
  | live k e => rw [e, moveTo_slot_self, moved_state] at hq; cases hq
  | declared k hd e =>
    rw [e] at hq ⊢
    rcases toDeclared_reaches s i hd (by rw [k]; decide) with x | x
    · rw [x] at hq; cases hq
    · exact Or.inr x.2
  | stays _ _ e same _ =>
    rw [hq] at e
    exact Or.inl ⟨same (by rw [← e]; exact ⟨by decide, by decide⟩), e.symm⟩

theorem Closes.precharge (hp : (t.slot i).state = .precharge) : t = s := by
  cases h with
  | seated k e => rw [e, moveTo_slot_self, moved_state] at hp; cases hp
  | live k e => rw [e, moveTo_slot_self, moved_state] at hp; cases hp
  | declared k hd e =>
    rw [e] at hp
    rcases toDeclared_reaches s i hd (by rw [k]; decide) with x | x
    · rw [x] at hp; cases hp
    · rw [x.1] at hp; cases hp
  | stays _ _ e same _ => exact same (by rw [← e, hp]; exact ⟨by decide, by decide⟩)

end

theorem handleClosed_waits (hs : (s.slot i).state = .released) (hd : (s.slot i).decl.isSome = true)
    (hp : (s.slot i).policy = .supervised) : (s.handleClosed i).posted .checkpoint i := by
  have e : s.handleClosed i = s.toDeclared i false none := by simp only [State.handleClosed, hs]
  rw [e]
  exact (toDeclared_waits s i false none hd hp).2

/-- The effect of a handle accepted CLOSED goes by the configuration of the zone alone. -/
theorem handleCloses_congr {z w : Zone} (h : w.quiet = z.quiet) (T : TimerSettings) (r y : Slot) :
    HandleCloses w T r y ↔ HandleCloses z T r y := by
  have e1 : w.capA = z.capA := (congrArg Zone.capA h :)
  have e2 : w.capB = z.capB := (congrArg Zone.capB h :)
  have e3 : w.margin = z.margin := (congrArg Zone.margin h :)
  have e4 : w.current = z.current := (congrArg Zone.current h :)
  unfold HandleCloses
  rw [e1, e2, e3, e4]

end Sys2Proof.Machine
end

section
/-! # The sample report with a handle change, and with two (R35, R44, R180) -/

namespace Sys2Proof.Machine

variable {s t u v : State} {i : SlotId}

/-- The state once a report's levels have been handed on and one handle change entered, where another may follow. -/
def State.turned (i : SlotId) (closed : Bool) (s : State) : State :=
  (s.modSlot i fun v => { v with lines := v.lines.take (s.slot i).lines.report }).enterHandles i [closed]

theorem turned_slot (s : State) (i : SlotId) (c : Bool) : (s.turned i c).slot i = (s.slot i).turned c := by
  show ((s.modSlot i _).modSlot i (Slot.enterHandle c)).slot i = _
  rw [modSlot_slot_self, modSlot_slot_self]
  rfl

theorem turned_rest (s : State) (i : SlotId) (c : Bool) : (s.turned i c).block = s.block ∧ (s.turned i c).bank = s.bank ∧
    (s.turned i c).map = s.map ∧ ∀ z, (s.turned i c).zone z = s.zone z := by
  obtain ⟨hb, hk, hm, hz⟩ := enterHandles_rest
    (s.modSlot i fun v => { v with lines := v.lines.take (s.slot i).lines.report }) i [c]
  exact ⟨hb, hk, hm, fun z => (hz z).trans (modSlot_zone ..)⟩

theorem turned_frame (s : State) (i : SlotId) (c : Bool) : Local i s (s.turned i c) ∧ Calm s (s.turned i c) :=
  ⟨(local_modSlot ..).trans (enterHandles_frame ..).1, (calm_modSlot ..).trans (enterHandles_frame ..).2⟩

theorem entered_handle_slot (s : State) (i : SlotId) (c : Bool) : (s.enterHandles i [c]).slot i = (s.slot i).enterHandle c :=
  modSlot_slot_self ..

/-- What a report with one handle change is, where neither presence nor overcurrent acts. -/
theorem turned_handedOn {c : Bool} (h : (s.slot i).lines.report.handleMoves (s.slot i).lines.handed.handleClosed = [c]) :
    s.turned i c = s.handedOn i (s.slot i).lines.report := by
  unfold State.turned State.handedOn
  rw [h]

/-- A report after whose steps the slot stands in no queue, or whose event leaves the zones as they are, is taken with
nothing of the slot in its event's end. -/
theorem takeReport_queueSound (hq : s.QueueSound) (hd : (s.slot i).lines.reportDue = true) : (s.takeReport i).QueueSound := by
  rcases reportPlaces_takeReport (a := False) s i hd with ⟨⟨L, -, h, -⟩, -⟩ | ⟨u, -, h, -, L, -, k, -⟩
  · exact h.queueSound hq
  · exact k.queueSound (h.queueSound hq)

theorem not_completes_of (hz : ∀ q, (s.slot i).state = .precharge → (s.zone (zoneOf i)).precharge = some q →
    q.holder = i → q.count < 2 ∨ (s.slot i).lines.handed.pg = false) : s.completes i = false := by
  unfold State.completes
  split
  · next q h =>
    by_contra hc
    simp only [Bool.not_eq_false, Bool.and_eq_true, decide_eq_true_eq] at hc
    obtain ⟨⟨⟨h1, h2⟩, h3⟩, h4⟩ := hc
    rcases hz q h1 h h2 with k | k
    · omega
    · rw [k] at h4; cases h4
  · rfl

/-- The handle changes of a report that ends where it did not begin: one, to the level it carries. -/
theorem handleMoves_change {p : LineReport} {was : Bool} (h : p.levels.handleClosed = !was) :
    p.handleMoves was = [!was] := by
  unfold LineReport.handleMoves
  rw [h]
  cases p.surveyEnd with
  | none => simp
  | some e => cases he : e.handleClosed <;> cases was <;> simp [he]

/-- The handle changes of a report whose level at the end of the survey is neither that before nor that after: two. -/
theorem handleMoves_back {p : LineReport} {e : Levels} {was : Bool} (he : p.surveyEnd = some e) (h1 : e.handleClosed = !was)
    (h2 : p.levels.handleClosed = was) : p.handleMoves was = [!was, was] := by
  unfold LineReport.handleMoves
  rw [he, h2]
  cases was <;> simp [h1]

/-- A report that closes the handle where nothing else acts. -/
theorem reportLines_one {c : Bool} (hp : (s.slot i).lines.accepted.presence = (s.slot i).lines.handed.presence)
    (ho : ¬ ((s.slot i).lines.reportOc = true ∧ (s.slot i).state.isPowered = true))
    (hm : (s.slot i).lines.report.handleMoves (s.slot i).lines.handed.handleClosed = [c]) :
    s.reportLines i (s.slot i).lines.report =
      if c then (s.turned i c).handleClosed i else (s.turned i c).handleOpened i := by
  rw [reportLines_acts hp ho, hm, actOnHandle_one]
  rfl

theorem reportLines_two {a b : Bool} (hp : (s.slot i).lines.accepted.presence = (s.slot i).lines.handed.presence)
    (ho : ¬ ((s.slot i).lines.reportOc = true ∧ (s.slot i).state.isPowered = true))
    (hm : (s.slot i).lines.report.handleMoves (s.slot i).lines.handed.handleClosed = [a, b]) :
    s.reportLines i (s.slot i).lines.report =
      ((if a then (s.turned i a).handleClosed i else (s.turned i a).handleOpened i).actOnHandle i [b]) := by
  rw [reportLines_acts hp ho, hm, actOnHandle_two, actOnHandle_one]
  rfl

theorem reportOc_of {r : Slot} (h : r.lines.reportOc = false ∨ r.state.isPowered = false) :
    ¬ (r.lines.reportOc = true ∧ r.state.isPowered = true) := by
  rintro ⟨h1, h2⟩
  rcases h with h | h
  · rw [h] at h1; cases h1
  · rw [h] at h2; cases h2

/-- A report whose last step on the slot is a handle accepted OPEN. -/
theorem takeReport_opens {b : State} (hq : s.QueueSound) (hd : (s.slot i).lines.reportDue = true)
    (hl : s.reportLines i (s.slot i).lines.report = b.handleOpened i) (ho : b.block.opened = s.block.opened)
    (hk : b.bank = s.bank) :
    let t := s.settle (s.takeReport i)
    QuietEvent i s t ∧ t.slot i = (b.handleOpened i).slot i ∧ t.inQueue i = false ∧
      t.heldGroups i = (b.handleOpened i).heldGroups i ∧ (∀ k, (b.handleOpened i).posted k i → t.posted k i) ∧
      (∀ x : ChangeEntry, x.slot = i → (x ∈ t.block.list ↔ x ∈ (b.handleOpened i).block.list)) ∧
      ((∀ p, ((b.handleOpened i).zone (zoneOf i)).precharge = some p → p.holder ≠ i) →
        ∀ p, (t.zone (zoneOf i)).precharge = some p → p.holder ≠ i) := by
  intro t
  have o := handleOpened_opens b i
  have n := reportPg_noted (completes_of_state o.ne_queued.2) ((s.slot i).lines.report.losesPg (s.slot i).lines.handed.pg)
  rw [← hl, ← takeReport_eq, hl] at n
  have hn : (s.takeReport i).inQueue i = false :=
    QueueSound.notIn (takeReport_queueSound hq hd) (by rw [n.slot]; exact o.ne_queued.1)
  have e := settled s hn
  obtain ⟨ro, rk⟩ := o.rest
  exact ⟨quietEvent_settle (takeReport_frame s i).2 (takeReport_frame s i).1 (by rw [n.block, ro, ho]) (by rw [n.bank, rk, hk]),
    by rw [e.slot, n.slot], e.inQueue, by rw [e.held, heldGroups_of_map n.map], fun k hp => e.posted _ (n.calm.posted hp),
    fun x hx => by rw [e.listed x hx, n.block],
    fun h => settle_channel s hn _ fun p hp => h p (by rwa [n.zone] at hp)⟩

/-- A report whose last step on the slot is a handle accepted CLOSED, and which completes no precharge. -/
theorem takeReport_closes {b : State} (hq : s.QueueSound) (hd : (s.slot i).lines.reportDue = true)
    (hl : s.reportLines i (s.slot i).lines.report = b.handleClosed i) (ho : b.block.opened = s.block.opened)
    (hk : b.bank = s.bank) (hc : (b.handleClosed i).completes i = false)
    (hb : (b.slot i).state = .queued → ∀ z, b.zone z = s.zone z) :
    let t := s.settle (s.takeReport i)
    QuietEvent i s t ∧ Rests s.timers ((b.handleClosed i).slot i) (t.slot i) ∧
      (((b.handleClosed i).slot i).state = (b.slot i).state → t.slot i = (b.handleClosed i).slot i) ∧
      t.heldGroups i = (b.handleClosed i).heldGroups i ∧ ∀ k, (b.handleClosed i).posted k i → t.posted k i := by
  intro t
  have o := handleClosed_closes b i
  have n := reportPg_noted hc ((s.slot i).lines.report.losesPg (s.slot i).lines.handed.pg)
  rw [← hl, ← takeReport_eq, hl] at n
  have hqs := takeReport_queueSound hq hd
  have still (h : ((b.handleClosed i).slot i).state = .queued → (b.slot i).state = .queued) :
      t.slot i = (b.handleClosed i).slot i := by
    by_cases k : ((b.handleClosed i).slot i).state = .queued
    · have e : b.handleClosed i = b := by simp only [State.handleClosed, h k]
      have hz : ∀ z, (s.takeReport i).zone z = s.zone z := fun z => by rw [n.zone, e, hb (h k)]
      rw [show t = s.takeReport i from settle_of_zones (hz .one) (hz .two), n.slot]
    · have hn : (s.takeReport i).inQueue i = false := QueueSound.notIn hqs (by rw [n.slot]; exact k)
      rw [(settled s hn).slot, n.slot]
  obtain ⟨ro, rk⟩ := o.rest
  refine ⟨quietEvent_settle (takeReport_frame s i).2 (takeReport_frame s i).1 (by rw [n.block, ro, ho]) (by rw [n.bank, rk, hk]),
    ?_, fun h => still fun k => by rw [← h]; exact k, by rw [settle_held, heldGroups_of_map n.map],
    fun k hp => settle_posted s (n.calm.posted hp)⟩
  by_cases k : ((b.handleClosed i).slot i).state = .queued
  · rcases o.queued k with ⟨e, hs⟩ | hov
    · exact Or.inl (still fun _ => hs)
    · have := settle_rests s hqs s.timers (j := i) (by rw [n.slot]; exact hov)
      rwa [n.slot] at this
  · exact Or.inl (still fun h => absurd h k)

/-- Settles O16. -/
theorem handleOpenStartsRemoval : Obligations.HandleOpenStartsRemoval := by
  intro s i r hq hd hp hoc hwas
  have ho := reportOc_of hoc
  have lg := logged_takeReport s i
  refine ⟨fun hnow => ?_, fun e he hc hnow => ?_⟩
  · have hm : r.lines.report.handleMoves r.lines.handed.handleClosed = [false] := by
      have := handleMoves_change (p := r.lines.report) (was := r.lines.handed.handleClosed) (by rw [hwas]; exact hnow)
      rwa [hwas] at this ⊢
    have hl := reportLines_one hp ho hm
    rw [if_neg (by decide)] at hl
    obtain ⟨tb, tk, tm, tz⟩ := turned_rest s i false
    obtain ⟨tl, tc⟩ := turned_frame s i false
    have ts : (s.turned i false).slot i = r.reported := by rw [turned_handedOn hm]; exact handedOn_slot ..
    generalize s.turned i false = b at *
    have o := handleOpened_opens b i
    obtain ⟨q, slot, inq, held, post, listed, chan⟩ := takeReport_opens hq hd hl (by rw [tb]) tk
    have hs : (b.slot i).state = r.state := by rw [ts]; rfl
    have hw : b.holdsWindow i = s.holdsWindow i := by unfold State.holdsWindow; rw [tb]
    have opens := handleOpened_slot b i
    rw [hw, tc.timers, ts, ← slot] at opens
    have moved (hne : ((b.handleOpened i).slot i).state ≠ (b.slot i).state)
        (hg : ((b.handleOpened i).slot i).state.groupless = true) := o.freed hne hg
    refine ⟨_, exec_sampleReport hd, q, (lg.one false hm).2.2, opens, fun h => ?_, fun h => ?_, fun h => ?_, fun h h' => ?_⟩
    · exact post _ (o.posted (by rwa [slot, ← hs] at h))
    · have e : b.handleOpened i = b.moveTo i .released := by
        unfold State.handleOpened
        rcases h with h | h | h <;> simp only [hs.trans h]
      refine ⟨?_, inq⟩
      rw [held, e]
      exact moveTo_groupless _ _ rfl
    · have e : b.handleOpened i = b.moveTo i .poweringDown := by
        unfold State.handleOpened
        rcases h with h | h | h | h | h <;> simp only [hs.trans h]
      obtain ⟨f1, f2, f3⟩ := moved (by
        rw [e, moveTo_slot_self, moved_state, hs]
        rcases h with h | h | h | h | h <;> rw [h] <;> decide) (by rw [e, moveTo_slot_self, moved_state]; rfl)
      exact ⟨by rw [held]; exact f1, fun x hx hxi => f2 x ((listed x hxi).1 hx) hxi, chan f3⟩
    · rw [slot] at h'
      exact post _ (o.drained (by rw [h', hs, h]; decide) h')
  · have hm : r.lines.report.handleMoves r.lines.handed.handleClosed = [false, true] := by
      have := handleMoves_back (p := r.lines.report) (was := r.lines.handed.handleClosed) he (by rw [hwas]; exact hc)
        (by rw [hwas]; exact hnow)
      rwa [hwas] at this ⊢
    have hl := reportLines_two hp ho hm
    rw [if_neg (by decide), actOnHandle_one, if_pos rfl] at hl
    obtain ⟨tb, tk, tm, tz⟩ := turned_rest s i false
    obtain ⟨tl, tc⟩ := turned_frame s i false
    have ts : (s.turned i false).slot i = r.turned false := turned_slot ..
    generalize s.turned i false = a at *
    have o := handleOpened_opens a i
    have oc := calm_handleOpened a i
    obtain ⟨oo, ok⟩ := o.rest
    have hw : a.holdsWindow i = s.holdsWindow i := by unfold State.holdsWindow; rw [tb]
    have opens := handleOpened_slot a i
    rw [hw, tc.timers, ts] at opens
    have hs : (a.slot i).state = r.state := by rw [ts]; rfl
    generalize a.handleOpened i = x at *
    obtain ⟨eb, ek, em, ez⟩ := enterHandles_rest x i [true]
    have ec := (enterHandles_frame x i [true]).2
    have es : (x.enterHandles i [true]).slot i = (x.slot i).enterHandle true := entered_handle_slot ..
    have held_x : (x.enterHandles i [true]).heldGroups i = x.heldGroups i := heldGroups_of_map em i
    generalize x.enterHandles i [true] = y at *
    have k := handleClosed_closes y i
    have ys : (y.slot i).state = (x.slot i).state := by rw [es]; rfl
    have hc2 : (y.handleClosed i).completes i = false := completes_of_state fun h => by
      have := k.precharge h
      rw [this, ys] at h
      exact o.ne_queued.2 h
    have calm_y : Calm s y := (tc.trans oc).trans ec
    have closes := handleClosed_slot y i
    rw [es, calm_y.timers, handleCloses_congr (calm_y.zone (zoneOf i))] at closes
    obtain ⟨q, rests, -, held, post⟩ := takeReport_closes hq hd hl (by rw [eb, oo, tb]) (by rw [ek, ok, tk]) hc2
      (fun h => absurd (ys ▸ h) o.ne_queued.1)
    refine ⟨_, x.slot i, (y.handleClosed i).slot i, exec_sampleReport hd, q, (lg.two _ _ hm).1, opens, closes, rests,
      fun h => ?_, fun h1 h2 => ?_, fun h1 h2 => ?_⟩
    · refine post _ ?_
      by_cases hk : ((y.handleClosed i).slot i).state = (y.slot i).state
      · have hx : (x.slot i).state ≠ (a.slot i).state := by
          rw [hs]; exact h.resolve_right fun n => n (hk.trans ys)
        exact (calm_handleClosed ..).posted (ec.posted (o.posted hx))
      · exact k.posted hk
    · rw [held]
      exact k.held (held_x.trans (o.freed (by rwa [hs]) h2).1)
    · exact post _ ((calm_handleClosed ..).posted (ec.posted (o.drained (by rw [h1, hs]; exact Ne.symm h2) h1)))

/-- Settles O17. -/
theorem handleCloseTakesRemovalBack : Obligations.HandleCloseTakesRemovalBack := by
  intro s i r z hq hd hp hoc hwas
  have ho := reportOc_of hoc
  have lg := logged_takeReport s i
  refine ⟨fun hnow hpg => ?_, fun e he hc hnow => ?_⟩
  · have hm : r.lines.report.handleMoves r.lines.handed.handleClosed = [true] := by
      have := handleMoves_change (p := r.lines.report) (was := r.lines.handed.handleClosed) (by rw [hwas]; exact hnow)
      rwa [hwas] at this ⊢
    have hl := reportLines_one hp ho hm
    rw [if_pos rfl] at hl
    obtain ⟨tb, tk, tm, tz⟩ := turned_rest s i true
    obtain ⟨tl, tc⟩ := turned_frame s i true
    have ts : (s.turned i true).slot i = r.reported := by rw [turned_handedOn hm]; exact handedOn_slot ..
    generalize s.turned i true = b at *
    have k := handleClosed_closes b i
    have hs : (b.slot i).state = r.state := by rw [ts]; rfl
    have closes := handleClosed_slot b i
    rw [ts, tc.timers, tz] at closes
    have hc2 : (b.handleClosed i).completes i = false := by
      by_cases h : ((b.handleClosed i).slot i).state = .precharge
      · have e := k.precharge h
        rw [e] at h ⊢
        refine not_completes_of fun q _ hz' hh => ?_
        rw [tz] at hz'
        rw [ts]
        exact hpg q (by rw [← hs]; exact h) hz' hh
      · exact completes_of_state h
    obtain ⟨q, rests, same, held, post⟩ := takeReport_closes hq hd hl (by rw [tb]) tk hc2 (fun _ => tz)
    refine ⟨_, (b.handleClosed i).slot i, exec_sampleReport hd, q, (lg.one true hm).2.2, closes, rests,
      fun h => same (h.trans hs.symm), fun h => post _ (k.posted (by rwa [hs])), fun h1 h2 h3 => post _ ?_⟩
    exact handleClosed_waits (hs.trans h1) (by rw [ts]; exact h2) (by rw [ts]; exact h3)
  · have hm : r.lines.report.handleMoves r.lines.handed.handleClosed = [true, false] := by
      have := handleMoves_back (p := r.lines.report) (was := r.lines.handed.handleClosed) he (by rw [hwas]; exact hc)
        (by rw [hwas]; exact hnow)
      rwa [hwas] at this ⊢
    have hl := reportLines_two hp ho hm
    rw [if_pos rfl, actOnHandle_one, if_neg (by decide)] at hl
    obtain ⟨tb, tk, tm, tz⟩ := turned_rest s i true
    obtain ⟨tl, tc⟩ := turned_frame s i true
    have ts : (s.turned i true).slot i = r.turned true := turned_slot ..
    generalize s.turned i true = a at *
    have k := handleClosed_closes a i
    have kc := calm_handleClosed a i
    obtain ⟨ko, kk⟩ := k.rest
    have hs : (a.slot i).state = r.state := by rw [ts]; rfl
    have closes := handleClosed_slot a i
    rw [ts, tc.timers, tz] at closes
    generalize a.handleClosed i = x at *
    obtain ⟨eb, ek, em, ez⟩ := enterHandles_rest x i [false]
    have ec := (enterHandles_frame x i [false]).2
    have es : (x.enterHandles i [false]).slot i = (x.slot i).enterHandle false := entered_handle_slot ..
    generalize x.enterHandles i [false] = y at *
    have o := handleOpened_opens y i
    have ys : (y.slot i).state = (x.slot i).state := by rw [es]; rfl
    have opens := handleOpened_slot y i
    have hw : y.holdsWindow i = s.holdsWindow i := by unfold State.holdsWindow; rw [eb, ko, tb]
    rw [hw, es, ((tc.trans kc).trans ec).timers] at opens
    obtain ⟨q, slot, inq, held, post, listed, chan⟩ := takeReport_opens hq hd hl (by rw [eb, ko, tb]) (by rw [ek, kk, tk])
    rw [← slot] at opens
    refine ⟨_, x.slot i, exec_sampleReport hd, q, (lg.two _ _ hm).1, closes, opens, fun h => ?_, fun h1 h2 => ?_,
      fun h1 h2 => ?_⟩
    · refine post _ ?_
      by_cases hk : ((y.handleOpened i).slot i).state = (y.slot i).state
      · have hx : (x.slot i).state ≠ (a.slot i).state := by
          rw [hs]; exact h.resolve_right fun n => n (by rw [slot]; exact hk.trans ys)
        exact (calm_handleOpened ..).posted (ec.posted (k.posted hx))
      · exact o.posted hk
    · rw [slot] at h1 h2
      rw [held]
      exact (o.freed (by rwa [ys]) h2).1
    · rw [slot] at h2
      exact post _ (o.drained (by rw [h2, ys]; exact Ne.symm h1) h2)

end Sys2Proof.Machine
end

section
/-! # Manager supervision by strap and timer (R155, R157), and the ends of the slot timers (R12) -/

namespace Sys2Proof.Machine

variable {s t u : State} {i : SlotId} {m : ManagerId}

/-! ## Managers -/

/-- What a change of manager `m` to a state that ends its supervision leaves of the part. -/
structure Unsupervises (m : ManagerId) (st : ManagerState) (s t : State) : Prop where
  record  : (t.manager m).quiet = { (s.manager m).quiet with state := st, pendingPhase := none, timer := .stopped }
  posted  : t.postedShelf .manager
  slots   : ∀ i, t.slot i = { s.slot i with
    steering := if (s.slot i).steering = some m then none else (s.slot i).steering }
  other   : (t.manager (ManagerId.other m)).quiet = (s.manager (ManagerId.other m)).quiet
  notices : ∀ n k i, t.hasSlotNotice n k i ↔ s.hasSlotNotice n k i
  zone    : ∀ z, t.zone z = s.zone z
  map     : t.map = s.map
  block   : t.block = s.block
  bank    : t.bank = s.bank
  ref     : t.ref = s.ref

theorem other_ne (m : ManagerId) : ManagerId.other m ≠ m := by cases m <;> decide

theorem modManager_hasSlotNotice (s : State) (m : ManagerId) (f : Manager → Manager)
    (h : ∀ r, (f r).slotNotices = r.slotNotices) (n : ManagerId) (k : SlotNotice) (i : SlotId) :
    (s.modManager m f).hasSlotNotice n k i ↔ s.hasSlotNotice n k i := by
  unfold State.hasSlotNotice
  rw [modManager_manager]
  split
  · next e => rw [h, e]
  · exact Iff.rfl

theorem modManager_other (s : State) (m : ManagerId) (f : Manager → Manager) :
    (s.modManager m f).manager (ManagerId.other m) = s.manager (ManagerId.other m) := by
  rw [modManager_manager, if_neg (other_ne m)]

theorem setManagerState_quiet (s : State) (m : ManagerId) (st : ManagerState) :
    ((s.setManagerState m st).manager m).quiet = { (s.manager m).quiet with state := st } ∧
    ((s.setManagerState m st).manager (ManagerId.other m)).quiet = (s.manager (ManagerId.other m)).quiet := by
  unfold State.setManagerState
  rw [postShelf_manager, postShelf_manager, modManager_manager_self, modManager_other]
  exact ⟨rfl, rfl⟩

theorem setManagerState_hasSlotNotice (s : State) (m : ManagerId) (st : ManagerState) (n : ManagerId) (k : SlotNotice)
    (i : SlotId) : (s.setManagerState m st).hasSlotNotice n k i ↔ s.hasSlotNotice n k i :=
  (postShelf_hasSlotNotice ..).trans (modManager_hasSlotNotice s m (fun r => { r with state := st }) (fun _ => rfl) n k i)

theorem setManagerState_zone (s : State) (m : ManagerId) (st : ManagerState) (z : ZoneId) :
    (s.setManagerState m st).zone z = s.zone z := (postShelf_zone ..).trans (modManager_zone ..)

theorem setManagerState_posted (s : State) (m : ManagerId) (st : ManagerState) :
    (s.setManagerState m st).postedShelf .manager := postedShelf_postShelf _ _

theorem unsupervises (s : State) (m : ManagerId) (st : ManagerState) :
    Unsupervises m st s (((s.modManager m Manager.unsupervised).dropSteerings m).setManagerState m st) := by
  obtain ⟨q1, q2⟩ := setManagerState_quiet ((s.modManager m Manager.unsupervised).dropSteerings m) m st
  constructor
  · rw [q1, dropSteerings_manager, modManager_manager_self]; rfl
  · exact setManagerState_posted _ _ _
  · intro i
    rw [setManagerState_slot, dropSteerings_slot, modManager_slot]
  · rw [q2, dropSteerings_manager, modManager_other]
  · intro n k i
    rw [setManagerState_hasSlotNotice]
    exact (hasSlotNotice_congr (dropSteerings_manager _ m) n k i).trans
      (modManager_hasSlotNotice s m Manager.unsupervised (fun _ => rfl) n k i)
  · intro z
    rw [setManagerState_zone]
    exact modManager_zone ..
  all_goals cases m <;> rfl

/-- Settles O28. -/
theorem strapAndTimerSetManager : Obligations.StrapAndTimerSetManager := by
  refine ⟨fun s m hr hne => ?_, fun s m c p ht hle => ?_⟩
  · have hex (hz : ∀ z, (s.strapChange m).zone z = s.zone z) : exec (.bayStrapChange m) s = .next (s.strapChange m) := by
      show execBayStrapChange m s = _
      unfold execBayStrapChange
      rw [if_pos ⟨hr, hne⟩]
      exact event_of_zones hz
    let f : Manager → Manager := fun v => { v with bayStrap := (s.manager m).strap }
    have bay : ((s.modManager m f).manager m) = f (s.manager m) := modManager_manager_self ..
    have notes := modManager_hasSlotNotice s m f fun _ => rfl
    have far := modManager_other s m f
    have zones := modManager_zone s m f
    have rest : (s.modManager m f).slots = s.slots ∧ (s.modManager m f).map = s.map ∧ (s.modManager m f).block = s.block ∧
        (s.modManager m f).bank = s.bank ∧ (s.modManager m f).ref = s.ref := by
      cases m <;> exact ⟨rfl, rfl, rfl, rfl, rfl⟩
    have e : s.strapChange m = if (s.manager m).strap then (s.modManager m f).strapPresent m
        else (s.modManager m f).strapAbsent m := rfl
    generalize s.modManager m f = v at *
    obtain ⟨rs, rm, rb, rk, rr⟩ := rest
    cases hs : (s.manager m).strap with
    | false =>
      have g : Unsupervises m .absent v (v.strapAbsent m) := unsupervises v m .absent
      rw [hs, if_neg (by decide)] at e
      rw [← e] at g
      have q := g.record
      rw [bay] at q
      refine ⟨_, hex fun z => (g.zone z).trans (zones z), (congrArg Manager.bayStrap q :).trans hs, fun _ => ⟨(congrArg Manager.state q :),
        (congrArg Manager.timer q :), (congrArg Manager.pendingPhase q :), (congrArg Manager.period q :), g.posted, fun i => ?_⟩,
        nofun, nofun, nofun, by rw [g.other, far], fun n k i => (g.notices n k i).trans (notes n k i),
        fun z => (g.zone z).trans (zones z), g.map.trans rm, g.block.trans rb, g.bank.trans rk, g.ref.trans rr⟩
      rw [g.slots]
      unfold State.slot
      rw [rs]
    | true =>
      rw [hs, if_pos rfl, State.strapPresent, bay] at e
      by_cases ha : (s.manager m).state = .absent
      · rw [if_pos (show (f (s.manager m)).state = .absent from ha)] at e
        obtain ⟨q1, q2⟩ := setManagerState_quiet v m .silent
        have hz := setManagerState_zone v m .silent
        have hn := setManagerState_hasSlotNotice v m .silent
        have hp := setManagerState_posted v m .silent
        have more : (v.setManagerState m .silent).slots = v.slots ∧ (v.setManagerState m .silent).map = v.map ∧
            (v.setManagerState m .silent).block = v.block ∧ (v.setManagerState m .silent).bank = v.bank ∧
            (v.setManagerState m .silent).ref = v.ref := by cases m <;> exact ⟨rfl, rfl, rfl, rfl, rfl⟩
        rw [← e] at q1 q2 hz hn hp more
        rw [bay] at q1
        obtain ⟨ms, mm, mb, mk, mr⟩ := more
        exact ⟨_, hex fun z => (hz z).trans (zones z), (congrArg Manager.bayStrap q1 :).trans hs, nofun,
          fun _ _ => ⟨(congrArg Manager.state q1 :), hp⟩, fun _ n => absurd ha n,
          fun _ => ⟨ms.trans rs, (congrArg Manager.period q1 :), (congrArg Manager.timer q1 :),
            (congrArg Manager.pendingPhase q1 :)⟩, by rw [q2, far], fun n k i => (hn n k i).trans (notes n k i),
          fun z => (hz z).trans (zones z), mm.trans rm, mb.trans rb, mk.trans rk, mr.trans rr⟩
      · rw [if_neg (show (f (s.manager m)).state ≠ .absent from ha)] at e
        refine ⟨_, hex fun z => by rw [e]; exact zones z, ?_⟩
        rw [e, bay]
        exact ⟨hs, nofun, fun _ n => absurd n ha, fun _ _ => rfl, fun _ => ⟨rs, rfl, rfl, rfl⟩, by rw [far], notes, zones,
          rm, rb, rk, rr⟩
  · have g := unsupervises s m .lapsed
    have q := g.record
    refine ⟨s.lapse m, ?_, (congrArg Manager.state q :), (congrArg Manager.timer q :), (congrArg Manager.pendingPhase q :),
      (congrArg Manager.period q :), (congrArg Manager.bayStrap q :), g.posted, g.slots, g.other, g.notices, g.zone, g.map,
      g.block, g.bank, g.ref⟩
    show execSupervisionTimerExpiry m s = _
    unfold execSupervisionTimerExpiry
    rw [if_pos (by rw [ht]; exact decide_eq_true hle)]
    exact event_of_zones g.zone

/-! ## The end of an event and the change list -/

/-- The change list is kept where none of its slots stands in a queue, and no slot joins a queue. -/
structure ListStays (s t : State) : Prop where
  list  : (∀ x ∈ s.block.list, s.inQueue x.slot = false) → t.block.list = s.block.list
  queue : ∀ z e, e ∈ (t.zone z).queue → e ∈ (s.zone z).queue

theorem ListStays.refl (s : State) : ListStays s s := ⟨fun _ => rfl, fun _ _ h => h⟩

theorem ListStays.trans (h : ListStays s t) (k : ListStays t u) : ListStays s u where
  list hs := by
    have e := h.list hs
    exact (k.list fun x hx => inQueue_mono h.queue (hs x (e ▸ hx))).trans e
  queue z e he := h.queue z e (k.queue z e he)

theorem listStays_of (hb : t.block = s.block) (hz : ∀ z, (t.zone z).queue = (s.zone z).queue) : ListStays s t :=
  ⟨fun _ => by rw [hb], fun z e he => by rwa [hz z] at he⟩

/-- A slot of a queue that goes to DECLARED or PRECHARGE had no entry in the list. -/
theorem listStays_moveTo (hi : s.inQueue i = true) {st : SlotState} (hs : st = .declared ∨ st = .precharge) :
    ListStays s (s.moveTo i st) where
  list h := by
    have e : s.block.list.filter (fun x => x.slot ≠ i) = s.block.list :=
      List.filter_eq_self.2 fun x hx => decide_eq_true fun k => by
        have := h x hx
        rw [k, hi] at this
        cases this
    rw [moveTo_block]
    rcases hs with rfl | rfl <;> exact e
  queue z e he := by
    rw [moveTo_queue _ _ _ (by rcases hs with rfl | rfl <;> decide)] at he
    split at he
    · exact (List.mem_filter.1 he).1
    · exact he

theorem listStays_grantTo (z : ZoneId) (hi : s.inQueue i = true) : ListStays s (s.grantTo z i) := by
  unfold State.grantTo
  split
  · exact .refl s
  · refine (listStays_moveTo hi (Or.inr rfl)).trans (listStays_of ?_ fun w => ?_)
    · rw [modZone_block]; exact modZone_block ..
    · rw [modZone_zone]
      split
      · next e => rw [e]; exact setReservation_queue ..
      · exact setReservation_queue ..

/-- The sweep takes slots of the queue alone: the first of them stands there still, whichever went before it. -/
theorem listStays_sweep : ∀ (l : List QueueEntry) (u : State), ListStays s u → (∀ e ∈ l, s.inQueue e.slot = true) →
    ListStays s (l.foldl (fun s e => (s.moveTo e.slot .declared).noteCheckpoint e.slot) u)
  | [], _, k, _ => k
  | e :: l, u, k, h => by
    refine listStays_sweep l _ ⟨fun hs => ?_, fun z x hx => k.queue z x ?_⟩ fun x hx => h x (List.mem_cons_of_mem _ hx)
    · have hk := k.list hs
      rw [noteCheckpoint_block, moveTo_block, ← hk]
      refine List.filter_eq_self.2 fun x hx => decide_eq_true fun eq => ?_
      have := hs x (hk ▸ hx)
      rw [eq, h e (List.mem_cons_self ..)] at this
      cases this
    · rw [noteCheckpoint_zone, moveTo_queue _ _ _ (by decide)] at hx
      split at hx
      · exact (List.mem_filter.1 hx).1
      · exact hx

theorem listStays_examine (s : State) (z : ZoneId) : ListStays s (s.examine z) := by
  have sweep : ListStays s (s.sweepQueue z) := by
    refine listStays_sweep _ s (.refl s) fun e he => ?_
    exact inQueue_iff.2 ⟨z, e, (List.mem_filter.1 he).1, rfl⟩
  unfold State.examine
  refine sweep.trans ?_
  unfold State.testHead
  split
  · next e l h _ => exact listStays_grantTo z (inQueue_iff.2 ⟨z, e, by rw [h]; exact List.mem_cons_self .., rfl⟩)
  · refine listStays_of (modZone_block ..) fun w => ?_
    unfold State.setWait
    rw [modZone_zone]
    split
    · next e => rw [e]
    · rfl

/-- The end of an event keeps the change list where none of its slots stands in a queue. -/
theorem settle_list (before : State) (h : ∀ x ∈ u.block.list, u.inQueue x.slot = false) :
    (before.settle u).block.list = u.block.list := by
  have step (z : ZoneId) (w : State) : ListStays w (w.examineAfter z before) := by
    unfold State.examineAfter
    split
    · exact listStays_examine ..
    · exact .refl w
  have both := (step .one u).trans (step .two _)
  unfold State.settle
  extract_lets w
  split
  · exact both.list h
  · exact both.list h

/-! ## The slot timers -/

theorem due_iff {x : SlotTimer} : x.due = true ↔ ∃ c l, x = .running c l ∧ l ≤ c := by
  cases x with
  | running c l =>
    exact ⟨fun h => ⟨c, l, rfl, of_decide_eq_true h⟩, fun ⟨_, _, e, h⟩ => by cases e; exact decide_eq_true h⟩
  | stopped | expired => exact ⟨nofun, fun ⟨_, _, e, _⟩ => nomatch e⟩

theorem not_due {x : SlotTimer} (h : ∀ c l, x = .running c l → c < l) : ¬ x.due = true := fun k => by
  obtain ⟨c, l, e, hl⟩ := due_iff.1 k
  have := h c l e
  omega

/-- A timer of slot `i` that becomes EXPIRED with a notice of the slot. -/
theorem expires (s : State) (i : SlotId) (f : Slot → Slot) (k : SlotNotice) :
    event (fun s => (s.modSlot i f).postSlot k i) s = .next ((s.modSlot i f).postSlot k i) ∧
    QuietEvent i s ((s.modSlot i f).postSlot k i) ∧ ((s.modSlot i f).postSlot k i).slot i = f (s.slot i) ∧
    ((s.modSlot i f).postSlot k i).posted k i ∧
    (∀ j, j ≠ i → ((s.modSlot i f).postSlot k i).slot j = s.slot j) ∧
    (∀ z, ((s.modSlot i f).postSlot k i).zone z = s.zone z) ∧ ((s.modSlot i f).postSlot k i).map = s.map ∧
    ((s.modSlot i f).postSlot k i).block = s.block := by
  have hz (z : ZoneId) : ((s.modSlot i f).postSlot k i).zone z = s.zone z := by rw [postSlot_zone, modSlot_zone]
  have l : Local i s ((s.modSlot i f).postSlot k i) := (local_modSlot ..).trans (local_postSlot ..)
  exact ⟨event_of_zones hz, quietEvent_of_zones ((calm_modSlot ..).trans (calm_postSlot ..)) l rfl rfl hz,
    modSlot_slot_self .., posted_postSlot _ _ _, l.slots, hz, rfl, rfl⟩

/-- Zones with the same configuration test for OVERSIZE alike (R53). -/
theorem settings_of_quiet {z w : Zone} (h : w.quiet = z.quiet) :
    w.ceiling = z.ceiling ∧ w.margin = z.margin ∧ w.current = z.current := by
  have a : w.capA = z.capA := (congrArg Zone.capA h :)
  have b : w.capB = z.capB := (congrArg Zone.capB h :)
  exact ⟨by unfold Zone.ceiling; rw [a, b], (congrArg Zone.margin h :), (congrArg Zone.current h :)⟩

/-- A discharge that ends in DECLARED leaves its slot there, HELD and awaiting a manager (R7, R151). -/
theorem toDeclared_held (s : State) (i : SlotId) {d : Declaration} (hd : (s.slot i).decl = some d) :
    ((s.toDeclared i true none).slot i).state = .declared ∧ ((s.toDeclared i true none).slot i).heldMark = true ∧
    ((s.toDeclared i true none).slot i).cause = none ∧ ((s.toDeclared i true none).slot i).decl = some d ∧
    (s.toDeclared i true none).posted .checkpoint i ∧
    (((s.toDeclared i true none).slot i).oversize = true ↔ (s.zone (zoneOf i)).ceiling <
      reservationFor d.power (s.zone (zoneOf i)).margin + inrushFor (s.zone (zoneOf i)).current) ∧
    (∀ z, (s.toDeclared i true none).zone z = (s.moveTo i .declared).zone z) ∧
    ((s.toDeclared i true none).slot i).steering = (s.slot i).steering := by
  rw [State.toDeclared, if_pos (by rw [hd]; rfl)]
  generalize hw : (s.moveTo i .declared).modSlot i (fun r => { r with heldMark := true, cause := none }) = w
  have hws : w.slot i = { (s.slot i).moved .declared s.timers with heldMark := true, cause := none } := by
    rw [← hw, modSlot_slot_self, moveTo_slot_self]
  have hc : Calm s w := by rw [← hw]; exact (calm_moveTo ..).trans (calm_modSlot ..)
  have hq : (w.zone (zoneOf i)).quiet = (s.zone (zoneOf i)).quiet := hc.zone _
  have hwd : (w.slot i).decl = some d := by
    rw [hws]
    exact (moved_decl .declared s.timers (s.slot i)).trans (by simpa using hd)
  have ho : (w.oversizeTest i).slot i = { w.slot i with
      oversize := decide ((w.zone (zoneOf i)).ceiling <
        reservationFor d.power (w.zone (zoneOf i)).margin + inrushFor (w.zone (zoneOf i)).current) } := by
    unfold State.oversizeTest
    dsimp only
    split
    · next d' e =>
      rw [hwd] at e
      cases e
      exact modSlot_slot_self ..
    · next e =>
      rw [hwd] at e
      cases e
  obtain ⟨q1, q2, q3⟩ := settings_of_quiet hq
  rw [q1, q2, q3] at ho
  have hz (z : ZoneId) : (w.oversizeTest i).zone z = (s.moveTo i .declared).zone z := by
    rw [(beside_oversizeTest w i).zone, ← hw, modSlot_zone]
  generalize w.oversizeTest i = x at ho hz ⊢
  have held : (x.slot i).heldMark = true := by rw [ho, hws]
  have state : (x.slot i).state = .declared := by rw [ho, hws]; exact moved_state .declared s.timers (s.slot i)
  have e : x.atDeclared i = x.noteCheckpoint i := by
    unfold State.atDeclared
    rw [autoAdvance_blocked (Or.inl held), if_pos state]
  rw [e, noteCheckpoint_slot]
  refine ⟨state, held, by rw [ho, hws], by rw [ho]; exact hwd,
    fun m => (noteCheckpoint_hasSlotNotice ..).2 (Or.inr ⟨rfl, rfl, ?_⟩), by rw [ho]; exact decide_eq_true_iff,
    fun z => by rw [noteCheckpoint_zone, hz], ?_⟩
  · unfold State.awaiting
    simp [state, held]
  · rw [ho, hws]
    exact moved_steering .declared s.timers (s.slot i)

theorem discharge_ends (hq : s.QueueSound) (h : (s.slot i).dischargeTimer.due = true) :
    ∃ t, exec (.dischargeTimerExpiry i) s = .next t ∧ QuietEvent i s t ∧ t.posted .state i ∧
      ((s.slot i).target = .released → Entered .released s.timers (s.slot i) (t.slot i)) ∧
      ((s.slot i).target = .declared → (s.slot i).decl = none → Entered .present s.timers (s.slot i) (t.slot i)) ∧
      (∀ d, (s.slot i).target = .declared → (s.slot i).decl = some d →
        (t.slot i).state = .declared ∧ (t.slot i).heldMark = true ∧ (t.slot i).cause = none ∧
        (t.slot i).decl = some d ∧ t.posted .checkpoint i ∧
        ((t.slot i).oversize = true ↔ (s.zone (zoneOf i)).ceiling <
          reservationFor d.power (s.zone (zoneOf i)).margin + inrushFor (s.zone (zoneOf i)).current)) := by
  have hex : exec (.dischargeTimerExpiry i) s = .next (s.settle (s.endDischarge i)) := if_pos h
  have go (st : SlotState) (h1 : st ≠ .queued) (h2 : st ≠ .live) (h3 : st ≠ .poweringDown) :=
    goes_settle hq (.refl s) (.refl i s) rfl rfl rfl h1 (fun e => absurd e h2) (fun e => absurd e h3)
      (noted_refl i (s.moveTo i st))
  rw [hex]
  cases ht : (s.slot i).target with
  | released =>
    have g := go .released (by decide) (by decide) (by decide)
    have e : s.endDischarge i = s.moveTo i .released := by simp only [State.endDischarge, ht]
    rw [← e] at g
    exact ⟨_, rfl, g.event, g.posted, fun _ => g.entered, nofun, nofun⟩
  | declared =>
    have e : s.endDischarge i = s.toDeclared i true none := by simp only [State.endDischarge, ht]
    cases hd : (s.slot i).decl with
    | none =>
      have g := go .present (by decide) (by decide) (by decide)
      rw [State.toDeclared, if_neg (by simp [hd])] at e
      rw [← e] at g
      exact ⟨_, rfl, g.event, g.posted, nofun, fun _ _ => g.entered, nofun⟩
    | some d =>
      obtain ⟨r1, r2, r3, r4⟩ := toDeclared_rest s i true none (by rw [hd]; rfl)
      obtain ⟨k1, k2, k3, k4, k5, k6, kz, -⟩ := toDeclared_held s i hd
      have hn : (s.toDeclared i true none).inQueue i = false :=
        inQueue_mono (fun z e he => by rwa [kz] at he) (moveTo_unqueued hq (.refl i s) (st := .declared) (by decide))
      rw [e]
      have u := settled s hn
      refine ⟨_, rfl, quietEvent_settle (calm_toDeclared ..) (local_toDeclared ..) r2 r1, u.posted _ r4, nofun, nofun,
        fun d' _ e' => ?_⟩
      cases e'
      rw [u.slot]
      exact ⟨k1, k2, k3, k4, u.posted _ k5, k6⟩

/-- Settles O29. -/
theorem slotTimersExpire : Obligations.SlotTimersExpire := by
  refine ⟨fun s i c l hl => ⟨fun h => ?_, fun h => ?_⟩, fun s i c l hq h hl => discharge_ends hq (due_iff.2 ⟨c, l, h, hl⟩),
    fun s i c l hq h hl => ?_, fun s i => ⟨fun h => if_neg (not_due h), fun h => if_neg (not_due h),
      fun h => if_neg (not_due h), fun h => if_neg (not_due h)⟩⟩
  · obtain ⟨e, k⟩ := expires s i (fun r => { r with declareTimer := .expired }) .declareOverdue
    exact ⟨_, (if_pos (due_iff.2 ⟨c, l, h, hl⟩)).trans e, k⟩
  · obtain ⟨e, k⟩ := expires s i (fun r => { r with drainTimer := .expired }) .drainOverdue
    exact ⟨_, (if_pos (due_iff.2 ⟨c, l, h, hl⟩)).trans e, k⟩
  · have hex : exec (.retryBackoffExpiry i) s = .next (s.settle (s.endBackoff i)) := if_pos (due_iff.2 ⟨c, l, h, hl⟩)
    rw [hex]
    by_cases hg : s.heldGroups i = 0
    · have e : s.endBackoff i = s.modSlot i fun r => { r with backoffTimer := .stopped } := if_pos hg
      have hz (z : ZoneId) : (s.endBackoff i).zone z = s.zone z := by rw [e, modSlot_zone]
      rw [settle_of_zones (hz .one) (hz .two)]
      refine ⟨_, rfl, ?_, fun n => absurd hg n, fun _ => ?_⟩
      · rw [e] at hz ⊢
        exact quietEvent_of_zones (calm_modSlot ..) (local_modSlot ..) rfl rfl hz
      · rw [e]
        exact ⟨modSlot_slot_self .., rfl⟩
    · have e : s.endBackoff i = s.moveTo i .joinWait := if_neg hg
      have g := goes_settle hq (.refl s) (.refl i s) rfl rfl rfl (st := .joinWait) (by decide) nofun nofun
        (noted_refl i (s.moveTo i .joinWait))
      rw [e]
      refine ⟨_, rfl, g.event, fun _ => ⟨g.entered, g.held rfl (by decide), g.posted, fun hl => ?_⟩, fun n => absurd n hg⟩
      have hb : (s.moveTo i .joinWait).block.list = s.block.list.filter (fun x => x.slot ≠ i) ++ [⟨i, .join⟩] := by
        rw [moveTo_block]
        rfl
      rw [settle_list, hb]
      intro x hx
      rw [hb] at hx
      rcases List.mem_append.1 hx with k | k
      · refine inQueue_mono (fun z e he => ?_) (hl x (List.mem_filter.1 k).1)
        rw [moveTo_queue _ _ _ (by decide)] at he
        split at he
        · exact (List.mem_filter.1 he).1
        · exact he
      · rw [List.mem_singleton.1 k]
        exact moveTo_unqueued hq (.refl i s) (by decide)

end Sys2Proof.Machine
end

section
/-! # Feed changes (R61, R75, R76, R78), and what the examination of a head leaves there (R86, R87) -/

namespace Sys2Proof.Machine

variable {s t u v : State} {i j : SlotId} {z : ZoneId} {l : List SlotId}

/-! ## The wait reason of an examined head -/

/-- The wait reason of a zone's head is that of its first finding that fails, and a head that stands there waits. -/
structure State.Attended (z : ZoneId) (t : State) : Prop where
  wait  : (t.zone z).wait = t.headWait z
  waits : (t.zone z).queue ≠ [] → (t.zone z).wait ≠ .none

theorem Zone.Busy.attended {p : Precharge} {n : Nat} (h : (t.zone z).Busy p n) : t.Attended z where
  wait := h.wait.trans (headWait_held h.channel).symm
  waits hq := by rw [h.wait, if_neg hq]; decide

theorem headWait_setWait (s : State) (z : ZoneId) (w : WaitReason) : (s.setWait z w).headWait z = s.headWait z := by
  have demand (i : SlotId) : (s.setWait z w).demand i = s.demand i := by
    have hz : ((s.setWait z w).zone (zoneOf i)).margin = (s.zone (zoneOf i)).margin ∧
        ((s.setWait z w).zone (zoneOf i)).current = (s.zone (zoneOf i)).current := by
      unfold State.setWait
      rw [modZone_zone]
      split
      · next e => rw [e]; exact ⟨rfl, rfl⟩
      · exact ⟨rfl, rfl⟩
    unfold State.demand
    rw [hz.1, hz.2]
    unfold State.setWait
    rw [modZone_slot]
  unfold State.headWait
  simp only [demand]
  unfold State.setWait
  rw [modZone_zone_self]
  rfl

theorem attended_setWait (h : (s.zone z).queue ≠ [] → s.headWait z ≠ .none) : (s.setWait z (s.headWait z)).Attended z where
  wait := by rw [headWait_setWait, State.setWait, modZone_zone_self]
  waits hq := by
    rw [State.setWait, modZone_zone_self] at hq ⊢
    exact h hq

theorem attended_testHead (hq : s.QueueSound) (z : ZoneId) : (s.testHead z).Attended z := by
  unfold State.testHead
  cases hl : (s.zone z).queue with
  | nil => exact attended_setWait fun n => absurd hl n
  | cons e l =>
    cases hw : s.headWait z with
    | none =>
      obtain ⟨d, g⟩ := hq.grantable hl hw
      obtain ⟨hp, -⟩ := grantTo_account g.decl g.zone
      have b : ((s.grantTo z e.slot).zone z).Busy _ _ := ⟨hp, rfl, by rw [grantTo_eq g.decl, modZone_zone_self]; rfl⟩
      exact b.attended
    | channelBusy | protection | budget =>
      show (s.setWait z _).Attended z
      rw [← hw]
      exact attended_setWait fun _ => by rw [hw]; decide

/-- The examination of a head leaves it admitted, or waiting with its reason (R86, R87). -/
theorem attended_examine (hq : s.QueueSound) (z : ZoneId) : (s.examine z).Attended z := by
  unfold State.examine
  exact attended_testHead ((examines_sweepQueue hq z).queueSound hq) z

theorem attended_postShelf (k : ShelfNotice) (h : t.Attended z) : (t.postShelf k).Attended z := by
  have hz : (t.postShelf k).zone z = t.zone z := postShelf_zone ..
  have hw : (t.postShelf k).headWait z = t.headWait z := by
    unfold State.headWait State.demand
    simp only [postShelf_zone, postShelf_slot]
  exact ⟨by rw [hz, hw]; exact h.wait, by rw [hz]; exact h.waits⟩

/-- The end of an event that examined the head of the one zone it changed leaves that head attended. -/
theorem attended_settle {before : State} (hz : ∀ w, w ≠ z → u.zone w = before.zone w) (hq : u.QueueSound) (h : u.Attended z) :
    (before.settle u).Attended z := by
  have k : (u.examineAfter z before).Attended z := by
    unfold State.examineAfter
    split
    · exact attended_examine hq z
    · exact h
  rcases settle_of_zone hz (fun e he => ((hq.member z e.slot).1 ⟨e, he, rfl⟩).2) with e | e
  · rw [e]; exact k
  · rw [e]; exact attended_postShelf _ k

/-! ## A feed change -/

theorem takeFeeds_eq (s : State) (z : ZoneId) : (s.modZone z fun v => { v with healthA := v.lineA.accepted, healthB := v.lineB.accepted }) =
    s.modZone z Zone.takeFeeds := rfl

theorem feedChanged_iff {v : Zone} : v.feedChanged = true ↔ v.lineA.accepted ≠ v.healthA ∨ v.lineB.accepted ≠ v.healthB := by
  simp [Zone.feedChanged]

theorem feedHealthChange_eq (h : (s.zone z).feedChanged = true) :
    exec (.feedHealthChange z) s = .next (s.settle (s.feedChange z)) := by
  show execFeedHealthChange z s = _
  unfold execFeedHealthChange
  rw [if_pos h]
  exact congrArg (fun u => Host.Outcome.next (s.settle u)) (if_pos h)

/-- A feed change that is taken outside the survey. -/
theorem feedChange_eq (hr : s.survey.running = false) :
    s.feedChange z = (s.modZone z Zone.takeFeeds).feedEffects z (s.zone z).protection := by
  unfold State.feedChange
  exact if_neg (by rw [modZone_survey, hr]; decide)

theorem takeFeeds_queueSound (hq : s.QueueSound) : (s.modZone z Zone.takeFeeds).QueueSound :=
  (deeds_modZone (a := False) s z _ rfl rfl).queueSound hq

theorem postShelf_queueSound (hq : s.QueueSound) (k : ShelfNotice) : (s.postShelf k).QueueSound :=
  (deeds_postShelf (a := False) ..).queueSound hq

/-- Settles O25. -/
theorem feedChangeExaminesHead : Obligations.FeedChangeExaminesHead := by
  intro s z hc
  have hex := feedHealthChange_eq (feedChanged_iff.2 hc)
  intro u
  rw [show u = s.modZone z Zone.takeFeeds from takeFeeds_eq s z]
  clear_value u
  refine ⟨fun hr hd => ?_, fun hr => ?_⟩
  · rw [feedChange_eq hr] at hex
    have e : (s.modZone z Zone.takeFeeds).feedEffects z (s.zone z).protection =
        ((s.modZone z Zone.takeFeeds).postShelf .feed).examine z := by
      unfold State.feedEffects
      dsimp only
      rw [if_neg fun k => k.2 (hd.1 k.1), if_neg fun k => k.1 (hd.2 k.2)]
    rw [e] at hex
    refine ⟨_, hex, ((calm_postShelf ..).trans (calm_examine ..)).trans (calm_settle ..),
      ((endOfEvent_postFeed _).trans (endOfEvent_examine ..)).trans (endOfEvent_settle ..),
      fun m => ((calm_examine ..).trans (calm_settle ..)).shelf m _ (postedShelf_postShelf _ _ m), fun hq => ?_⟩
    have hv := postShelf_queueSound (takeFeeds_queueSound (z := z) hq) .feed
    have hz (w : ZoneId) (hw : w ≠ z) :
        (((s.modZone z Zone.takeFeeds).postShelf .feed).examine z).zone w = s.zone w := by
      rw [examine_zone_ne _ hw fun e he => ((hv.member z e.slot).1 ⟨e, he, rfl⟩).2, postShelf_zone, modZone_zone_ne _ _ _ hw]
    have a := attended_settle hz ((examines_examine hv z).queueSound hv) (attended_examine hv z)
    exact ⟨a.wait, a.waits⟩
  · rw [hex]
    have e : s.feedChange z = { s.modZone z Zone.takeFeeds with survey := { s.survey with heldFeed := true } } := by
      unfold State.feedChange
      refine (if_pos (by rw [modZone_survey]; exact hr)).trans ?_
      rw [modZone_survey]
    rw [e]
    have hz (w : ZoneId) : ({ s.modZone z Zone.takeFeeds with survey := { s.survey with heldFeed := true } } : State).zone w =
        (s.modZone z Zone.takeFeeds).zone w := by cases w <;> rfl
    refine congrArg _ (settle_survey hr fun w => ?_)
    rw [hz, modZone_zone]
    split
    · next k => rw [k]; exact needsExamination_of rfl rfl rfl
    · exact needsExamination_self _

/-! ## A zone leaves DARK (R78) -/

/-- A slot that its zone's return from DARK sends on to QUEUED. -/
def Slot.Requeues (r : Slot) : Prop :=
  r.state = .declared ∧ r.cause = some .zoneDark ∧ r.policy = .auto ∧ r.heldMark = false ∧ r.oversize = false

/-- What the slots in `l` of a zone that has left DARK come to. -/
structure Requeued (l : List SlotId) (s t : State) : Prop where
  calm   : Calm s t
  map    : t.map = s.map
  opened : t.block.opened = s.block.opened
  bank   : t.bank = s.bank
  ready  : ∀ i ∈ l, (s.slot i).Requeues → t.slot i = (s.slot i).moved .queued s.timers ∧ t.posted .state i
  rest   : ∀ i, ¬ (i ∈ l ∧ (s.slot i).Requeues) → t.slot i = s.slot i
  queue  : ∀ i, ¬ (i ∈ l ∧ (s.slot i).Requeues) → s.inQueue i = false → t.inQueue i = false

/-- What is done of the zone's return from DARK for one slot. -/
def State.requeue (s : State) (i : SlotId) : State := if (s.slot i).cause = some .zoneDark then s.autoAdvance i else s

theorem requeue_eq (h : (s.zone (zoneOf i)).protection ≠ .dark) :
    ((s.slot i).Requeues ∧ s.requeue i = s.moveTo i .queued) ∨ (¬ (s.slot i).Requeues ∧ s.requeue i = s) := by
  unfold State.requeue State.autoAdvance
  by_cases hr : (s.slot i).Requeues
  · obtain ⟨h1, h2, h3, h4, h5⟩ := hr
    exact Or.inl ⟨⟨h1, h2, h3, h4, h5⟩, by rw [if_pos h2]; exact if_pos ⟨h1, h3, h5, h4, fun k => h k.2⟩⟩
  · refine Or.inr ⟨hr, ?_⟩
    split
    · next hc => exact if_neg fun k => hr ⟨k.1, hc, k.2.1, k.2.2.2.1, k.2.2.1⟩
    · rfl

theorem requeued_refl (s : State) : Requeued [] s s :=
  ⟨.refl s, rfl, rfl, rfl, nofun, fun _ _ => rfl, fun _ _ h => h⟩

theorem requeued_cons (hi : i ∉ l) (hz : (s.zone (zoneOf i)).protection ≠ .dark) (k : Requeued l (s.requeue i) t) :
    Requeued (i :: l) s t := by
  have others (j : SlotId) (hj : j ≠ i) : (j ∈ i :: l ∧ (s.slot j).Requeues) ↔ (j ∈ l ∧ (s.slot j).Requeues) := by
    rw [List.mem_cons, or_iff_right hj]
  rcases requeue_eq hz with ⟨hr, e⟩ | ⟨hr, e⟩ <;> rw [e] at k
  · have near := local_moveTo s i .queued
    have self : t.slot i = (s.moveTo i .queued).slot i := k.rest i fun h => hi h.1
    refine ⟨(calm_moveTo ..).trans k.calm, k.map.trans (moveTo_map _ _ _ rfl (by decide)), k.opened.trans (moveTo_opened ..),
      k.bank.trans (moveTo_bank _ _ _ (by decide) (by decide)), fun j hj hq => ?_, fun j hj => ?_, fun j hj hn => ?_⟩
    · by_cases hji : j = i
      · subst hji
        exact ⟨by rw [self, moveTo_slot_self], k.calm.posted (moveTo_posted _ _ _)⟩
      · have r := k.ready j ((others j hji).1 ⟨hj, hq⟩).1 (by rw [near.slots j hji]; exact hq)
        rwa [near.slots j hji, (calm_moveTo s i .queued).timers] at r
    · have hji : j ≠ i := fun x => hj ⟨by rw [x]; exact List.mem_cons_self, by rw [x]; exact hr⟩
      rw [k.rest j (by rw [near.slots j hji, ← others j hji]; exact hj), near.slots j hji]
    · have hji : j ≠ i := fun x => hj ⟨by rw [x]; exact List.mem_cons_self, by rw [x]; exact hr⟩
      exact k.queue j (by rw [near.slots j hji, ← others j hji]; exact hj) (by rw [near.inQueue hji]; exact hn)
  · have same (j : SlotId) : (j ∈ i :: l ∧ (s.slot j).Requeues) ↔ (j ∈ l ∧ (s.slot j).Requeues) := by
      by_cases hj : j = i
      · subst hj; exact ⟨fun h => absurd h.2 hr, fun h => absurd h.2 hr⟩
      · exact others j hj
    exact ⟨k.calm, k.map, k.opened, k.bank, fun j hj hq => k.ready j ((same j).1 ⟨hj, hq⟩).1 hq,
      fun j hj => k.rest j fun h => hj ((same j).2 h), fun j hj => k.queue j fun h => hj ((same j).2 h)⟩

theorem requeued_foldl : ∀ (l : List SlotId) (s : State), l.Nodup → (∀ i ∈ l, (s.zone (zoneOf i)).protection ≠ .dark) →
    Requeued l s (l.foldl (fun s i => s.requeue i) s)
  | [], s, _, _ => requeued_refl s
  | i :: l, s, hn, hz => by
    obtain ⟨hi, hl⟩ := List.nodup_cons.1 hn
    have calm : Calm s (s.requeue i) := by
      unfold State.requeue
      split
      · exact calm_autoAdvance ..
      · exact .refl s
    refine requeued_cons hi (hz i List.mem_cons_self) (requeued_foldl l _ hl fun j hj => ?_)
    rw [protection_of_calm calm]
    exact hz j (List.mem_cons_of_mem _ hj)

theorem requeued_leaveDark (h : (s.zone z).protection ≠ .dark) : Requeued (slotsOf z) s (s.leaveDark z) :=
  requeued_foldl _ s (slotsOf_nodup z) fun i hi => by rw [mem_slotsOf.1 hi]; exact h

/-- A slot that is not OVERSIZE rests where an event's examinations leave it, or is granted its zone's channel. -/
theorem examined_rests (he : EndOfEvent u v) (hx : Examines u v) (hq : u.QueueSound) (T : TimerSettings)
    (h : (u.slot j).oversize = false) : Rests T (u.slot j) (v.slot j) := by
  rcases he.granted j h with e | e
  · exact Or.inl e
  · rcases (hx.granted hq j).2 e with k | ⟨hs, T', n, k⟩
    · exact Or.inl k
    · rw [k]; exact granted_rests T' T n _ hs

theorem leaveDark_queueSound (hq : s.QueueSound) (z : ZoneId) : (s.leaveDark z).QueueSound := by
  obtain ⟨L, v, d, e, -⟩ := (deedsAt_leaveDark (a := False) s z).run (slotsOf_sorted z)
  exact e.queueSound (d.queueSound hq)

theorem protection_lit {v : Zone} (h : v.lineA.accepted = true ∨ v.lineB.accepted = true) : v.takeFeeds.protection ≠ .dark := by
  unfold Zone.protection Zone.takeFeeds
  rcases h with h | h <;> rw [h]
  · split <;> simp_all
  · split <;> simp_all

/-- A zone that is DARK with an accepted feed has a feed change to take. -/
theorem feedChanged_of_dark {v : Zone} (hd : v.protection = .dark) (h : v.lineA.accepted = true ∨ v.lineB.accepted = true) :
    v.feedChanged = true := by
  rw [feedChanged_iff]
  unfold Zone.protection at hd
  rcases h with h | h <;> rw [h]
  · refine Or.inl fun e => ?_
    rw [← e] at hd
    cases hb : v.healthB <;> simp [hb] at hd
  · refine Or.inr fun e => ?_
    rw [← e] at hd
    cases hb : v.healthA <;> simp [hb] at hd

/-- Settles O27. -/
theorem zoneLeavingDarkRequeuesSlots : Obligations.ZoneLeavingDarkRequeuesSlots := by
  intro s z hq hr hd ha
  have hex := feedHealthChange_eq (feedChanged_of_dark hd ha)
  rw [feedChange_eq hr] at hex
  have hu := takeFeeds_queueSound (z := z) hq
  have lit : ((s.modZone z Zone.takeFeeds).zone z).protection ≠ .dark := by
    rw [modZone_zone_self]; exact protection_lit ha
  have same (i : SlotId) : (s.modZone z Zone.takeFeeds).slot i = s.slot i := modZone_slot ..
  have queue (i : SlotId) : (s.modZone z Zone.takeFeeds).inQueue i = s.inQueue i := by
    cases z <;> rfl
  have rest : (s.modZone z Zone.takeFeeds).map = s.map ∧ (s.modZone z Zone.takeFeeds).block = s.block ∧
      (s.modZone z Zone.takeFeeds).bank = s.bank := ⟨modZone_map .., modZone_block .., modZone_bank ..⟩
  generalize s.modZone z Zone.takeFeeds = u at *
  have e : u.feedEffects z (s.zone z).protection = ((u.postShelf .feed).leaveDark z).examine z := by
    unfold State.feedEffects
    dsimp only
    rw [if_neg fun k => lit k.1, if_pos ⟨lit, hd⟩]
  rw [e] at hex
  have k : Requeued (slotsOf z) (u.postShelf .feed) ((u.postShelf .feed).leaveDark z) :=
    requeued_leaveDark (by rw [postShelf_zone]; exact lit)
  have hv := leaveDark_queueSound (postShelf_queueSound hu .feed) z
  generalize (u.postShelf .feed).leaveDark z = v at *
  have hend : EndOfEvent v (s.settle (v.examine z)) := (endOfEvent_examine ..).trans (endOfEvent_settle ..)
  have hcalm : Calm v (s.settle (v.examine z)) := (calm_examine ..).trans (calm_settle ..)
  have hxam : Examines v (s.settle (v.examine z)) :=
    (examines_examine hv z).trans (examines_settle s ((examines_examine hv z).queueSound hv))
  have slot (i : SlotId) : (u.postShelf .feed).slot i = s.slot i := (postShelf_slot ..).trans (same i)
  refine ⟨_, hex, ?_, ?_, fun i hi h1 h2 h3 h4 h5 => ?_, fun i hi hn => ?_, ?_, ?_, ?_⟩
  · rw [protection_of_calm hcalm, protection_of_calm k.calm, postShelf_zone]; exact lit
  · exact fun m => hcalm.shelf m _ (k.calm.shelf m _ (postedShelf_postShelf _ _ m))
  · obtain ⟨e, hp⟩ := k.ready i (mem_slotsOf.2 hi) (by rw [slot]; exact ⟨h1, h2, h3, h4, h5⟩)
    rw [slot] at e
    have q1 : (v.slot i).state = .queued := by rw [e, moved_state]
    have q2 : (v.slot i).cause = none := by rw [e, moved_cause]; exact if_neg (by decide)
    have q3 : (v.slot i).decl = (s.slot i).decl := by rw [e, moved_decl]; exact if_neg (by decide)
    have q4 : (v.slot i).oversize = false := by rw [e, moved_oversize, if_neg (by decide)]; exact h5
    refine ⟨?_, ?_, ?_, hcalm.posted hp⟩ <;> rcases examined_rests hend hxam hv s.timers q4 with x | ⟨-, x⟩
    · exact Or.inl (by rw [x]; exact q1)
    · exact Or.inr x.state
    · rw [x]; exact q2
    · exact x.cause
    · rw [x]; exact q3
    · exact x.decl.trans q3
  · have hn' : ¬ (i ∈ slotsOf z ∧ ((u.postShelf .feed).slot i).Requeues) := by
      rw [slot, mem_slotsOf]; exact hn
    rw [hend.slots i (k.queue i hn' ?_), k.rest i hn', slot]
    rw [← hi, ← queue]
    unfold State.inQueue
    rw [postShelf_zone1, postShelf_zone2]
  · rw [hend.map, k.map]; exact rest.1
  · rw [hend.opened, k.opened]; exact congrArg WindowBlock.opened rest.2.1
  · rw [hend.bank, k.bank]; exact rest.2.2

end Sys2Proof.Machine
end

section
/-! # A zone enters DARK (R77): its powered slots are isolated, the others are left as they are -/

namespace Sys2Proof.Machine

variable {s t u v w : State} {i j : SlotId} {z : ZoneId} {l : List SlotId}

/-! ## A slot that a part of an event leaves alone -/

/-- A part of an event leaves slot `i` as it is, in no queue, and gives it neither a channel nor an entry of the list. -/
structure Spares (i : SlotId) (u v : State) : Prop where
  slot     : v.slot i = u.slot i
  held     : v.heldGroups i = u.heldGroups i
  posted   : ∀ k, u.posted k i → v.posted k i
  listed   : ∀ x ∈ v.block.list, x.slot = i → x ∈ u.block.list
  closed   : u.block.opened = none → v.block.opened = none
  holds    : u.holdsWindow i = true → v.holdsWindow i = true ∨ v.block.opened = none
  channel  : ∀ z, (∀ p, (u.zone z).precharge = some p → p.holder ≠ i) → ∀ p, (v.zone z).precharge = some p → p.holder ≠ i
  unqueued : v.inQueue i = false

theorem Spares.refl (h : u.inQueue i = false) : Spares i u u :=
  ⟨rfl, rfl, fun _ h => h, fun _ h _ => h, fun h => h, Or.inl, fun _ h => h, h⟩

theorem Spares.trans (h : Spares i u v) (k : Spares i v w) : Spares i u w where
  slot := k.slot.trans h.slot
  held := k.held.trans h.held
  posted n hn := k.posted n (h.posted n hn)
  listed x hx hi := h.listed x (k.listed x hx hi) hi
  closed hc := k.closed (h.closed hc)
  holds hw := (h.holds hw).elim k.holds fun hc => Or.inr (k.closed hc)
  channel z hz := k.channel z (h.channel z hz)
  unqueued := k.unqueued

theorem holdsWindow_of (h : v.block.opened = u.block.opened) : v.holdsWindow i = u.holdsWindow i := by
  unfold State.holdsWindow
  rw [h]

/-- The isolation of another slot. -/
theorem spares_isolate (hj : j ≠ i) (hd : (u.zone (zoneOf j)).protection = .dark) (h : u.inQueue i = false) :
    Spares i u (u.isolate j .zoneDark) := by
  have k := isolates u j (c := .zoneDark) fun _ => hd
  have near : Local j u (u.isolate j .zoneDark) := local_isolate ..
  refine ⟨near.slots i hj.symm, near.held i hj.symm, fun n => (calm_isolate ..).posted, fun x hx e =>
    (near.listed x (e ▸ hj.symm)).1 hx, fun hc => by rw [k.opened]; exact isolateWindow_closed hc, fun hw => ?_,
    fun z hz p hp => ?_, by rw [near.inQueue hj.symm]; exact h⟩
  · unfold State.holdsWindow at hw
    cases ho : u.block.opened with
    | none => rw [ho] at hw; cases hw
    | some x =>
      rw [ho] at hw
      have hx : x.holder = i := of_decide_eq_true hw
      left
      unfold State.holdsWindow
      rw [k.opened, isolateWindow_other ho (by rw [hx]; exact hj.symm)]
      show decide (OpenWindow.holder (ite _ _ _) = i) = true
      split <;> exact decide_eq_true hx
  · rw [k.beside.zone, moveTo_precharge, cutOff_zone] at hp
    split at hp
    · exact hz p (freeFrom_precharge hp)
    · exact hz p hp

theorem spares_postShelf (k : ShelfNotice) (h : u.inQueue i = false) : Spares i u (u.postShelf k) where
  slot := postShelf_slot ..
  held := rfl
  posted _ hn := (calm_postShelf ..).posted hn
  listed _ hx _ := hx
  closed hc := hc
  holds hw := Or.inl (by rw [holdsWindow_of (congrArg WindowBlock.opened (postShelf_block ..))]; exact hw)
  channel z hz p hp := hz p (by rwa [postShelf_zone] at hp)
  unqueued := by
    unfold State.inQueue at h ⊢
    rwa [postShelf_zone1, postShelf_zone2]

/-- The examination of the heads gives a channel only to a slot that stands in a queue. -/
theorem Examines.channel_of (h : Examines u v) : u.QueueSound → u.inQueue i = false →
    v.inQueue i = false ∧ ∀ z, (∀ p, (u.zone z).precharge = some p → p.holder ≠ i) →
      ∀ p, (v.zone z).precharge = some p → p.holder ≠ i := by
  induction h with
  | @rest s t hs hz =>
    refine fun _ h => ⟨inQueue_mono (fun z e he => ?_) h, fun z hp p hq => hp p ?_⟩
    · obtain ⟨w, k⟩ := hz z
      rwa [k] at he
    · obtain ⟨w, k⟩ := hz z
      rwa [k] at hq
  | @sweep s j _ =>
    refine fun _ h => ⟨inQueue_mono (fun z e he => ?_) h, fun z hp p hq => hp p ?_⟩
    · rw [moveTo_queue _ _ _ (by decide)] at he
      split at he
      · exact (List.mem_filter.1 he).1
      · exact he
    · rw [moveTo_precharge] at hq
      split at hq
      · exact freeFrom_precharge hq
      · exact hq
  | @grant s y e l hl hw =>
    intro hq h
    obtain ⟨d, g⟩ := hq.grantable hl hw
    have he : e.slot ≠ i := fun k => by
      have := inQueue_iff.2 ⟨y, e, by rw [hl]; exact List.mem_cons_self, k⟩
      rw [h] at this
      cases this
    refine ⟨inQueue_mono (fun z x hx => ?_) h, fun z hp p hpz => ?_⟩
    · rw [grantTo_queue g.decl] at hx
      split at hx
      · exact (List.mem_filter.1 hx).1
      · exact hx
    · by_cases hz : z = y
      · subst hz
        rw [(grantTo_account g.decl g.zone).1] at hpz
        cases hpz
        exact he
      · rw [grantTo_zone_ne _ g.zone hz] at hpz
        exact hp p hpz
  | trans h1 _ h k =>
    intro hq hi
    obtain ⟨a1, a2⟩ := h hq hi
    obtain ⟨b1, b2⟩ := k (h1.queueSound hq) a1
    exact ⟨b1, fun z hp => b2 z (a2 z hp)⟩

/-- The examination of the heads, at the end of an event and before it. -/
theorem spares_examines (hq : u.QueueSound) (c : Calm u v) (e : EndOfEvent u v) (x : Examines u v) (h : u.inQueue i = false) :
    Spares i u v where
  slot := e.slots i h
  held := heldGroups_of_map e.map i
  posted _ hn := c.posted hn
  listed y hy hi := (e.listed y (hi ▸ h)).1 hy
  closed hc := by rw [e.opened]; exact hc
  holds hw := Or.inl (by rw [holdsWindow_of e.opened]; exact hw)
  channel := (x.channel_of hq h).2
  unqueued := (x.channel_of hq h).1

theorem spares_examine (hq : u.QueueSound) (z : ZoneId) (h : u.inQueue i = false) : Spares i u (u.examine z) :=
  spares_examines hq (calm_examine ..) (endOfEvent_examine ..) (examines_examine hq z) h

theorem spares_settle (before : State) (hq : u.QueueSound) (h : u.inQueue i = false) : Spares i u (before.settle u) :=
  spares_examines hq (calm_settle ..) (endOfEvent_settle ..) (examines_settle before hq) h

/-! ## An isolated slot -/

/-- What slot `i` has come to, that had the record `r` as its zone entered DARK. -/
structure Downed (i : SlotId) (T : TimerSettings) (r : Slot) (t : State) : Prop where
  record   : ∃ h o, t.slot i = r.isolated .zoneDark T h o
  cut      : (t.slot i).Cut
  held     : t.heldGroups i = 0
  fault    : t.posted .fault i
  posted   : t.posted .state i
  listed   : ∀ x ∈ t.block.list, x.slot ≠ i
  channel  : ∀ p, (t.zone (zoneOf i)).precharge = some p → p.holder ≠ i
  unqueued : t.inQueue i = false

variable {T : TimerSettings} {r : Slot}

theorem Downed.spares (d : Downed i T r u) (k : Spares i u v) : Downed i T r v where
  record := by rw [k.slot]; exact d.record
  cut := by rw [k.slot]; exact d.cut
  held := by rw [k.held]; exact d.held
  fault := k.posted _ d.fault
  posted := k.posted _ d.posted
  listed x hx hi := d.listed x (k.listed x hx hi) hi
  channel := k.channel _ d.channel
  unqueued := k.unqueued

theorem downed_isolate (hd : (u.zone (zoneOf i)).protection = .dark) (h : u.inQueue i = false) :
    Downed i u.timers (u.slot i) (u.isolate i .zoneDark) := by
  have k := isolates u i (c := .zoneDark) fun _ => hd
  refine ⟨k.record, k.cut, k.held, k.fault, k.posted, k.listed, k.channel, ?_⟩
  rw [k.beside.inQueue]
  refine inQueue_mono (fun z e he => ?_) h
  rw [moveTo_queue _ _ _ (destination_offHighway .zoneDark _).queued, cutOff_zone] at he
  split at he
  · exact (List.mem_filter.1 he).1
  · exact he

/-! ## The powered slots of a zone -/

/-- The isolation of a slot that has power. -/
def State.darken (s : State) (i : SlotId) : State := if (s.slot i).state.isPowered then s.isolate i .zoneDark else s

theorem calm_darken (s : State) (i : SlotId) : Calm s (s.darken i) := by
  unfold State.darken
  split
  · exact calm_isolate ..
  · exact .refl s

theorem spares_darken (hd : (u.zone (zoneOf j)).protection = .dark) (hi : j ≠ i ∨ (u.slot i).state.isPowered = false)
    (h : u.inQueue i = false) : Spares i u (u.darken j) := by
  unfold State.darken
  split
  · next hp =>
    refine spares_isolate (fun e => ?_) hd h
    subst e
    rcases hi with k | k
    · exact k rfl
    · rw [hp] at k; cases k
  · exact .refl h

theorem spares_foldl : ∀ (l : List SlotId) (u : State), (∀ j ∈ l, (u.zone (zoneOf j)).protection = .dark) →
    (i ∉ l ∨ (u.slot i).state.isPowered = false) → u.inQueue i = false → Spares i u (l.foldl (fun s j => s.darken j) u)
  | [], _, _, _, h => .refl h
  | j :: l, u, hd, hi, h => by
    have k := spares_darken (hd j List.mem_cons_self) (hi.imp_left fun n e => n (e ▸ List.mem_cons_self)) h
    refine k.trans (spares_foldl l _ (fun y hy => ?_) ?_ k.unqueued)
    · rw [protection_of_calm (calm_darken u j)]
      exact hd y (List.mem_cons_of_mem _ hy)
    · exact hi.imp (fun n hl => n (List.mem_cons_of_mem _ hl)) fun hp => by rw [k.slot]; exact hp

theorem darken_closed (hd : (u.zone (zoneOf j)).protection = .dark) (h : u.block.opened = none) :
    (u.darken j).block.opened = none := by
  unfold State.darken
  split
  · rw [(isolates u j (c := .zoneDark) fun _ => hd).opened]
    exact isolateWindow_closed h
  · exact h

theorem foldl_closed : ∀ (l : List SlotId) (u : State), (∀ j ∈ l, (u.zone (zoneOf j)).protection = .dark) →
    u.block.opened = none → (l.foldl (fun s j => s.darken j) u).block.opened = none
  | [], _, _, h => h
  | j :: l, u, hd, h => foldl_closed l _ (fun y hy => by
      rw [protection_of_calm (calm_darken u j)]
      exact hd y (List.mem_cons_of_mem _ hy)) (darken_closed (hd j List.mem_cons_self) h)

/-- A powered slot among them is isolated once, and closes the window if it holds it. -/
theorem downed_foldl (l : List SlotId) : ∀ (u : State), l.Nodup → (∀ j ∈ l, (u.zone (zoneOf j)).protection = .dark) →
    i ∈ l → (u.slot i).state.isPowered = true → u.inQueue i = false →
    Downed i u.timers (u.slot i) (l.foldl (fun s j => s.darken j) u) ∧
    (u.holdsWindow i = true → (l.foldl (fun s j => s.darken j) u).block.opened = none) := by
  induction l with
  | nil => exact fun _ _ _ hi => nomatch hi
  | cons j l ih =>
    intro u hn hd hi hp h
    obtain ⟨hj, hl⟩ := List.nodup_cons.1 hn
    have dark (y : SlotId) (hy : y ∈ l) : ((u.darken j).zone (zoneOf y)).protection = .dark := by
      rw [protection_of_calm (calm_darken u j)]
      exact hd y (List.mem_cons_of_mem _ hy)
    rw [List.foldl_cons]
    by_cases e : j = i
    · subst e
      have d := downed_isolate (hd j List.mem_cons_self) h
      rw [show u.isolate j .zoneDark = u.darken j from (if_pos hp).symm] at d
      have k := spares_foldl l (u.darken j) dark (Or.inl hj) d.unqueued
      refine ⟨d.spares k, fun hw => k.closed ?_⟩
      rw [show u.darken j = u.isolate j .zoneDark from if_pos hp,
        (isolates u j (c := .zoneDark) fun _ => hd j List.mem_cons_self).opened]
      exact isolateWindow_holder hw
    · have k := spares_darken (hd j List.mem_cons_self) (Or.inl e) h
      obtain ⟨d, hw⟩ := ih (u.darken j) hl dark ((List.mem_cons.1 hi).resolve_left (Ne.symm e))
        (by rw [k.slot]; exact hp) k.unqueued
      rw [k.slot, (calm_darken u j).timers] at d
      exact ⟨d, fun h0 => (k.holds h0).elim hw (foldl_closed l _ dark)⟩

/-! ## A zone without power -/

/-- No slot of the zone has power. -/
def State.Unlit (z : ZoneId) (t : State) : Prop := ∀ i, zoneOf i = z → (t.slot i).state.isPowered = false

/-- The examination of the heads admits no slot of a DARK zone. -/
theorem unlit_examines (hq : u.QueueSound) (hd : (u.zone z).protection = .dark) (c : Calm u v) (e : EndOfEvent u v)
    (x : Examines u v) (h : u.Unlit z) : v.Unlit z := by
  intro i hi
  rcases e.swept i with k | k | k
  · rw [k]; exact h i hi
  · have a := x.admitted hq i (fun hp => by have := h i hi; rw [hp] at this; cases this) k
    exact absurd (by rw [hi, protection_of_calm c]; exact hd) a.dark
  · rw [k]; rfl

theorem unlit_settle (before : State) (hq : u.QueueSound) (hd : (u.zone z).protection = .dark) (h : u.Unlit z) :
    (before.settle u).Unlit z :=
  unlit_examines hq hd (calm_settle ..) (endOfEvent_settle ..) (examines_settle before hq) h

theorem booked_unlit (b : t.Booked) (h : t.Unlit z) : (t.zone z).reserved = 0 := by
  rw [b.sums, State.reservations, List.map_congr_left (g := fun _ => 0) fun i hi => b.unpowered i (h i (mem_slotsOf.1 hi))]
  exact (List.sum_map_zero ..)

theorem foldl_slot : ∀ (l : List SlotId) (u : State), i ∉ l ∨ (u.slot i).state.isPowered = false →
    (l.foldl (fun s j => s.darken j) u).slot i = u.slot i
  | [], _, _ => rfl
  | j :: l, u, h => by
    have e : (u.darken j).slot i = u.slot i := by
      unfold State.darken
      split
      · next hp =>
        refine (local_isolate ..).slots i fun k => ?_
        rcases h with h | h
        · exact h (k ▸ List.mem_cons_self)
        · rw [k, hp] at h; cases h
      · rfl
    exact (foldl_slot l (u.darken j) (by rw [e]; exact h.imp_left fun n m => n (List.mem_cons_of_mem _ m))).trans e

theorem foldl_sound : ∀ (l : List SlotId) (u : State), (∀ j ∈ l, (u.zone (zoneOf j)).protection = .dark) → u.QueueSound →
    (l.foldl (fun s j => s.darken j) u).QueueSound ∧ Calm u (l.foldl (fun s j => s.darken j) u)
  | [], u, _, h => ⟨h, .refl u⟩
  | j :: l, u, hd, h => by
    have one : (u.darken j).QueueSound := by
      unfold State.darken
      split
      · next hp => exact (deeds_isolate (a := False) _ (powered_ne_barred hp) fun _ => hd j List.mem_cons_self).queueSound h
      · exact h
    obtain ⟨k, c⟩ := foldl_sound l (u.darken j) (fun y hy => by
      rw [protection_of_calm (calm_darken u j)]; exact hd y (List.mem_cons_of_mem _ hy)) one
    exact ⟨k, (calm_darken u j).trans c⟩

/-! ## What entering DARK leaves of the zone -/

/-- The slots of zone `z` that had power in `w` are isolated, and none has power. -/
structure Blacked (z : ZoneId) (w t : State) : Prop where
  dark   : (t.zone z).protection = .dark
  feed   : t.postedShelf .feed
  downed : ∀ i, zoneOf i = z → (w.slot i).state.isPowered = true →
    Downed i w.timers (w.slot i) t ∧ (w.holdsWindow i = true → t.block.opened = none)
  unlit  : t.Unlit z
  sound  : t.QueueSound
  closed : w.block.opened = none → t.block.opened = none

theorem unqueued_of_powered (hq : u.QueueSound) (h : (u.slot i).state.isPowered = true) : u.inQueue i = false := by
  cases hi : u.inQueue i with
  | false => rfl
  | true =>
    obtain ⟨z, e, he, hs⟩ := inQueue_iff.1 hi
    rw [((hq.member z i).1 ⟨e, he, hs⟩).1] at h
    cases h

theorem zone_dark (hd : (u.zone z).protection = .dark) (j : SlotId) (hj : j ∈ slotsOf z) :
    (u.zone (zoneOf j)).protection = .dark := by rw [mem_slotsOf.1 hj]; exact hd

theorem enterDark_eq (u : State) (z : ZoneId) :
    u.enterDark z = (((slotsOf z).foldl (fun s j => s.darken j) u).postShelf .feed).examine z := rfl

theorem calm_darkens (hq : u.QueueSound) (hd : (u.zone z).protection = .dark) : Calm u (u.enterDark z) :=
  ((foldl_sound (slotsOf z) u (zone_dark hd) hq).2.trans (calm_postShelf ..)).trans (calm_examine ..)

theorem enterDark_closed (hd : (u.zone z).protection = .dark) (h : u.block.opened = none) :
    (u.enterDark z).block.opened = none := by
  rw [enterDark_eq, (endOfEvent_examine ..).opened, postShelf_block]
  exact foldl_closed _ u (zone_dark hd) h

/-- The slots that have no power, and those of the other zone, are left as they are. -/
theorem enterDark_spares (hq : u.QueueSound) (hd : (u.zone z).protection = .dark)
    (hi : zoneOf i ≠ z ∨ (u.slot i).state.isPowered = false) (h : u.inQueue i = false) : Spares i u (u.enterDark z) := by
  rw [enterDark_eq]
  have k := spares_foldl (slotsOf z) u (zone_dark hd) (hi.imp_left fun n m => n (mem_slotsOf.1 m)) h
  have p := spares_postShelf .feed k.unqueued
  exact (k.trans p).trans
    (spares_examine (postShelf_queueSound (foldl_sound (slotsOf z) u (zone_dark hd) hq).1 .feed) z p.unqueued)

theorem blacked_enterDark (hq : u.QueueSound) (hd : (u.zone z).protection = .dark) : Blacked z u (u.enterDark z) := by
  obtain ⟨sound, calm⟩ := foldl_sound (slotsOf z) u (zone_dark hd) hq
  have dark : ((((slotsOf z).foldl (fun s j => s.darken j) u).postShelf .feed).zone z).protection = .dark := by
    rw [postShelf_zone, protection_of_calm calm]; exact hd
  have sound' := postShelf_queueSound sound .feed
  have down (i : SlotId) (hi : zoneOf i = z) (hp : (u.slot i).state.isPowered = true) :=
    downed_foldl (slotsOf z) u (slotsOf_nodup z) (zone_dark hd) (mem_slotsOf.2 hi) hp (unqueued_of_powered hq hp)
  rw [enterDark_eq]
  refine ⟨?_, fun m => (calm_examine ..).shelf m _ (postedShelf_postShelf _ _ m), fun i hi hp => ?_, ?_,
    (examines_examine sound' z).queueSound sound', enterDark_closed hd⟩
  · rw [protection_of_calm (calm_examine ..)]; exact dark
  · obtain ⟨d, hw⟩ := down i hi hp
    have p := spares_postShelf .feed d.unqueued
    have k := p.trans (spares_examine sound' z p.unqueued)
    exact ⟨d.spares k, fun h => k.closed (hw h)⟩
  · refine unlit_examines sound' dark (calm_examine ..) (endOfEvent_examine ..) (examines_examine sound' z) fun i hi => ?_
    rw [postShelf_slot]
    cases hp : (u.slot i).state.isPowered with
    | false => rw [foldl_slot _ _ (Or.inr hp)]; exact hp
    | true =>
      obtain ⟨h, o, e⟩ := (down i hi hp).1.record
      rw [e, isolated_state]
      exact (destination_offHighway ..).power

/-! ## What comes after it -/

/-- A part of an event that leaves the slots of zone `z` alone, and its feeds. -/
structure Passes (z : ZoneId) (u v : State) : Prop where
  spare  : ∀ i, zoneOf i = z → u.inQueue i = false → Spares i u v
  unlit  : (u.zone z).protection = .dark → u.Unlit z → v.Unlit z
  sound  : v.QueueSound
  feeds  : (v.zone z).protection = (u.zone z).protection ∧ (v.zone z).darkAtSurveyEnd = (u.zone z).darkAtSurveyEnd
  shelf  : ∀ m k, u.hasShelfNotice m k → v.hasShelfNotice m k
  closed : u.block.opened = none → v.block.opened = none

theorem Blacked.passes {w : State} (b : Blacked z w u) (k : Passes z u v) : Blacked z w v where
  dark := k.feeds.1.trans b.dark
  feed m := k.shelf m _ (b.feed m)
  downed i hi hp := by
    obtain ⟨d, hw⟩ := b.downed i hi hp
    have sp := k.spare i hi d.unqueued
    exact ⟨d.spares sp, fun h => sp.closed (hw h)⟩
  unlit := k.unlit b.dark b.unlit
  sound := k.sound
  closed h := k.closed (b.closed h)

theorem feeds_of_calm (c : Calm u v) (z : ZoneId) :
    (v.zone z).protection = (u.zone z).protection ∧ (v.zone z).darkAtSurveyEnd = (u.zone z).darkAtSurveyEnd :=
  ⟨protection_of_calm c z, (congrArg Zone.darkAtSurveyEnd (c.zone z) :)⟩

theorem passes_settle (before : State) (hq : u.QueueSound) : Passes z u (before.settle u) where
  spare _ _ h := spares_settle before hq h
  unlit := unlit_settle before hq
  sound := (examines_settle before hq).queueSound hq
  feeds := feeds_of_calm (calm_settle ..) z
  shelf := (calm_settle ..).shelf
  closed h := by rw [settle_opened]; exact h

theorem takeTick_notices (u : State) : (∀ m k i, u.hasSlotNotice m k i → u.takeTick.hasSlotNotice m k i) ∧
    ∀ m k, u.hasShelfNotice m k → u.takeTick.hasShelfNotice m k := by
  cases hh : u.block.hand with
  | none => rw [takeTick_none u hh]; exact ⟨fun _ _ _ h => h, fun _ _ h => h⟩
  | some t =>
    rw [takeTick_some u hh]
    have same (m : ManagerId) : ({ u.beforeBank t with bank := (u.beforeBank t).bank.tick } : State).manager m = u.manager m := by
      cases m <;> rfl
    have slot (m : ManagerId) (k : SlotNotice) (i : SlotId) (h : u.hasSlotNotice m k i) :
        ({ u.beforeBank t with bank := (u.beforeBank t).bank.tick } : State).hasSlotNotice m k i := by
      unfold State.hasSlotNotice at h ⊢; rwa [same]
    have shelf (m : ManagerId) (k : ShelfNotice) (h : u.hasShelfNotice m k) :
        ({ u.beforeBank t with bank := (u.beforeBank t).bank.tick } : State).hasShelfNotice m k := by
      unfold State.hasShelfNotice at h ⊢; rwa [same]
    rcases tickBank_eq (u.beforeBank t) with e | e <;> rw [e]
    · exact ⟨slot, shelf⟩
    · exact ⟨fun m k i h => (calm_postShelf ..).notices m k i (slot m k i h),
        fun m k h => (calm_postShelf ..).shelf m k (shelf m k h)⟩

/-- The window that a tick leaves open has the holder it had. -/
theorem takeTick_window (u : State) : u.takeTick.block.opened.map OpenWindow.holder = u.block.opened.map OpenWindow.holder := by
  cases hh : u.block.hand with
  | none => rw [takeTick_none u hh]
  | some t =>
    rw [takeTick_block u hh]
    show (u.block.opened.map _).map OpenWindow.holder = _
    rw [Option.map_map]
    rfl

theorem holdsWindow_iff (u : State) (i : SlotId) : u.holdsWindow i = true ↔ u.block.opened.map OpenWindow.holder = some i := by
  unfold State.holdsWindow
  cases u.block.opened with
  | none => simp
  | some w => simp

theorem takeTick_closed (h : u.block.opened = none) : u.takeTick.block.opened = none := by
  have := takeTick_window u
  rw [h] at this
  exact Option.map_eq_none_iff.1 this

theorem passes_takeTick (hq : u.QueueSound) : Passes z u u.takeTick where
  spare i _ h :=
    { slot := takeTick_slot ..
      held := heldGroups_of_map (takeTick_map u) i
      posted := fun k hk m => (takeTick_notices u).1 m k i (hk m)
      listed := fun x hx _ => by rwa [takeTick_list] at hx
      closed := takeTick_closed
      holds := fun hw => Or.inl (by rw [holdsWindow_iff, takeTick_window, ← holdsWindow_iff]; exact hw)
      channel := fun y hp p h => hp p (by rwa [takeTick_zone] at h)
      unqueued := inQueue_mono (fun y e he => by rwa [takeTick_zone] at he) h }
  unlit _ h i hi := by rw [takeTick_slot]; exact h i hi
  sound := (deeds_takeTick (a := False) u).queueSound hq
  feeds := by rw [takeTick_zone]; exact ⟨rfl, rfl⟩
  shelf := (takeTick_notices u).2
  closed := takeTick_closed

/-- Slot `i` is spared where a zone's settings alone change. -/
theorem spares_modZone (y : ZoneId) (f : Zone → Zone) (hf : ∀ v, (f v).queue = v.queue ∧ (f v).precharge = v.precharge)
    (h : u.inQueue i = false) : Spares i u (u.modZone y f) := by
  have hz (x : ZoneId) : ((u.modZone y f).zone x).queue = (u.zone x).queue ∧
      ((u.modZone y f).zone x).precharge = (u.zone x).precharge := by
    rw [modZone_zone]
    split
    · next e => rw [e]; exact hf _
    · exact ⟨rfl, rfl⟩
  refine ⟨modZone_slot .., heldGroups_of_map (modZone_map ..) i, fun k hk m => ?_, fun x hx _ => by rwa [modZone_block] at hx,
    fun hc => by rw [modZone_block]; exact hc, fun hw => Or.inl ?_, fun x hp p hk => hp p (by rwa [(hz x).2] at hk),
    inQueue_mono (fun x e he => by rwa [(hz x).1] at he) h⟩
  · exact (hasSlotNotice_congr (fun n => modZone_manager ..) m k i).2 (hk m)
  · rw [holdsWindow_of (congrArg WindowBlock.opened (modZone_block ..))]; exact hw

theorem Passes.trans (h : Passes z s u) (k : Passes z u v) : Passes z s v where
  spare i hi hn := have a := h.spare i hi hn; a.trans (k.spare i hi a.unqueued)
  unlit hd hu := k.unlit (h.feeds.1.trans hd) (h.unlit hd hu)
  sound := k.sound
  feeds := ⟨k.feeds.1.trans h.feeds.1, k.feeds.2.trans h.feeds.2⟩
  shelf m n hn := k.shelf m n (h.shelf m n hn)
  closed hc := k.closed (h.closed hc)

theorem Passes.refl (hq : u.QueueSound) : Passes z u u :=
  ⟨fun _ _ h => .refl h, fun _ h => h, hq, ⟨rfl, rfl⟩, fun _ _ h => h, fun h => h⟩

/-- The other zone enters DARK. -/
theorem passes_enterDark {y : ZoneId} (hy : z ≠ y) (hq : u.QueueSound) (hd : (u.zone y).protection = .dark) :
    Passes z u (u.enterDark y) := by
  obtain ⟨sound, calm⟩ := foldl_sound (slotsOf y) u (zone_dark hd) hq
  have sound' := postShelf_queueSound sound .feed
  have out (i : SlotId) (hi : zoneOf i = z) : i ∉ slotsOf y := fun m => hy (hi ▸ mem_slotsOf.1 m)
  refine ⟨fun i hi h => enterDark_spares hq hd (Or.inl fun k => hy (hi ▸ k)) h, fun hz h => ?_,
    (blacked_enterDark hq hd).sound, feeds_of_calm (calm_darkens hq hd) z, (calm_darkens hq hd).shelf, enterDark_closed hd⟩
  rw [enterDark_eq]
  refine unlit_examines sound' ?_ (calm_examine ..) (endOfEvent_examine ..) (examines_examine sound' y) fun i hi => ?_
  · rw [postShelf_zone, protection_of_calm calm]; exact hz
  · rw [postShelf_slot, foldl_slot _ _ (Or.inl (out i hi))]
    exact h i hi

/-- The mark of the survey's end is cleared as the zone is treated. -/
def Zone.unmark (v : Zone) : Zone := { v with darkAtSurveyEnd := false }

theorem passes_unmark {y : ZoneId} (hy : z ≠ y) (hq : u.QueueSound) : Passes z u (u.modZone y Zone.unmark) where
  spare _ _ h := spares_modZone y Zone.unmark (fun _ => ⟨rfl, rfl⟩) h
  unlit _ h i hi := by rw [modZone_slot]; exact h i hi
  sound := (deeds_modZone (a := False) u y _ rfl rfl).queueSound hq
  feeds := by rw [modZone_zone_ne _ _ _ hy]; exact ⟨rfl, rfl⟩
  shelf m k := (hasShelfNotice_congr (fun n => modZone_manager ..) m k).2
  closed h := by rw [modZone_block]; exact h

theorem passes_darkAfterSurvey {y : ZoneId} (hy : z ≠ y) (hq : u.QueueSound) : Passes z u (u.darkAfterSurvey y) := by
  have e : u.darkAfterSurvey y = if u.survey.running = false ∧ (u.zone y).darkAtSurveyEnd then
      if ((u.modZone y Zone.unmark).zone y).protection = .dark then (u.modZone y Zone.unmark).enterDark y
      else u.modZone y Zone.unmark else u := rfl
  have k := passes_unmark (u := u) hy hq
  rw [e]
  split
  · split
    · next hd => exact k.trans (passes_enterDark hy k.sound hd)
    · exact k
  · exact .refl hq

/-- A marked zone that is DARK still. -/
theorem blacked_darkAfterSurvey (hq : u.QueueSound) (hr : u.survey.running = false) (hm : (u.zone z).darkAtSurveyEnd = true)
    (hd : (u.zone z).protection = .dark) : Blacked z u (u.darkAfterSurvey z) ∧
      ((u.darkAfterSurvey z).zone z).darkAtSurveyEnd = false := by
  have hd' : ((u.modZone z Zone.unmark).zone z).protection = .dark := by rw [modZone_zone_self]; exact hd
  have e : u.darkAfterSurvey z = (u.modZone z Zone.unmark).enterDark z := by
    unfold State.darkAfterSurvey
    rw [if_pos ⟨hr, hm⟩]
    exact if_pos hd'
  have hq' : (u.modZone z Zone.unmark).QueueSound := (deeds_modZone (a := False) u z _ rfl rfl).queueSound hq
  have b := blacked_enterDark hq' hd'
  rw [e]
  refine ⟨⟨b.dark, b.feed, fun i hi hp => ?_, b.unlit, b.sound, fun h => b.closed (by rw [modZone_block]; exact h)⟩, ?_⟩
  · have k := b.downed i hi (by rw [modZone_slot]; exact hp)
    rw [modZone_slot, modZone_timers] at k
    exact ⟨k.1, fun h => k.2 (by rw [holdsWindow_of (congrArg WindowBlock.opened (modZone_block ..))]; exact h)⟩
  · rw [(feeds_of_calm (calm_darkens hq' hd') z).2, modZone_zone_self]
    rfl

/-- What is done of a marked zone keeps the survey and the timer settings. -/
theorem darkAfterSurvey_rest (hq : u.QueueSound) (y : ZoneId) :
    (u.darkAfterSurvey y).survey = u.survey ∧ (u.darkAfterSurvey y).timers = u.timers := by
  unfold State.darkAfterSurvey
  split
  · extract_lets v
    have hv : v.survey = u.survey ∧ v.timers = u.timers := ⟨modZone_survey .., modZone_timers ..⟩
    split
    · next hd =>
      have c := calm_darkens ((deeds_modZone (a := False) u y _ rfl rfl).queueSound hq) hd
      exact ⟨c.survey.trans hv.1, c.timers.trans hv.2⟩
    · exact hv
  · exact ⟨rfl, rfl⟩

/-- A zone that enters DARK after a part of the event that left it alone. -/
theorem Passes.blacked (k : Passes z u v) (hT : v.timers = u.timers) (hq : u.QueueSound) (b : Blacked z v t) : Blacked z u t where
  dark := b.dark
  feed := b.feed
  downed i hi hp := by
    have sp := k.spare i hi (unqueued_of_powered hq hp)
    obtain ⟨d, hw⟩ := b.downed i hi (by rw [sp.slot]; exact hp)
    rw [sp.slot, hT] at d
    exact ⟨d, fun h => (sp.holds h).elim hw b.closed⟩
  unlit := b.unlit
  sound := b.sound
  closed h := b.closed (k.closed h)

/-! ## The statements -/

/-- What the obligation says of a zone that has entered DARK. -/
theorem Blacked.darkened {w : State} (b : Blacked z w t) (hT : w.timers = s.timers)
    (hw : ∀ i, s.holdsWindow i = true → w.holdsWindow i = true)
    (hr : ∀ i, (w.slot i).state = (s.slot i).state ∧ (w.slot i).decl = (s.slot i).decl ∧
      (w.slot i).attempts = (s.slot i).attempts ∧ (w.slot i).retirePending = (s.slot i).retirePending ∧
      (w.slot i).lines.handed = (s.slot i).lines.handed) (i : SlotId) (hi : zoneOf i = z)
    (hp : (s.slot i).state.isPowered = true) : let r := s.slot i; let v := t.slot i
      v.powerPath = .off ∧ v.latch.power = .off ∧ v.lane.commanded = .openMode ∧ v.lane.transmit = 0 ∧
      t.heldGroups i = 0 ∧ v.reservation = 0 ∧ v.retirePending = false ∧ t.posted .fault i ∧ t.posted .state i ∧
      (∀ x ∈ t.block.list, x.slot ≠ i) ∧ (s.holdsWindow i = true → t.block.opened = none) ∧
      (∀ p, (t.zone z).precharge = some p → p.holder ≠ i) ∧
      (if (r.state = .draining ∨ r.state = .leaveWait ∨ r.state = .leaveObserve ∨ r.retirePending = true) ∨
          r.lines.handed.handleClosed = false then v.state = .released ∧ v.cause = none
        else if r.decl = none then v.state = .present ∧ v.cause = none ∧
          v.declareTimer = .running 0 s.timers.declare
        else v.state = .declared ∧ v.cause = some .zoneDark ∧ v.decl = r.decl ∧ v.attempts = r.attempts) := by
  obtain ⟨e1, e2, e3, e4, e5⟩ := hr i
  obtain ⟨d, hc⟩ := b.downed i hi (by rw [e1]; exact hp)
  obtain ⟨lanes, power, res, -, ret⟩ := d.cut
  refine ⟨power.1, power.2, lanes.1, lanes.2.1, d.held, res, ret, d.fault, d.posted, d.listed, fun h => hc (hw i h),
    by subst hi; exact d.channel, ?_⟩
  obtain ⟨h, o, e⟩ := d.record
  have dest : IsolationCause.destination .zoneDark (w.slot i) =
      if ((s.slot i).state = .draining ∨ (s.slot i).state = .leaveWait ∨ (s.slot i).state = .leaveObserve ∨
        (s.slot i).retirePending = true) ∨ (s.slot i).lines.handed.handleClosed = false then .released
      else if (s.slot i).decl = none then .present else .declared := by
    unfold IsolationCause.destination Slot.darkDestination Slot.handleClosed
    dsimp only
    rw [e1, e2, e4, e5]
    by_cases k1 : (s.slot i).state = .draining ∨ (s.slot i).state = .leaveWait ∨ (s.slot i).state = .leaveObserve ∨
        (s.slot i).retirePending = true
    · rw [if_pos k1, if_pos (Or.inl k1)]
    · rw [if_neg k1]
      by_cases k2 : (s.slot i).lines.handed.handleClosed = false
      · rw [if_pos k2, if_pos (Or.inr k2)]
      · have k3 := not_or.2 ⟨k1, k2⟩
        rw [if_neg k2, if_neg k3]
        cases (s.slot i).decl <;> rfl
  have st := isolated_state .zoneDark w.timers h o (w.slot i)
  have ca := isolated_cause .zoneDark w.timers h o (w.slot i)
  have ti := isolated_declareTimer .zoneDark w.timers h o (w.slot i)
  have de := isolated_decl .zoneDark w.timers h o (w.slot i)
  have at' := isolated_attempts .zoneDark w.timers h o (w.slot i)
  rw [← e, dest] at st ca ti de at'
  rw [hT] at ti
  rw [e2] at de
  rw [e3] at at'
  split
  · next k => rw [if_pos k] at st ca; exact ⟨st, ca⟩
  · next k =>
    rw [if_neg k] at st ca ti de at'
    split
    · next k' => rw [if_pos k'] at st ca ti; exact ⟨st, ca, ti⟩
    · next k' => rw [if_neg k'] at st ca de at'; exact ⟨st, ca, de, at'⟩

theorem takeFeeds_dark {v : Zone} (ha : v.lineA.accepted = false) (hb : v.lineB.accepted = false) :
    v.takeFeeds.protection = .dark := by
  unfold Zone.protection Zone.takeFeeds
  rw [ha, hb]

theorem feedChanged_of_lost {v : Zone} (hd : v.protection ≠ .dark) (ha : v.lineA.accepted = false)
    (hb : v.lineB.accepted = false) : v.feedChanged = true := by
  rw [feedChanged_iff, ha, hb]
  by_contra k
  obtain ⟨k1, k2⟩ := not_or.1 k
  refine hd ?_
  unfold Zone.protection
  rw [← not_not.1 k1, ← not_not.1 k2]

/-- The slots as a tick hands them to the zones marked at the end of the survey. -/
theorem beforeSampling_window (s : State) (i : SlotId) : s.beforeSampling.holdsWindow i = s.holdsWindow i := by
  have e : s.beforeSampling.block.opened = s.takeTick.block.opened := rfl
  rw [Bool.eq_iff_iff, holdsWindow_iff, holdsWindow_iff, e, takeTick_window]

theorem blacked_issueTick (x : TickInputs) (hq : s.QueueSound) (hr : s.survey.running = false)
    (hm : (s.zone z).darkAtSurveyEnd = true) (hd : (s.zone z).protection = .dark) :
    ∃ w, Blacked z w (s.issueTick x) ∧ ((s.issueTick x).zone z).darkAtSurveyEnd = false ∧ w.timers = s.timers ∧
      (∀ i, s.holdsWindow i = true → w.holdsWindow i = true) ∧
      ∀ i, ∃ y, w.slot i = (s.slot i).tick false y := by
  have e : s.issueTick x = ((s.beforeSampling.sampleAndCount x).darkAfterSurvey .one).darkAfterSurvey .two := rfl
  have sound : (s.beforeSampling.sampleAndCount x).QueueSound :=
    ((((deeds_takeTick (a := False) s).and (deeds_count ..)).and (deeds_modBlock ..)).and
      (deeds_sampleAndCount ..)).queueSound hq
  have run : (s.beforeSampling.sampleAndCount x).survey.running = false := by
    show (s.beforeSampling.survey.tick).running = false
    rw [beforeSampling_survey, Survey.tick, hr]
    rfl
  have mark : ((s.beforeSampling.sampleAndCount x).zone z).darkAtSurveyEnd = true := by
    rw [sampleAndCount_dark, beforeSampling_zone]; exact hm
  have dark : ((s.beforeSampling.sampleAndCount x).zone z).protection = .dark := by
    rw [sampleAndCount_zone, beforeSampling_survey, hr, beforeSampling_zone, ← hd]
    unfold Zone.tickPrecharge
    split <;> rfl
  have slot (i : SlotId) : ∃ y, (s.beforeSampling.sampleAndCount x).slot i = (s.slot i).tick false y := by
    rw [sampleAndCount_slot, beforeSampling_slot, beforeSampling_survey, hr]; exact ⟨_, rfl⟩
  have win (i : SlotId) (h : s.holdsWindow i = true) : (s.beforeSampling.sampleAndCount x).holdsWindow i = true := by
    rw [← beforeSampling_window] at h; exact h
  have time : (s.beforeSampling.sampleAndCount x).timers = s.timers := takeTick_timers s
  rw [e]
  generalize s.beforeSampling.sampleAndCount x = w at *
  cases z with
  | one =>
    obtain ⟨b, hf⟩ := blacked_darkAfterSurvey sound run mark dark
    have k := passes_darkAfterSurvey (z := .one) (y := .two) (by decide) b.sound
    exact ⟨w, b.passes k, k.feeds.2.trans hf, time, win, slot⟩
  | two =>
    have k := passes_darkAfterSurvey (z := .two) (y := .one) (by decide) sound
    obtain ⟨sv, tm⟩ := darkAfterSurvey_rest sound .one
    obtain ⟨b, hf⟩ := blacked_darkAfterSurvey k.sound (by rw [sv]; exact run) (k.feeds.2.trans mark) (k.feeds.1.trans dark)
    exact ⟨w, k.blacked tm sound b, hf, time, win, slot⟩

theorem booked_issueTick (x : TickInputs) (h : s.Booked) : (s.issueTick x).Booked := by
  have k : (s.beforeSampling.sampleAndCount x).Booked := by
    refine booked_of (s := s) (fun z => ?_) (fun i => ?_) (fun i => ?_) h
    · rw [sampleAndCount_reserved, beforeSampling_zone]
    · rw [sampleAndCount_slot, beforeSampling_slot]; rfl
    · rw [sampleAndCount_slot, beforeSampling_slot]; rfl
  exact ((effect_darkAfterSurvey _ .one).trans (effect_darkAfterSurvey _ .two)).booked k

/-- Settles O26. -/
theorem darkZoneIsolatesPoweredSlots : Obligations.DarkZoneIsolatesPoweredSlots := by
  refine ⟨fun s z hq hr hd ha hb => ?_, fun s z x p hp hq hr hm hd hrel => ?_⟩
  · have hex := feedHealthChange_eq (feedChanged_of_lost hd ha hb)
    have booked := effect_feedHealthChange s z hex
    rw [feedChange_eq hr] at hex booked
    have dark : ((s.modZone z Zone.takeFeeds).zone z).protection = .dark := by
      rw [modZone_zone_self]; exact takeFeeds_dark ha hb
    have e : (s.modZone z Zone.takeFeeds).feedEffects z (s.zone z).protection = (s.modZone z Zone.takeFeeds).enterDark z :=
      if_pos ⟨dark, hd⟩
    rw [e] at hex booked
    have hu := takeFeeds_queueSound (z := z) hq
    have b := (blacked_enterDark hu dark).passes (passes_settle s (blacked_enterDark hu dark).sound)
    refine ⟨_, hex, ⟨b.dark, b.feed, b.darkened (modZone_timers ..) (fun i h => ?_) fun i => ?_⟩, fun i hi hn => ?_,
      fun hb => booked_unlit (booked.booked hb) b.unlit⟩
    · rw [holdsWindow_of (congrArg WindowBlock.opened (modZone_block ..))]; exact h
    · rw [modZone_slot]; exact ⟨rfl, rfl, rfl, rfl, rfl⟩
    · have k0 := spares_modZone z Zone.takeFeeds (fun _ => ⟨rfl, rfl⟩) hn
      have k1 := enterDark_spares hu dark (hi.imp_right fun h => by rw [modZone_slot]; exact h) k0.unqueued
      have k := (k0.trans k1).trans (spares_settle s (blacked_enterDark hu dark).sound k1.unqueued)
      exact ⟨k.slot, k.held⟩
  · obtain ⟨w, b, hf, hT, hw, hs⟩ := blacked_issueTick x hq hr hm hd
    have held : s.restartReleased x = false := by
      unfold State.restartReleased
      cases ha : s.restartLine.asked with
      | false => rfl
      | true => rw [hrel ha]; rfl
    have kept (i : SlotId) : (w.slot i).state = (s.slot i).state ∧ (w.slot i).decl = (s.slot i).decl ∧
        (w.slot i).attempts = (s.slot i).attempts ∧ (w.slot i).retirePending = (s.slot i).retirePending ∧
        (w.slot i).lines.handed = (s.slot i).lines.handed := by
      obtain ⟨y, e⟩ := hs i
      rw [e]
      exact ⟨rfl, rfl, rfl, rfl, rfl⟩
    have close (v : State) (k : Passes z (s.issueTick x) v) (e : Effect (s.issueTick x) v) :
        Blacked z w v ∧ (v.zone z).darkAtSurveyEnd = false ∧ (s.Booked → (v.zone z).reserved = 0) :=
      have bv := b.passes k
      ⟨bv, k.feeds.2.trans hf, fun h => booked_unlit (e.booked (booked_issueTick x h)) bv.unlit⟩
    have hex (f : State → State) : onTick x f s = event f s := if_neg (by rw [held]; decide)
    rcases hp with rfl | rfl
    · have k := passes_takeTick (z := z) b.sound
      obtain ⟨bv, hm, hz⟩ := close _ (k.trans (passes_settle s k.sound)) ((effect_takeTick _).trans (effect_settle _ s))
      exact ⟨_, hex _, ⟨bv.dark, bv.feed, bv.darkened hT hw kept⟩, hm, hz⟩
    · obtain ⟨bv, hm, hz⟩ := close _ (passes_settle s b.sound) (effect_settle _ s)
      exact ⟨_, hex _, ⟨bv.dark, bv.feed, bv.darkened hT hw kept⟩, hm, hz⟩

end Sys2Proof.Machine
end

section
/-! # The tick (R30, R31, R61, R98, R132, R133, R139 to R141, R155) -/

namespace Sys2Proof.Machine

variable {s t u : State} {i : SlotId}

/-! ## What the change window block and the counter bank leave as it is -/

/-- What the tick of the window block and the bank keeps of the rest of the part. -/
structure TakesTick (s t : State) : Prop where
  slots       : t.slots = s.slots
  zone        : ∀ z, t.zone z = s.zone z
  manager     : ∀ m, ∃ n, t.manager m = { s.manager m with shelfNotices := n }
  port        : ∀ p, t.port p = s.port p
  ref         : t.ref = s.ref
  laneDue     : t.laneDue = s.laneDue
  survey      : t.survey = s.survey
  map         : t.map = s.map
  timers      : t.timers = s.timers
  list        : t.block.list = s.block.list
  pending     : t.pending = s.pending
  restartLine : t.restartLine = s.restartLine

theorem takesTick_takeTick (s : State) : TakesTick s s.takeTick := by
  have rest : (∀ p, s.takeTick.port p = s.port p) ∧ s.takeTick.laneDue = s.laneDue ∧
      s.takeTick.restartLine = s.restartLine := by
    cases hh : s.block.hand with
    | none => rw [takeTick_none s hh]; exact ⟨fun _ => rfl, rfl, rfl⟩
    | some h =>
      rw [takeTick_some s hh]
      rcases tickBank_eq (s.beforeBank h) with e | e <;> rw [e] <;> exact ⟨fun p => by cases p <;> rfl, rfl, rfl⟩
  exact ⟨takeTick_slots s, takeTick_zone s, takeTick_manager s, rest.1, takeTick_ref s, rest.2.1, takeTick_survey s,
    takeTick_map s, takeTick_timers s, takeTick_list s, takeTick_pending s, rest.2.2⟩

/-! ## A tick as it is issued -/

/-- The pin of a manager's bay strap at a tick. -/
def strapPin (x : TickInputs) : ManagerId → Bool
  | .a => x.strapA
  | .b => x.strapB

/-- The bus lines of a port that are low at a tick: the clock and the data line. -/
def lowPins (x : TickInputs) : Port → Bool × Bool
  | .a => (x.clockLowA, x.dataLowA)
  | .b => (x.clockLowB, x.dataLowB)

/-- The feed-good pins of a zone at a tick. -/
def feedPins (x : TickInputs) : ZoneId → Bool × Bool
  | .one => (x.feed1A, x.feed1B)
  | .two => (x.feed2A, x.feed2B)

/-- Whether a tick takes the first samples after a reset. -/
def State.firstTick (s : State) : Bool := s.survey.running && s.survey.ticks = 0

/-- What an issued tick leaves, with no zone marked at the end of the survey. -/
structure Ticked (x : TickInputs) (s t : State) : Prop where
  slot        : ∀ i, t.slot i = (s.slot i).tick s.survey.running x.lines[i.val]
  zone        : ∀ z, t.zone z = ((s.zone z).sampleFeeds s.firstTick (feedPins x z).1 (feedPins x z).2).tickPrecharge
  manager     : ∀ m, ∃ n, t.manager m = { (s.manager m).tick s.firstTick (strapPin x m) with shelfNotices := n }
  port        : ∀ p, t.port p = (s.port p).tick (lowPins x p).1 (lowPins x p).2
  ref         : t.ref = s.ref.tick
  laneDue     : t.laneDue = true
  survey      : t.survey = s.survey.tick
  map         : t.map = s.map
  timers      : t.timers = s.timers
  list        : t.block.list = s.block.list
  pending     : t.pending = s.pending
  restartLine : t.restartLine = ⟨x.restartHeld, s.restartLine.asked⟩

theorem ticked_issueTick (s : State) (x : TickInputs) (h : ∀ z, (s.zone z).darkAtSurveyEnd = false) :
    Ticked x s (s.issueTick x) := by
  have k := takesTick_takeTick s
  rw [issueTick_of s x h]
  refine ⟨fun i => ?_, fun z => ?_, fun m => ?_, fun p => ?_, congrArg Reference.tick k.ref, rfl,
    congrArg Survey.tick k.survey, k.map, k.timers, k.list, k.pending, ?_⟩
  · rw [sampleAndCount_slot, beforeSampling_slot, beforeSampling_survey]
  · rw [sampleAndCount_zone, beforeSampling_zone, beforeSampling_survey]
    cases z <;> rfl
  · obtain ⟨n, e⟩ := k.manager m
    refine ⟨n, ?_⟩
    have hm : (s.beforeSampling.sampleAndCount x).manager m = (s.takeTick.manager m).tick s.firstTick (strapPin x m) := by
      unfold State.firstTick
      rw [← k.survey]
      cases m <;> rfl
    rw [hm, e]
    rfl
  · have hp : (s.beforeSampling.sampleAndCount x).port p = (s.takeTick.port p).tick (lowPins x p).1 (lowPins x p).2 := by
      cases p <;> rfl
    rw [hp, k.port]
  · show ({ s.takeTick.restartLine with held := x.restartHeld } : RestartLine) = _
    rw [k.restartLine]

theorem Ticked.takes {x : TickInputs} (h : Ticked x s t) (k : TakesTick t u) : Ticked x s u where
  slot i := by
    rw [← h.slot]
    unfold State.slot
    rw [k.slots]
  zone z := (k.zone z).trans (h.zone z)
  manager m := by
    obtain ⟨n, e⟩ := k.manager m
    obtain ⟨n', e'⟩ := h.manager m
    exact ⟨n, by rw [e, e']⟩
  port p := (k.port p).trans (h.port p)
  ref := k.ref.trans h.ref
  laneDue := k.laneDue.trans h.laneDue
  survey := k.survey.trans h.survey
  map := k.map.trans h.map
  timers := k.timers.trans h.timers
  list := k.list.trans h.list
  pending := k.pending.trans h.pending
  restartLine := k.restartLine.trans h.restartLine

/-- A tick that finds no restart to take effect is issued. -/
theorem onTick_held {x : TickInputs} (f : State → State) (h : s.restartLine.asked = true → x.restartHeld = true) :
    onTick x f s = event f s := by
  refine if_neg fun k => ?_
  rw [State.restartReleased, Bool.and_eq_true] at k
  rw [h k.1] at k
  cases k.2

section
variable {x : TickInputs} (hz : ∀ z, (s.zone z).darkAtSurveyEnd = false)
  (hr : s.restartLine.asked = true → x.restartHeld = true)
include hz hr

theorem exec_issue : exec (.multiframeTick (.issue x)) s = .next (s.issueTick x) :=
  (onTick_held _ hr).trans (congrArg _ (settle_issueTick s x hz _ fun _ => rfl))

theorem exec_whole : exec (.multiframeTick (.whole x)) s = .next (s.issueTick x).takeTick :=
  (onTick_held _ hr).trans (congrArg _ (settle_issueTick s x hz _ fun _ => takeTick_zone ..))

/-- A tick, whole or in its first part. -/
theorem exec_tick {p : TickPart} (hp : p = .whole x ∨ p = .issue x) :
    ∃ t, exec (.multiframeTick p) s = .next t ∧ Ticked x s t := by
  have k := ticked_issueTick s x hz
  rcases hp with rfl | rfl
  · exact ⟨_, exec_whole hz hr, k.takes (takesTick_takeTick _)⟩
  · exact ⟨_, exec_issue hz hr, k⟩

end

theorem exec_windowAndBank (s : State) : exec (.multiframeTick .windowAndBank) s = .next s.takeTick :=
  event_of_zones fun _ => takeTick_zone ..

/-! ## The samples and the counts -/

theorem tick_running {x : SlotTimer} {c l : Nat} (h : x = .running c l) : x.tick = .running (min (c + 1) l) l := by
  rw [h]; rfl

theorem tick_still {x : SlotTimer} (h : x = .stopped ∨ x = .expired) : x.tick = x := by
  rcases h with h | h <;> rw [h] <;> rfl

/-- Settles O8. -/
theorem tickSamplesSlotLines : Obligations.TickSamplesSlotLines := by
  intro s x p hp hz hr
  obtain ⟨t, e, k⟩ := exec_tick hz hr hp
  refine ⟨t, e, fun i => ?_⟩
  rw [k.slot]
  exact ⟨rfl, rfl, rfl, rfl, rfl, rfl, rfl, rfl, rfl, rfl,
    fun c l => ⟨tick_running, tick_running, tick_running, tick_running⟩, tick_still, tick_still, tick_still, tick_still, rfl⟩

theorem sampled_level (first : Bool) (level prev y : Bool) :
    (if first then y else debounce level prev y) = if first = true ∨ y = prev then y else level := by
  unfold debounce
  cases first <;> simp

/-- A zone's held precharge counts the tick, up to its limit. -/
theorem tickPrecharge_eq (v : Zone) : v.tickPrecharge =
    { v with precharge := v.precharge.map fun c => { c with count := min (c.count + 1) c.limit } } := by
  rcases v with ⟨_, _, _, _, _, _, _, _, _, _, p, _, _, _⟩
  cases p <;> rfl

/-- The first sample of a bay strap, or of a feed-good line, sets the record with the level. -/
theorem sampled_record {α : Type} (f : Bool → α) (first level prev y : Bool) (old : α) :
    (if first then f (if first then y else debounce level prev y) else old) = if first then f y else old := by
  cases first <;> rfl

theorem atTick_inWindow (v : SourceTrack) (d : Nat) : ((v.advance d).atTick).markerAge = v.markerAge.map (· + d) ∧
    (v.inWindow = none → ((v.advance d).atTick).inWindow = none) ∧
    (∀ a, v.inWindow = some a → ((v.advance d).atTick).inWindow = if a + d ≤ 125 then some (a + d) else none) := by
  refine ⟨rfl, fun h => ?_, fun a h => ?_⟩ <;> unfold SourceTrack.atTick SourceTrack.advance <;> dsimp only <;> rw [h]
  · rfl
  · show Option.filter _ (some (a + d)) = _
    simp [Option.filter]

/-- Settles O9. -/
theorem tickSamplesShelfLines : Obligations.TickSamplesShelfLines := by
  intro s x p hp hz hr
  obtain ⟨t, e, k⟩ := exec_tick hz hr hp
  refine ⟨t, e, fun z => ?_, fun m => ?_, k.laneDue, ?_, ?_, ?_, ?_, ?_, ?_, ?_, ?_, ?_, ?_, fun src => ?_, fun p => ?_,
    fun hs => ?_, fun hs => ?_, k.map, k.timers, k.list, k.pending, k.restartLine⟩
  · rw [k.zone, tickPrecharge_eq]
    refine ⟨?_, ?_, ?_, ?_, rfl, rfl, rfl, rfl, rfl, rfl, rfl, rfl, rfl⟩
    · exact congrArg (fun l => FeedLine.mk l _) (sampled_level ..)
    · exact congrArg (fun l => FeedLine.mk l _) (sampled_level ..)
    · exact sampled_record id ..
    · exact sampled_record id ..
  · obtain ⟨n, e⟩ := k.manager m
    rw [e]
    exact ⟨sampled_level .., rfl, sampled_record id .., sampled_record (fun y => if y then ManagerState.silent else .absent) ..,
      fun c l h => congrArg SupervisionTimer.tick h, fun h => congrArg SupervisionTimer.tick h, rfl, rfl, rfl, rfl⟩
  · rw [k.ref]
    show s.ref.genUs + (2000 - s.ref.genUs) - 2000 = s.ref.genUs - 2000
    omega
  · rw [k.ref]; rfl
  · rw [k.ref]; rfl
  · rw [k.ref]; rfl
  · rw [k.ref]; rfl
  · rw [k.ref]; rfl
  · rw [k.ref]; rfl
  · rw [k.ref]; rfl
  · rw [k.ref]; rfl
  · rw [k.ref]; rfl
  · rw [k.ref]
    cases src
    · exact atTick_inWindow s.ref.sourceX _
    · exact atTick_inWindow s.ref.sourceY _
  · rw [k.port]
    cases p <;> rfl
  · rw [k.survey]; exact if_neg (by rw [hs]; decide)
  · rw [k.survey]; exact if_pos hs

/-! ## The two parts of a tick (R107, R135) -/

theorem handTick_armed (s : State) : s.handTick.armed = true ↔ ∃ w, s.block.opened = some w ∧
    (w.undoPending = true ∨ w.phase = .revertPending ∨ w.phase = .restorePending) := by
  unfold State.handTick
  dsimp only
  cases s.block.opened with
  | none => simp
  | some w => simp [OpenWindow.actionWaits, or_assoc]

theorem count_total_add (s : State) (k j : EventKind) (n : Nat) :
    (s.count k n).bank.total j = s.bank.total j + if j = k then n else 0 := by
  rw [count_total]
  split
  · next h => rw [h]
  · rfl

/-- Settles O10. -/
theorem tickIsHandedWithItsFlags : Obligations.TickIsHandedWithItsFlags := by
  intro s x hz hr
  refine ⟨⟨_, _, exec_issue hz hr, exec_windowAndBank _, exec_whole hz hr⟩, fun hh => ⟨_, exec_windowAndBank s, ?_⟩,
    fun hh => ?_⟩
  · have k := takesTick_takeTick s
    rw [exec_issue hz hr, exec_issue (fun z => by rw [k.zone, hz]) (by rw [k.restartLine]; exact hr)]
    obtain ⟨h, e⟩ := Option.ne_none_iff_exists'.1 hh
    have idle : s.takeTick.block.hand = none := by rw [takeTick_block s e]; rfl
    unfold State.issueTick
    rw [takeTick_none _ idle]
  · have e : s.issueTick x = s.beforeSampling.sampleAndCount x := issueTick_of s x hz
    have idle : s.takeTick = s := takeTick_none s hh
    have b : s.beforeSampling = (s.count .budgetWaitMf s.budgetWaits).modBlock fun b =>
        { b with hand := some s.handTick, grantDue := false, boundaryDue := false } := by
      unfold State.beforeSampling
      rw [idle]
    refine ⟨_, s.handTick, exec_issue hz hr, ?_, rfl, rfl, handTick_armed s, ?_, fun k => ?_, ?_, ?_, ?_, ?_⟩ <;>
      rw [e, b]
    · rfl
    · rfl
    · exact count_total_add s .budgetWaitMf k _
    all_goals rfl

/-! ## The change window block (R130 to R133, R135) -/

theorem counting_iff {w : OpenWindow} : w.counting = true ↔ w.phase = .observeChange ∨ w.phase = .observeRevert := by
  simp [OpenWindow.counting]

/-- The open window ages, and counts a LOCKED multiframe that it observes (R133). -/
theorem window_tick (w : OpenWindow) (l : Bool) (n : Nat) :
    (w.tick l n).age = min (w.age + 1) 65535 ∧
    (l = true → (w.phase = .observeChange ∨ w.phase = .observeRevert) → w.observed < w.window →
      (w.tick l n).observed = w.observed + 1 ∧ (w.tick l n).after = if w.threshold ≤ n then w.after + 1 else w.after) ∧
    ((l = false ∨ (w.phase ≠ .observeChange ∧ w.phase ≠ .observeRevert)) →
      (w.tick l n).observed = w.observed ∧ (w.tick l n).after = w.after) := by
  refine ⟨rfl, fun hl hp ho => ?_, fun h => ?_⟩
  · have c : (l && w.counting && decide (w.observed < w.window)) = true := by simp [hl, counting_iff.2 hp, ho]
    unfold OpenWindow.tick
    dsimp only
    rw [c]
    exact ⟨rfl, by simp⟩
  · have c : (l && w.counting && decide (w.observed < w.window)) = false := by
      rcases h with h | h
      · rw [h]; rfl
      · rw [Bool.eq_false_iff.2 fun k => (counting_iff.1 k).elim h.1 h.2]; simp
    unfold OpenWindow.tick
    dsimp only
    rw [c]
    exact ⟨rfl, rfl⟩

/-- Settles O11. -/
theorem windowBlockTakesTick : Obligations.WindowBlockTakesTick := by
  refine ⟨fun s => event_of_zones fun z => modBlock_zone .., fun s h hh => ?_⟩
  have k := takesTick_takeTick s
  refine ⟨_, exec_windowAndBank s, ?_⟩
  rw [takeTick_block s hh]
  refine ⟨fun hl => if_pos hl, fun hl => if_neg (by rw [hl]; decide), rfl, rfl, fun ho => by simp [WindowBlock.tick, ho],
    fun w hw => ?_, ?_, ?_, rfl, rfl, rfl, rfl, rfl, k.slots, k.zone, k.map, k.ref⟩
  · obtain ⟨h1, h2, h3⟩ := window_tick w h.lockedMf s.block.errors
    exact ⟨_, congrArg (Option.map (OpenWindow.tick h.lockedMf s.block.errors)) hw, h1, h2, h3, rfl⟩
  · simp [WindowBlock.tick, and_assoc]
  · simp [WindowBlock.tick, and_assoc, Option.isSome_iff_ne_none]

/-! ## The counter bank (R139 to R141) -/

theorem holds_iff (c : Counter) (n : Nat) : c.holds n = true ↔
    if c.invert then min n 255 < c.threshold else c.threshold ≤ min n 255 := by
  unfold Counter.holds
  split <;> exact decide_eq_true_iff

theorem addition_eq (c : Counter) (n : Nat) : c.addition n = match c.mode with
    | .plain => n
    | .threshold => if c.holds n = true then 1 else 0
    | .edge => if c.holds n = true ∧ c.condition = false then 1 else 0 := by
  unfold Counter.addition
  cases c.mode with
  | plain | threshold => rfl
  | edge => cases c.holds n <;> cases c.condition <;> rfl

/-- What a counter comes to at a tick (R140, R141). -/
theorem counter_tick (c : Counter) (n : Nat) :
    (c.value + c.addition n ≤ 16777215 → (c.tick n).value = c.value + c.addition n ∧ (c.tick n).overflow = c.overflow) ∧
    (16777215 < c.value + c.addition n →
      (c.tick n).value = (c.value + c.addition n) % 16777216 ∧ (c.tick n).overflow = true) := by
  refine ⟨fun h => ⟨Nat.mod_eq_of_lt (Nat.lt_succ_of_le h), ?_⟩, fun h => ⟨rfl, ?_⟩⟩
  · show (c.overflow || decide _) = c.overflow
    rw [decide_eq_false (Nat.not_lt.2 h), Bool.or_false]
  · show (c.overflow || decide _) = true
    rw [decide_eq_true h, Bool.or_true]

theorem wraps_iff (b : Bank) : b.wraps = true ↔ ∃ k : Fin 4,
    16777215 < (b.counters[k.val]).value + (b.counters[k.val]).addition (b.total (b.counters[k.val]).kind) := by
  unfold Bank.wraps
  rw [List.any_eq_true]
  exact ⟨fun ⟨k, _, h⟩ => ⟨k, of_decide_eq_true h⟩, fun ⟨k, h⟩ => ⟨k, List.mem_finRange k, decide_eq_true h⟩⟩

theorem bankTick_total (b : Bank) (k : EventKind) : b.tick.total k = 0 := by
  unfold Bank.tick
  split <;> exact Vector.getElem_replicate ..

theorem bankTick_frozen {b : Bank} (h : b.frozen = true) : b.tick.counters = b.counters ∧ b.tick.frozen = true ∧
    b.tick.freezeOn = b.freezeOn := by
  unfold Bank.tick
  rw [if_pos h]
  exact ⟨rfl, h, rfl⟩

theorem bankTick_running {b : Bank} (h : b.frozen = false) :
    (∀ k : Fin 4, b.tick.counters[k.val] = (b.counters[k.val]).tick (b.total (b.counters[k.val]).kind)) ∧
    b.tick.frozen = (b.freezeOn && b.wraps) ∧ b.tick.freezeOn = b.freezeOn := by
  unfold Bank.tick
  rw [if_neg (by rw [h]; decide)]
  exact ⟨fun k => Vector.getElem_map .., rfl, rfl⟩

/-- The errors and the disturbed mark of a tick count in the totals that the bank takes at it (log entry 16). -/
theorem beforeBank_total (s : State) (h : TickInHand) (k : EventKind) : (s.beforeBank h).bank.total k =
    s.bank.total k + (if k = .highwayErrors then s.block.errors else 0) +
      (if k = .disturbedMf ∧ h.lockedMf = true ∧ s.block.threshold ≤ s.block.errors then 1 else 0) := by
  have d : s.block.disturbs h = true ↔ h.lockedMf = true ∧ s.block.threshold ≤ s.block.errors := by
    simp [WindowBlock.disturbs]
  unfold State.beforeBank
  rw [count_total_add, count_total_add]
  refine congrArg₂ _ rfl ?_
  simp only [d]
  split <;> simp_all

theorem beforeBank_manager (s : State) (h : TickInHand) (m : ManagerId) : (s.beforeBank h).manager m = s.manager m := by
  cases m <;> rfl

/-- The notices that the bank's tick leaves pending: with MONITOR where a counter wraps (R141). -/
theorem tickBank_notices (s : State) :
    (∀ m l, s.tickBank.hasShelfNotice m l ↔ s.hasShelfNotice m l ∨
      (l = .monitor ∧ s.bank.frozen = false ∧ s.bank.wraps = true)) ∧
    ∀ m l i, s.tickBank.hasSlotNotice m l i ↔ s.hasSlotNotice m l i := by
  have hm (m : ManagerId) : ({ s with bank := s.bank.tick } : State).manager m = s.manager m := by cases m <;> rfl
  have e : s.tickBank = if !s.bank.frozen && s.bank.wraps then State.postShelf .monitor { s with bank := s.bank.tick }
      else { s with bank := s.bank.tick } := rfl
  rw [e]
  split
  · next w =>
    have w : s.bank.frozen = false ∧ s.bank.wraps = true := by simpa using w
    exact ⟨fun m l => by rw [postShelf_hasShelfNotice, hasShelfNotice_congr hm, and_iff_left w],
      fun m l i => by rw [postShelf_hasSlotNotice, hasSlotNotice_congr hm]⟩
  · next w =>
    have w : ¬ (s.bank.frozen = false ∧ s.bank.wraps = true) := by simpa using w
    exact ⟨fun m l => by rw [hasShelfNotice_congr hm]; exact (or_iff_left fun k => w k.2).symm,
      fun m l i => hasSlotNotice_congr hm m l i⟩

/-- Settles O12. -/
theorem counterBankTakesTick : Obligations.CounterBankTakesTick := by
  intro s h hh
  refine ⟨_, exec_windowAndBank s, ?_⟩
  rw [takeTick_some s hh]
  intro disturbed n holds sum
  have total (k : EventKind) : (s.beforeBank h).bank.total k = n k := beforeBank_total s h k
  have hold (k : Fin 4) : holds k ↔ (s.bank.counters[k.val]).holds (n (s.bank.counters[k.val]).kind) = true :=
    (holds_iff ..).symm
  have add (k : Fin 4) : sum k = (s.bank.counters[k.val]).value +
      (s.bank.counters[k.val]).addition (n (s.bank.counters[k.val]).kind) := by
    rw [addition_eq]
    show _ + _ = _
    refine congrArg _ ?_
    cases (s.bank.counters[k.val]).mode with
    | plain => rfl
    | threshold => exact if_congr (hold k) rfl rfl
    | edge => exact if_congr (and_congr_left' (hold k)) rfl rfl
  clear_value n holds sum
  have bank : (s.beforeBank h).bank.counters = s.bank.counters ∧ (s.beforeBank h).bank.frozen = s.bank.frozen ∧
      (s.beforeBank h).bank.freezeOn = s.bank.freezeOn := ⟨rfl, rfl, rfl⟩
  have notices := tickBank_notices (s.beforeBank h)
  have wraps : (s.beforeBank h).bank.wraps = true ↔ ∃ k, 16777215 < sum k := by
    rw [wraps_iff, bank.1]
    exact exists_congr fun k => by rw [total, add]
  rw [tickBank_bank]
  have keeps : (s.beforeBank h).bank.tick.freezeOn = s.bank.freezeOn := by
    cases hf : s.bank.frozen with
    | true => exact (bankTick_frozen (bank.2.1.trans hf)).2.2
    | false => exact (bankTick_running (bank.2.1.trans hf)).2.2
  refine ⟨bankTick_total _, keeps, fun hf => ?_, fun hf => ?_⟩
  · obtain ⟨h1, h2, -⟩ := bankTick_frozen (bank.2.1.trans hf)
    have e : (s.beforeBank h).tickBank = { s.beforeBank h with bank := (s.beforeBank h).bank.tick } := by
      refine if_neg ?_
      rw [bank.2.1, hf]
      exact Bool.false_ne_true
    rw [e]
    exact ⟨h1, h2, beforeBank_manager s h .a, beforeBank_manager s h .b⟩
  · obtain ⟨h1, h2, -⟩ := bankTick_running (bank.2.1.trans hf)
    refine ⟨fun k => ?_, ?_, fun m l => ?_, fun m l i => ?_⟩
    · rw [h1, total, add, hold]
      obtain ⟨c1, c2⟩ := counter_tick (s.bank.counters[k.val]) (n (s.bank.counters[k.val]).kind)
      exact ⟨c1, c2, Iff.rfl, rfl, rfl, rfl, rfl⟩
    · rw [h2, Bool.and_eq_true, wraps, bank.2.2]
    · rw [notices.1, wraps, hasShelfNotice_congr (beforeBank_manager s h), bank.2.1, hf]
      simp
    · rw [notices.2, hasSlotNotice_congr (beforeBank_manager s h)]

end Sys2Proof.Machine
end

section
/-! # Checkpoints: a slot that goes on to QUEUED, or from CP-P and CP-L (R19, R20, R115, R163, R164) -/

namespace Sys2Proof.Machine

variable {s t u v : State} {i : SlotId} {r : Request} {m : ManagerId} {x : Slot}

/-! ## A slot goes to QUEUED -/

/-- What an event leaves in which slot `i` goes from the record `r` to QUEUED, not OVERSIZE: it stands there, or has been
granted its zone's channel. -/
structure Queues (i : SlotId) (r : Slot) (s u : State) : Prop where
  event  : QuietEvent i s u
  rests  : Rests s.timers (r.moved .queued s.timers) (u.slot i)
  posted : u.posted .state i

theorem queues_settle (hq : t.QueueSound) (c : Calm s v) (l : Local i s v) (hb : v.bank = s.bank)
    (ho : v.block.opened = s.block.opened) (hx : (v.slot i).oversize = false) (n : Noted i (v.moveTo i .queued) t) :
    Queues i (v.slot i) s (s.settle t) where
  event := quietEvent_settle ((c.trans (calm_moveTo ..)).trans n.calm) ((l.trans (local_moveTo ..)).trans n.near)
    (by rw [n.block, moveTo_opened, ho]) (by rw [n.bank, moveTo_bank _ _ _ (by decide) (by decide), hb])
  rests := by
    have e : t.slot i = (v.slot i).moved .queued s.timers := by rw [n.slot, moveTo_slot_self, c.timers]
    rw [← e]
    refine settle_rests s hq s.timers ?_
    rw [e, moved_oversize, if_neg (by decide), hx]
  posted := settle_posted s (n.calm.posted (moveTo_posted _ _ _))

section
variable (q : Queues i x s u)
include q

theorem Queues.state : (u.slot i).state = .queued ∨ (u.slot i).state = .precharge := by
  rcases q.rests with e | ⟨-, e⟩
  · rw [e, moved_state]; exact Or.inl rfl
  · exact Or.inr e.state

theorem Queues.steering : (u.slot i).steering = x.steering := by
  rcases q.rests with e | ⟨-, e⟩
  · rw [e]; exact moved_steering .queued s.timers x
  · exact e.steering.trans (moved_steering .queued s.timers x)

theorem Queues.heldMark (h : x.state = .declared) : (u.slot i).heldMark = false := by
  have k : (x.moved .queued s.timers).heldMark = false := by rw [moved_heldMark, if_pos h]
  rcases q.rests with e | ⟨-, e⟩
  · rw [e, k]
  · refine e.heldMark.trans ?_
    rw [moved_state]
    exact (if_neg (by decide)).trans k

theorem Queues.cause : (u.slot i).cause = none := by
  rcases q.rests with e | ⟨-, e⟩
  · rw [e, moved_cause]; exact if_neg (by decide)
  · exact e.cause

theorem Queues.decl : (u.slot i).decl = x.decl := by
  have k : (x.moved .queued s.timers).decl = x.decl := (moved_decl .queued s.timers x).trans (if_neg (by decide))
  rcases q.rests with e | ⟨-, e⟩
  · rw [e, k]
  · exact e.decl.trans k

end

/-! ## An AUTO slot goes on from CP-L and CP-P (R20, R115) -/

/-- What an event leaves in which an AUTO slot comes out of CP-L with the groups of the map of `v`. -/
structure Joins (i : SlotId) (d : Option Declaration) (s v u : State) : Prop where
  event   : QuietEvent i s u
  listens : AutoListens i d v u

theorem atListen_settle (hq : s.QueueSound) (c : Calm s v) (l : Local i s v) (hb : v.bank = s.bank)
    (ho : v.block.opened = s.block.opened) (hn : v.inQueue i = false) (hs : (v.slot i).state = .listen)
    (hp : (v.slot i).policy = .auto) : Joins i (v.slot i).decl s v (s.settle (v.atListen i)) := by
  have k := advanceListen_listens hs hp
  obtain ⟨o, b⟩ := advanceListen_opened v i
  have n : (v.atListen i).inQueue i = false := by
    rw [State.atListen, (noted_noteCheckpoint ..).inQueue]
    exact advanceListen_unqueued hn fun z hz e he => QueueSound.apart hq i z hz e (by rwa [l.zone z hz] at he)
  refine ⟨quietEvent_settle (c.trans (calm_atListen ..)) (l.trans (local_atListen ..)) ?_ ?_, k.settle s n⟩
  · rw [State.atListen, noteCheckpoint_block, o, ho]
  · rw [State.atListen, noteCheckpoint_bank, b, hb]

/-- An AUTO slot that goes to LISTEN comes out of CP-L in the same event. -/
theorem listen_settle (hq : s.QueueSound) (c : Calm s v) (l : Local i s v) (hb : v.bank = s.bank)
    (ho : v.block.opened = s.block.opened) (hp : (v.slot i).policy = .auto) :
    Joins i (v.slot i).decl s v (s.settle ((v.moveTo i .listen).atListen i)) ∧
    (s.settle ((v.moveTo i .listen).atListen i)).posted .state i := by
  have j := atListen_settle (v := v.moveTo i .listen) hq (c.trans (calm_moveTo ..)) (l.trans (local_moveTo ..))
    ((moveTo_bank _ _ _ (by decide) (by decide)).trans hb) ((moveTo_opened ..).trans ho) (moveTo_unqueued hq l (by decide))
    (by rw [moveTo_slot_self, moved_state]) (by rw [moveTo_slot_self, moved_policy, hp])
  rw [moveTo_slot_self, moved_decl, if_neg (by decide)] at j
  exact ⟨⟨j.event, j.listens.of_map (moveTo_map _ _ _ rfl (by decide))⟩,
    settle_posted s ((calm_atListen ..).posted (moveTo_posted _ _ _))⟩

theorem atPowered_settle (hq : s.QueueSound) (c : Calm s v) (l : Local i s v) (hb : v.bank = s.bank)
    (ho : v.block.opened = s.block.opened) (hn : v.inQueue i = false) (hp : (v.slot i).policy = .auto) :
    Joins i (v.slot i).decl s v (s.settle (v.atPowered i)) := by
  obtain ⟨o, b⟩ := atPowered_rest v i
  have n : (v.atPowered i).inQueue i = false :=
    atPowered_unqueued (fun z hz e he => QueueSound.apart hq i z hz e (by rwa [l.zone z hz] at he)) hn
  exact ⟨quietEvent_settle (c.trans (calm_atPowered ..)) (l.trans (local_atPowered ..)) (o.trans ho) (b.trans hb),
    (atPowered_listens hp).settle s n⟩

/-- A SUPERVISED slot that goes to LISTEN comes to rest there, awaiting a manager. -/
theorem atListen_rests (hs : (v.slot i).state = .listen) (hp : (v.slot i).policy = .supervised) :
    v.atListen i = v.noteCheckpoint i ∧ (v.noteCheckpoint i).posted .checkpoint i := by
  refine ⟨?_, fun m => (noteCheckpoint_hasSlotNotice ..).2 (Or.inr ⟨rfl, rfl, ?_⟩)⟩
  · unfold State.atListen State.advanceListen
    rw [if_neg (by rw [hp]; decide)]
  · unfold State.awaiting
    simp [hs, hp]

/-! ## CONTINUE -/

theorem continueBody_eq (h : Responds 1 r m i s) (hs : (s.slot i).state = .declared ∨ (s.slot i).state = .powered)
    (hx : ¬ ((s.slot i).state = .declared ∧ (s.slot i).oversize = true)) :
    continueBody r s = ((s.giveSteering i m).goOn i, slotReply .done i) := by
  rw [continueBody, respond_eq h _ (by rcases hs with hs | hs <;> rw [hs] <;> rfl)
    (by rcases hs with hs | hs <;> rw [hs] <;> decide)]
  exact if_neg hx

theorem exec_continue (h : Responds 1 r m i s) : exec (.respContinue r) s = request r (continueBody r) s :=
  responseCommand_eq h.code _

theorem continue_queues (h : Responds 1 r m i s) (hq : s.QueueSound) (hs : (s.slot i).state = .declared)
    (hx : (s.slot i).oversize = false) : ∃ u : State,
      exec (.respContinue r) s = .next (u.replied r ⟨.done, [byte (u.slot i).state.code]⟩) ∧
      Queues i ((s.slot i).steeredBy m) s u := by
  have hb := continueBody_eq h (Or.inl hs) fun k => by rw [hx] at k; exact absurd k.2 (by decide)
  have sound : ((s.giveSteering i m).goOn i).QueueSound := by
    have := RunFor.queueSound (run_continue (a := False) (s := s) r) hq
    rwa [hb] at this
  have e : (s.giveSteering i m).goOn i = (s.giveSteering i m).moveTo i .queued := if_pos (by rw [giveSteering_slot_self]; exact hs)
  refine ⟨_, by rw [exec_continue h, request_settled h.toReceived hb]; rfl, ?_⟩
  rw [e] at sound ⊢
  have q := queues_settle sound (calm_giveSteering s i m) (local_giveSteering s i m) rfl rfl
    (by rw [giveSteering_slot_self]; exact hx) (noted_refl i _)
  rwa [giveSteering_slot_self] at q

/-- Settles O44. -/
theorem continueAndHoldAnswerCheckpoint : Obligations.ContinueAndHoldAnswerCheckpoint := by
  intro r m i s hq
  refine ⟨fun h => ⟨fun hs hx => ?_, fun hs hx => ?_, fun hs => ?_⟩, fun h => ⟨fun hs => ?_, fun d hs hd => ?_⟩⟩
  · rw [exec_continue h]
    refine request_refuse h.toReceived ?_
    rw [continueBody, respond_eq h _ (by rw [hs]; rfl) (by rw [hs]; decide)]
    exact if_pos ⟨hs, hx⟩
  · obtain ⟨u, e, q⟩ := continue_queues h hq hs hx
    exact ⟨u, e, q.event, q.state, q.steering, q.heldMark hs, q.cause, q.decl, q.posted⟩
  · have hb := continueBody_eq h (Or.inr hs) fun k => by rw [hs] at k; exact absurd k.1 (by decide)
    have e : (s.giveSteering i m).goOn i = ((s.giveSteering i m).moveTo i .listen).atListen i :=
      if_neg (by rw [giveSteering_slot_self]; show ¬ (s.slot i).state = _; rw [hs]; decide)
    rw [e] at hb
    have hx : exec (.respContinue r) s = _ := (exec_continue h).trans (request_settled h.toReceived hb)
    have pol : ((s.giveSteering i m).slot i).policy = (s.slot i).policy := by rw [giveSteering_slot_self]; rfl
    cases hp : (s.slot i).policy with
    | supervised =>
      obtain ⟨k, kp⟩ := atListen_rests (v := (s.giveSteering i m).moveTo i .listen) (i := i)
        (by rw [moveTo_slot_self, moved_state]) (by rw [moveTo_slot_self, moved_policy, pol, hp])
      have g := goes_settle hq (calm_giveSteering s i m) (local_giveSteering s i m) rfl rfl rfl (st := .listen) (by decide)
        nofun nofun (noted_noteCheckpoint _ i)
      rw [giveSteering_slot_self] at g
      rw [k] at hx
      exact ⟨_, hx, g.event, g.posted, fun _ => ⟨g.entered, g.held rfl (by decide), settle_posted s kp⟩, nofun⟩
    | auto =>
      obtain ⟨j, jp⟩ := listen_settle hq (calm_giveSteering s i m) (local_giveSteering s i m) rfl rfl (pol.trans hp)
      rw [giveSteering_slot_self] at j
      exact ⟨_, hx, j.event, jp, nofun, fun _ => j.listens.of_map rfl⟩
  · have hb : holdBody r s = ((s.giveSteering i m).modSlot i fun r => { r with heldMark := true }, slotReply .done i) := by
      rw [holdBody, respond_eq h _ (by rw [hs]; rfl) (by rw [hs]; decide)]
      exact congrArg (·, slotReply .done i) (if_pos (by rw [giveSteering_slot_self]; exact hs))
    have y := stays_steered_modSlot s i m fun r => { r with heldMark := true }
    have hz := steered_modSlot_zone s i m fun r => { r with heldMark := true }
    refine ⟨_, ?_, y.event, y.record, hz, y.map, y.block⟩
    rw [show exec (.respHold r) s = responseCommand 2 r (holdBody r) s from rfl, responseCommand_eq h.code,
      request_stays h.toReceived hb hz (by rw [y.record]; rfl), hs]
    rfl
  · have hb : holdBody r s = ((s.giveSteering i m).toDeclared i true none, slotReply .done i) := by
      rw [holdBody, respond_eq h _ (by rw [hs]; rfl) (by rw [hs]; decide)]
      exact congrArg (·, slotReply .done i)
        (if_neg (by rw [giveSteering_slot_self]; show ¬ (s.slot i).state = _; rw [hs]; decide))
    have hd' : ((s.giveSteering i m).slot i).decl = some d := by rw [giveSteering_slot_self]; exact hd
    obtain ⟨r1, r2, -, r4⟩ := toDeclared_rest (s.giveSteering i m) i true none (by rw [hd']; rfl)
    obtain ⟨k1, k2, k3, k4, k5, -, kz, ks⟩ := toDeclared_held (s.giveSteering i m) i hd'
    have hn : ((s.giveSteering i m).toDeclared i true none).inQueue i = false :=
      inQueue_mono (fun z e he => by rwa [kz] at he)
        (moveTo_unqueued hq (local_giveSteering s i m) (st := .declared) (by decide))
    have u := settled s hn
    rw [giveSteering_slot_self] at ks
    refine ⟨_, ?_, quietEvent_settle ((calm_giveSteering ..).trans (calm_toDeclared ..))
      ((local_giveSteering ..).trans (local_toDeclared ..)) r2 r1, ?_⟩
    · rw [show exec (.respHold r) s = responseCommand 2 r (holdBody r) s from rfl, responseCommand_eq h.code,
        request_settled h.toReceived hb, slotReply, u.slot, k1]
      rfl
    · rw [u.slot]
      exact ⟨k1, k2, k4, ks, k3, u.inQueue, u.posted _ r4, u.posted _ k5⟩

end Sys2Proof.Machine
end

section
/-! # SET_SLOT_POLICY: what is set, and what a slot that waits does of it (R83, R115, R162) -/

namespace Sys2Proof.Machine

variable {s t u v w : State} {i j : SlotId} {r : Request} {m : ManagerId} {policy : Policy} {prio : Option (Fin 4)}

/-! ## What neither a transition nor the end of an event changes of a slot -/

/-- The policy, the override and the steering of a slot's record are kept. -/
structure Slot.KeepsChoice (x y : Slot) : Prop where
  policy   : y.policy = x.policy
  override : y.override = x.override
  steering : y.steering = x.steering

theorem keepsChoice_refl (x : Slot) : x.KeepsChoice x := ⟨rfl, rfl, rfl⟩

theorem Slot.KeepsChoice.trans {x y z : Slot} (h : x.KeepsChoice y) (k : y.KeepsChoice z) : x.KeepsChoice z :=
  ⟨k.policy.trans h.policy, k.override.trans h.override, k.steering.trans h.steering⟩

theorem keepsChoice_moved {st : SlotState} (h : st.unsteered = false) (T : TimerSettings) (x : Slot) :
    x.KeepsChoice (x.moved st T) :=
  ⟨moved_policy .., moved_override .., (moved_steering st T x).trans (if_neg (by rw [h]; decide))⟩

theorem keepsChoice_moveTo {st : SlotState} (h : st.unsteered = false) (s : State) (i : SlotId) :
    (s.slot i).KeepsChoice ((s.moveTo i st).slot i) := by
  rw [moveTo_slot_self]
  exact keepsChoice_moved h ..

theorem Examines.keepsChoice (h : Examines s t) (j : SlotId) : s.QueueSound → (s.slot j).KeepsChoice (t.slot j) := by
  induction h with
  | rest hs hz =>
    intro _
    unfold State.slot
    rw [hs]
    exact keepsChoice_refl _
  | @sweep s i _ =>
    intro _
    by_cases hj : j = i
    · subst hj; exact keepsChoice_moveTo rfl ..
    · rw [(local_moveTo ..).slots j hj]
      exact keepsChoice_refl _
  | @grant s z e l hq hw =>
    intro h
    obtain ⟨d, g⟩ := h.grantable hq hw
    by_cases hj : j = e.slot
    · subst hj
      rw [grantTo_slot_self g.decl]
      exact (keepsChoice_moved (st := .precharge) rfl s.timers (s.slot e.slot)).trans ⟨rfl, rfl, rfl⟩
    · rw [grantTo_slot_ne _ _ hj]
      exact keepsChoice_refl _
  | trans h1 _ h k => exact fun hq => (h hq).trans (k (h1.queueSound hq))

theorem keepsChoice_atListen (s : State) (i : SlotId) : (s.slot i).KeepsChoice ((s.atListen i).slot i) := by
  rw [State.atListen, noteCheckpoint_slot]
  rcases advanceListen_record s i with e | e
  · rw [e]; exact keepsChoice_refl _
  · rw [e]; exact keepsChoice_moved rfl ..

theorem keepsChoice_atPowered (s : State) (i : SlotId) : (s.slot i).KeepsChoice ((s.atPowered i).slot i) := by
  rw [State.atPowered, noteCheckpoint_slot]
  unfold State.advancePowered
  split
  · refine (keepsChoice_moveTo (st := .listen) rfl s i).trans ?_
    have k := keepsChoice_atListen (s.moveTo i .listen) i
    rwa [State.atListen, noteCheckpoint_slot] at k
  · exact keepsChoice_refl _

/-! ## The two changes of policy -/

/-- What an event's own part does to slot `i` without a closing of the window or a count: it is calm and of that slot
alone. -/
structure Quietly (i : SlotId) (s t : State) : Prop where
  calm   : Calm s t
  near   : Local i s t
  opened : t.block.opened = s.block.opened
  bank   : t.bank = s.bank

theorem Quietly.trans (h : Quietly i s t) (k : Quietly i t u) : Quietly i s u :=
  ⟨h.calm.trans k.calm, h.near.trans k.near, k.opened.trans h.opened, k.bank.trans h.bank⟩

theorem Quietly.event (h : Quietly i s t) : QuietEvent i s (s.settle t) :=
  quietEvent_settle h.calm h.near h.opened h.bank

theorem quietly_refl (s : State) : Quietly i s s := ⟨.refl _, .refl .., rfl, rfl⟩

theorem quietly_modSlot (f : Slot → Slot) : Quietly i s (s.modSlot i f) :=
  ⟨calm_modSlot .., local_modSlot .., rfl, rfl⟩

theorem quietly_postSlot (k : SlotNotice) : Quietly i s (s.postSlot k i) :=
  ⟨calm_postSlot .., local_postSlot .., rfl, rfl⟩

theorem quietly_replace (s : State) : Quietly i s (s.replace i) :=
  ⟨(calm_leaveQueue ..).trans (calm_joinQueue ..), (local_leaveQueue ..).trans (local_joinQueue ..),
    congrArg WindowBlock.opened ((modZone_block ..).trans (modZone_block ..)), (modZone_bank ..).trans (modZone_bank ..)⟩

theorem quietly_becomeAuto (s : State) : Quietly i s (s.becomeAuto i) := by
  unfold State.becomeAuto
  split
  · obtain ⟨b, o, -⟩ := autoAdvance_rest s i
    exact ⟨calm_autoAdvance .., local_autoAdvance .., o, b⟩
  · obtain ⟨o, b⟩ := atPowered_rest s i
    exact ⟨calm_atPowered .., local_atPowered .., o, b⟩
  · obtain ⟨o, b⟩ := advanceListen_opened s i
    refine ⟨calm_atListen .., local_atListen .., ?_, ?_⟩
    · rw [State.atListen, noteCheckpoint_block, o]
    · rw [State.atListen, noteCheckpoint_bank, b]
  · exact quietly_modSlot _
  · exact quietly_refl s

theorem quietly_becomeSupervised (s : State) : Quietly i s (s.becomeSupervised i) := by
  unfold State.becomeSupervised
  split
  · exact quietly_postSlot _
  · exact quietly_postSlot _
  · exact quietly_postSlot _
  · exact (quietly_modSlot _).trans (quietly_postSlot _)
  · exact quietly_refl s

theorem keepsChoice_becomeAuto (s : State) (i : SlotId) : (s.slot i).KeepsChoice ((s.becomeAuto i).slot i) := by
  unfold State.becomeAuto
  split
  · unfold State.autoAdvance
    dsimp only
    split
    · exact keepsChoice_moveTo rfl ..
    · exact keepsChoice_refl _
  · exact keepsChoice_atPowered ..
  · exact keepsChoice_atListen ..
  · rw [modSlot_slot_self]; exact ⟨rfl, rfl, rfl⟩
  · exact keepsChoice_refl _

theorem keepsChoice_becomeSupervised (s : State) (i : SlotId) : (s.slot i).KeepsChoice ((s.becomeSupervised i).slot i) := by
  unfold State.becomeSupervised
  split
  · exact keepsChoice_refl _
  · exact keepsChoice_refl _
  · exact keepsChoice_refl _
  · rw [postSlot_slot, modSlot_slot_self]
    exact ⟨rfl, rfl, rfl⟩
  · exact keepsChoice_refl _

/-- A slot that waits at no checkpoint does nothing at a change of its policy. -/
theorem becomes_nothing (h : (s.slot i).state ∉ [SlotState.declared, .powered, .listen, .reverted]) :
    s.becomeAuto i = s ∧ s.becomeSupervised i = s := by
  unfold State.becomeAuto State.becomeSupervised
  constructor <;> (split <;> simp_all)

/-! ## The setting -/

/-- The record of a slot whose policy and override have been written. -/
def Slot.chosen (policy : Policy) (prio : Option (Fin 4)) (x : Slot) : Slot := { x with policy := policy, override := prio }

/-- The slot's settings are written, and nothing more done. -/
def State.choose (i : SlotId) (policy : Policy) (prio : Option (Fin 4)) (s : State) : State :=
  s.modSlot i (Slot.chosen policy prio)

theorem choose_slot (s : State) (i : SlotId) : (s.choose i policy prio).slot i = (s.slot i).chosen policy prio :=
  modSlot_slot_self ..

theorem replace_slot (s : State) (i j : SlotId) : (s.replace i).slot j = s.slot j := by
  unfold State.replace
  rw [joinQueue_slot, leaveQueue_slot]

/-- A QUEUED slot whose override changes is placed again; it does nothing else. -/
theorem setPolicy_placed (h : (s.slot i).state = .queued) (ho : (s.slot i).override ≠ prio) :
    s.setPolicy i policy prio = (s.choose i policy prio).replace i := by
  have hs : (((s.choose i policy prio).replace i).slot i).state = .queued := by rw [replace_slot, choose_slot]; exact h
  obtain ⟨a, b⟩ := becomes_nothing (s := (s.choose i policy prio).replace i) (i := i) (by rw [hs]; decide)
  have hc : (s.slot i).state = .queued ∧ (s.slot i).override ≠ prio := ⟨h, ho⟩
  unfold State.setPolicy
  dsimp only
  rw [if_pos hc]
  by_cases hp : (s.slot i).policy = policy
  · exact if_pos hp
  · refine (if_neg hp).trans ?_
    cases policy with
    | auto => exact a
    | supervised => exact b

theorem setPolicy_unplaced (h : ¬ ((s.slot i).state = .queued ∧ (s.slot i).override ≠ prio)) : s.setPolicy i policy prio =
    if (s.slot i).policy = policy then s.choose i policy prio else
      match policy with
      | .auto => (s.choose i policy prio).becomeAuto i
      | .supervised => (s.choose i policy prio).becomeSupervised i := by
  unfold State.setPolicy
  dsimp only
  rw [if_neg h]
  rfl

/-- A slot that waits at no checkpoint, or whose policy stays, has its settings written. -/
theorem setPolicy_chosen (h : ¬ ((s.slot i).state = .queued ∧ (s.slot i).override ≠ prio))
    (hp : (s.slot i).policy = policy ∨ (s.slot i).state ∉ [SlotState.declared, .powered, .listen, .reverted]) :
    s.setPolicy i policy prio = s.choose i policy prio := by
  rw [setPolicy_unplaced h]
  split
  · rfl
  · next k =>
    obtain ⟨a, b⟩ := becomes_nothing (s := s.choose i policy prio) (i := i) (by
      rw [choose_slot]; exact hp.resolve_left k)
    cases policy with
    | auto => exact a
    | supervised => exact b

theorem setPolicy_auto (h : (s.slot i).state ≠ .queued) (hp : (s.slot i).policy = .supervised) :
    s.setPolicy i .auto prio = (s.choose i .auto prio).becomeAuto i := by
  rw [setPolicy_unplaced fun k => h k.1, if_neg (by rw [hp]; decide)]

theorem setPolicy_supervised (h : (s.slot i).state ≠ .queued) (hp : (s.slot i).policy = .auto) :
    s.setPolicy i .supervised prio = (s.choose i .supervised prio).becomeSupervised i := by
  rw [setPolicy_unplaced fun k => h k.1, if_neg (by rw [hp]; decide)]

theorem setPolicy_sets (s : State) (i : SlotId) (policy : Policy) (prio : Option (Fin 4)) :
    Quietly i s (s.setPolicy i policy prio) ∧
    ((s.slot i).chosen policy prio).KeepsChoice ((s.setPolicy i policy prio).slot i) := by
  have q : Quietly i s (s.choose i policy prio) := quietly_modSlot _
  have e := choose_slot (policy := policy) (prio := prio) s i
  by_cases h : (s.slot i).state = .queued ∧ (s.slot i).override ≠ prio
  · rw [setPolicy_placed h.1 h.2, replace_slot, e]
    exact ⟨q.trans (quietly_replace _), keepsChoice_refl _⟩
  · rw [setPolicy_unplaced h, ← e]
    split
    · exact ⟨q, keepsChoice_refl _⟩
    · cases policy with
      | auto => exact ⟨q.trans (quietly_becomeAuto _), keepsChoice_becomeAuto ..⟩
      | supervised => exact ⟨q.trans (quietly_becomeSupervised _), keepsChoice_becomeSupervised ..⟩

/-- A SET_SLOT_POLICY keeps its zone's queues where it does no more than write. -/
theorem settle_choose (s : State) (i : SlotId) (policy : Policy) (prio : Option (Fin 4)) :
    s.settle (s.choose i policy prio) = s.choose i policy prio :=
  settle_of_zones (modSlot_zone s i (Slot.chosen policy prio) .one) (modSlot_zone s i (Slot.chosen policy prio) .two)

/-- A QUEUED slot placed again stands behind its new equals, unless its zone's head goes on with it. -/
theorem replaced_stands (hq : s.QueueSound) (h : (s.slot i).state = .queued) (ho : (s.slot i).override ≠ prio) :
    let u := s.settle (s.setPolicy i policy prio); let set := (s.slot i).chosen policy prio
    (u.slot i = set ∧ ∃ x y, (u.zone (zoneOf i)).queue = x ++ ⟨i, set.effectivePriority⟩ :: y ∧
      x.all (fun e => e.priority ≤ set.effectivePriority) ∧ y.all (fun e => set.effectivePriority < e.priority)) ∨
    (u.slot i).state = .precharge ∨ ((u.slot i).state = .declared ∧ (s.slot i).oversize = true) := by
  intro u set
  have run := run_setPolicy (a := False) s i policy prio
  have eos : EndOfEvent (s.setPolicy i policy prio) u := endOfEvent_settle _ s
  have before : (s.setPolicy i policy prio).slot i = set := by rw [setPolicy_placed h ho, replace_slot, choose_slot]
  rcases eos.swept i with e | e | e
  · rw [before] at e
    have others (j : SlotId) (hj : j ≠ i) : (u.slot j).state = .queued →
        (s.slot j).state = .queued ∧ (u.slot j).override = (s.slot j).override := fun hu => by
      have k := ((examines_settle s (run.queueSound hq)).granted (run.queueSound hq) j).1 hu
      have l := (setPolicy_sets s i policy prio).1.near.slots j hj
      exact ⟨by rw [← l, ← k, hu], by rw [k, l]⟩
    have hu : (u.slot i).state = .queued := by rw [e]; exact h
    obtain ⟨places, -⟩ := (run.settle hq s).places hq
      (placed := fun j => decide ((s.slot j).state ≠ .queued ∨ (u.slot j).override ≠ (s.slot j).override)) fun j => by
        rw [decide_eq_true_iff]
        exact ⟨fun k => k.imp id Or.inl, fun k => k.imp id fun k => k.resolve_right id⟩
    have hi : (u.slot i).override ≠ (s.slot i).override := by rw [e]; exact fun k => ho k.symm
    obtain ⟨x, y, hxy, hx, hy⟩ := places i (decide_eq_true (Or.inr hi)) hu
    have hsound := (run.settle hq s).queueSound hq
    have hye : ∀ e' ∈ y, set.effectivePriority < e'.priority := fun e' he' => by
      rcases hy e' he' with k | ⟨-, k, lt⟩
      · rwa [e] at k
      · have mem : e' ∈ (u.zone (zoneOf i)).queue := by
          rw [hxy]; exact List.mem_append_right _ (List.mem_cons_of_mem _ he')
        obtain ⟨hs, hov⟩ := others e'.slot (fun k => by rw [k] at lt; exact lt_irrefl _ lt)
          ((hsound.member _ e'.slot).1 ⟨e', mem, rfl⟩).1
        exact absurd (of_decide_eq_true k) fun k => k.elim (fun k => k hs) fun k => k hov
    rw [e] at hxy hx
    exact Or.inl ⟨e, x, y, hxy, List.all_eq_true.2 fun e' he' => decide_eq_true (hx e' he'),
      List.all_eq_true.2 fun e' he' => decide_eq_true (hye e' he')⟩
  · exact Or.inr (Or.inl e)
  · refine Or.inr (Or.inr ⟨e, ?_⟩)
    by_contra hx
    have hb : ((s.setPolicy i policy prio).slot i).oversize = false := by
      rw [before]; exact Bool.eq_false_iff.2 hx
    rcases eos.granted i hb with k | k
    · rw [k, before] at e
      rw [show set.state = (s.slot i).state from rfl, h] at e
      cases e
    · rw [k] at e; cases e

/-! ## What becomes of a slot that waits -/

theorem auto_queues (hq : s.QueueSound) (hp : (s.slot i).policy = .supervised) (hs : (s.slot i).state = .declared)
    (hx : (s.slot i).oversize = false) (hm : (s.slot i).heldMark = false) (hc : (s.slot i).cause ≠ some .zoneDark) :
    ((s.settle (s.setPolicy i .auto prio)).slot i).state = .queued ∨
    ((s.settle (s.setPolicy i .auto prio)).slot i).state = .precharge := by
  have sound := (run_setPolicy (a := False) s i .auto prio).queueSound hq
  have e : s.setPolicy i .auto prio = (s.choose i .auto prio).moveTo i .queued := by
    rw [setPolicy_auto (by rw [hs]; decide) hp]
    unfold State.becomeAuto
    rw [show ((s.choose i .auto prio).slot i).state = .declared by rw [choose_slot]; exact hs]
    show (s.choose i .auto prio).autoAdvance i = _
    unfold State.autoAdvance
    rw [choose_slot]
    exact if_pos ⟨hs, rfl, hx, hm, fun k => hc k.1⟩
  rw [e] at sound ⊢
  exact (queues_settle (v := s.choose i .auto prio) sound (calm_modSlot ..) (local_modSlot ..) rfl rfl (by rw [choose_slot]; exact hx)
    (noted_refl i _)).state

theorem auto_joins (hq : s.QueueSound) (hp : (s.slot i).policy = .supervised)
    (hs : (s.slot i).state = .powered ∨ (s.slot i).state = .listen) :
    AutoListens i (s.slot i).decl s (s.settle (s.setPolicy i .auto prio)) := by
  have hn : (s.choose i .auto prio).inQueue i = false := by
    have k : s.inQueue i = false := QueueSound.notIn hq (by rcases hs with hs | hs <;> rw [hs] <;> decide)
    unfold State.inQueue at k ⊢
    exact k
  have e : (s.choose i .auto prio).slot i = (s.slot i).chosen .auto prio := choose_slot ..
  have st : ((s.choose i .auto prio).slot i).state = (s.slot i).state := by rw [e]; rfl
  have q : Quietly i s (s.choose i .auto prio) := quietly_modSlot _
  rw [setPolicy_auto (by rcases hs with hs | hs <;> rw [hs] <;> decide) hp]
  unfold State.becomeAuto
  rw [st]
  rcases hs with hs | hs <;> rw [hs]
  · have j := atPowered_settle hq q.calm q.near rfl rfl hn (by rw [e]; rfl)
    rw [e] at j
    exact j.listens.of_map rfl
  · have j := atListen_settle hq q.calm q.near rfl rfl hn (by rw [st, hs]) (by rw [e]; rfl)
    rw [e] at j
    exact j.listens.of_map rfl

theorem auto_retries (hp : (s.slot i).policy = .supervised) (hs : (s.slot i).state = .reverted) :
    (s.settle (s.setPolicy i .auto prio)).slot i =
      { (s.slot i).chosen .auto prio with backoffTimer := .running 0 (64 * (s.slot i).attempts) } := by
  have e : s.setPolicy i .auto prio = (s.choose i .auto prio).modSlot i
      fun r => { r with backoffTimer := .running 0 (64 * r.attempts) } := by
    rw [setPolicy_auto (by rw [hs]; decide) hp]
    unfold State.becomeAuto
    rw [show ((s.choose i .auto prio).slot i).state = .reverted by rw [choose_slot]; exact hs]
  rw [e, settle_of_zones]
  · rw [modSlot_slot_self, choose_slot]
    rfl
  · rfl
  · rfl

theorem supervised_waits (hp : (s.slot i).policy = .auto)
    (hs : (s.slot i).state = .declared ∨ (s.slot i).state = .powered ∨ (s.slot i).state = .listen) :
    let u := s.settle (s.setPolicy i .supervised prio)
    u.slot i = (s.slot i).chosen .supervised prio ∧ u.posted .checkpoint i := by
  have e : s.setPolicy i .supervised prio = (s.choose i .supervised prio).postSlot .checkpoint i := by
    rw [setPolicy_supervised (by rcases hs with hs | hs | hs <;> rw [hs] <;> decide) hp]
    unfold State.becomeSupervised
    rw [show ((s.choose i .supervised prio).slot i).state = (s.slot i).state by rw [choose_slot]; rfl]
    rcases hs with hs | hs | hs <;> rw [hs]
  dsimp only
  rw [e, settle_of_zones]
  · exact ⟨choose_slot .., posted_postSlot _ _ _⟩
  · rfl
  · rfl

theorem supervised_stops (hp : (s.slot i).policy = .auto) (hs : (s.slot i).state = .reverted) :
    let u := s.settle (s.setPolicy i .supervised prio)
    u.slot i = { (s.slot i).chosen .supervised prio with backoffTimer := .stopped } ∧ u.posted .checkpoint i := by
  have e : s.setPolicy i .supervised prio = ((s.choose i .supervised prio).modSlot i
      fun r => { r with backoffTimer := .stopped }).postSlot .checkpoint i := by
    rw [setPolicy_supervised (by rw [hs]; decide) hp]
    unfold State.becomeSupervised
    rw [show ((s.choose i .supervised prio).slot i).state = .reverted by rw [choose_slot]; exact hs]
  dsimp only
  rw [e, settle_of_zones]
  · exact ⟨by rw [postSlot_slot, modSlot_slot_self, choose_slot], posted_postSlot _ _ _⟩
  · rfl
  · rfl

/-- Settles O43. -/
theorem policyActsAtCheckpoints : Obligations.PolicyActsAtCheckpoints := by
  intro r m i s p o l policy prio h hq hr hp ho
  have hb : setSlotPolicyBody r s = (s.setPolicy i policy prio, fun _ => ⟨.done, []⟩) := by
    rw [setSlotPolicyBody, onSlot_eq h, hr]
    simp only [policySetting?, hp, ho]
  obtain ⟨q, k⟩ := setPolicy_sets s i policy prio
  have sound := (run_setPolicy (a := False) s i policy prio).queueSound hq
  have k' := k.trans ((examines_settle s sound).keepsChoice i sound)
  refine ⟨s.settle (s.setPolicy i policy prio), request_settled h.toReceived hb, q.event, k'.policy, k'.override, k'.steering,
    fun hs hc => ?_, fun hs hc => ?_, replaced_stands hq, fun hw ha => ?_, fun hw ha => ?_⟩
  · rw [setPolicy_chosen (fun k => hs k.1) hc, settle_choose]
    exact ⟨choose_slot .., rfl, rfl⟩
  · rw [setPolicy_chosen (fun k => k.2 hc) (Or.inr (by rw [hs]; decide)), settle_choose]
    exact ⟨choose_slot .., fun z => by rw [State.choose, modSlot_zone]⟩
  · subst ha
    exact ⟨auto_queues hq hw, auto_joins hq hw, auto_retries hw⟩
  · subst ha
    exact ⟨supervised_waits hw, supervised_stops hw⟩

end Sys2Proof.Machine
end

section
/-! # ASSIGN_GROUPS and RELEASE_GROUPS (R112 to R115) -/

namespace Sys2Proof.Machine

variable {s t u v : State} {i : SlotId} {r : Request} {m : ManagerId} {gs new : GroupSet}

/-! ## The tests of both -/

theorem changeGroups_eq (h : ToSlot r m i s) (hl : ListsGroups r.params gs) (ht : (s.slot i).state.takesGroups = true)
    (hu : (s.slot i).undoWait = false) (hw : s.holdsWindow i = false) (k : SlotId → GroupSet → Body) :
    changeGroups r k s = k i gs s := by
  have h1 : ¬ ((s.slot i).state.takesGroups = false ∨ (s.slot i).undoWait = true) := by rw [ht, hu]; decide
  rw [changeGroups, onSlot_eq h, if_neg h1, if_neg (by rw [hw]; exact Bool.false_ne_true), groupList_iff.2 hl]

theorem ownedByOther_eq_false (h : ∀ g : GroupId, gs.mem g = true → s.map[g.val] = none ∨ s.map[g.val] = some i) :
    s.ownedByOther i gs = false := by
  rw [State.ownedByOther, List.any_eq_false]
  intro g _ k
  obtain ⟨kg, kn⟩ := Bool.and_eq_true_iff.1 k
  obtain ⟨k1, k2⟩ := of_decide_eq_true kn
  exact (h g kg).elim k1 k2

/-- What is done to a slot's groups before its record or its place changes is of that slot alone. -/
theorem quietly_claimSet (h : ∀ g : GroupId, gs.mem g = true → s.map[g.val] = none ∨ s.map[g.val] = some i) :
    Quietly i s (s.claimSet i gs) :=
  ⟨calm_claimSet .., local_claimSet s i gs h, congrArg WindowBlock.opened (claimSet_block ..), claimSet_bank ..⟩

theorem quietly_freeSet (s : State) (i : SlotId) (gs : GroupSet) : Quietly i s (s.freeSet i gs) :=
  ⟨calm_freeSet .., local_freeSet .., congrArg WindowBlock.opened (freeSet_block ..), freeSet_bank ..⟩

/-- The groups of slot `i` become `new`, with a STATE notice, and nothing else of it changes. -/
structure Regives (i : SlotId) (new : GroupSet) (s v : State) : Prop where
  quiet  : Quietly i s v
  slot   : v.slot i = s.slot i
  zone   : ∀ z, v.zone z = s.zone z
  block  : v.block = s.block
  held   : v.heldGroups i = new
  posted : v.posted .state i

theorem claims (h : ∀ g : GroupId, gs.mem g = true → s.map[g.val] = none ∨ s.map[g.val] = some i) :
    Regives i (s.heldGroups i ||| gs) s ((s.claimSet i gs).postSlot .state i) where
  quiet := (quietly_claimSet h).trans (quietly_postSlot _)
  slot := (postSlot_slot ..).trans (claimSet_slot ..)
  zone _ := (postSlot_zone ..).trans (claimSet_zone ..)
  block := (postSlot_block ..).trans (claimSet_block ..)
  held := (postSlot_heldGroups ..).trans (claimSet_heldGroups ..)
  posted := posted_postSlot _ _ _

theorem frees (s : State) (i : SlotId) (gs : GroupSet) :
    Regives i (s.heldGroups i &&& ~~~gs) s ((s.freeSet i gs).postSlot .state i) where
  quiet := (quietly_freeSet ..).trans (quietly_postSlot _)
  slot := (postSlot_slot ..).trans (freeSet_slot ..)
  zone _ := (postSlot_zone ..).trans (freeSet_zone ..)
  block := (postSlot_block ..).trans (freeSet_block ..)
  held := (postSlot_heldGroups ..).trans (freeSet_heldGroups ..)
  posted := posted_postSlot _ _ _

/-- An event that keeps both zones ends as it is. -/
theorem Quietly.kept (h : Quietly i s u) (hz : ∀ z, u.zone z = s.zone z) : QuietEvent i s u :=
  quietEvent_of_zones h.calm h.near h.opened h.bank hz

/-! ## A LIVE slot's regroup (R114) -/

/-- What becomes of the record `x` of a LIVE slot, and of its place in the change list, when its transmit set is to be
`new`. -/
def Regrouped (i : SlotId) (x : Slot) (u : State) (new : GroupSet) : Prop :=
  if new = x.lane.transmit then
    u.slot i = { x with lane := { x.lane with pending := none } } ∧ ∀ e ∈ u.block.list, e.slot ≠ i
  else u.slot i = { x with lane := { x.lane with pending := some new } } ∧
    (x.lane.pending = none → ⟨i, .regroup⟩ ∈ u.block.list)

/-- What a change of a LIVE slot's pending regroup leaves. -/
structure SetsRegroup (i : SlotId) (new : GroupSet) (s u : State) : Prop where
  quiet     : Quietly i s u
  zone      : ∀ z, u.zone z = s.zone z
  held      : u.heldGroups i = s.heldGroups i
  posted    : u.posted .state i
  regrouped : Regrouped i (s.slot i) u new

theorem setRegroup_sets (s : State) (i : SlotId) (new : GroupSet) : SetsRegroup i new s (s.setRegroup i new) := by
  unfold State.setRegroup
  by_cases h : new = (s.slot i).lane.transmit
  · dsimp only
    rw [if_neg (not_not.2 h)]
    refine ⟨⟨((calm_modLane ..).trans (calm_dropChange ..)).trans (calm_postSlot ..),
      ((local_modLane ..).trans (local_dropChange ..)).trans (local_postSlot ..), rfl, rfl⟩, fun _ => rfl, rfl,
      posted_postSlot _ _ _, ?_⟩
    unfold Regrouped
    rw [if_pos h]
    refine ⟨by rw [postSlot_slot, dropChange_slot, modLane_slot_self], fun x hx => ?_⟩
    exact of_decide_eq_true (List.mem_filter.1 hx).2
  · dsimp only
    rw [if_pos h]
    cases hp : (s.slot i).lane.pending with
    | some old =>
      rw [if_pos (show (some old).isSome = true from rfl)]
      refine ⟨⟨(calm_modLane ..).trans (calm_postSlot ..), (local_modLane ..).trans (local_postSlot ..), rfl, rfl⟩,
        fun _ => rfl, rfl, posted_postSlot _ _ _, ?_⟩
      unfold Regrouped
      rw [if_neg h, hp]
      exact ⟨by rw [postSlot_slot, modLane_slot_self], nofun⟩
    | none =>
      rw [if_neg (show ¬ (none : Option GroupSet).isSome = true from Bool.false_ne_true)]
      refine ⟨⟨((calm_modLane ..).trans (calm_addChange ..)).trans (calm_postSlot ..),
        ((local_modLane ..).trans (local_addChange ..)).trans (local_postSlot ..), rfl, rfl⟩, fun _ => rfl, rfl,
        posted_postSlot _ _ _, ?_⟩
      unfold Regrouped
      rw [if_neg h, hp]
      refine ⟨by rw [postSlot_slot, addChange_slot, modLane_slot_self], fun _ => ?_⟩
      exact (mem_insertChange ..).2 (Or.inl rfl)

/-- The reply that a LIVE slot's groups give (Table 11-6). -/
theorem groupsReply_live (hs : (s.slot i).state = .live) : groupsReply i s =
    ⟨if (s.slot i).lane.pending = none then .done else .accepted, groupBytes (s.heldGroups i) ++
      groupBytes (s.slot i).lane.transmit ++ groupBytes ((s.slot i).lane.pending.getD 0)⟩ := by
  unfold groupsReply groupsData
  rw [if_pos hs]
  cases hp : (s.slot i).lane.pending with
  | none => rw [if_neg (by rintro ⟨-, k⟩; cases k), if_pos rfl]
  | some p => rw [if_pos ⟨hs, rfl⟩, if_neg nofun]

theorem groupsReply_other (hs : (s.slot i).state ≠ .live) : groupsReply i s = ⟨.done, groupBytes (s.heldGroups i)⟩ := by
  unfold groupsReply groupsData
  rw [if_neg (fun k => hs k.1), if_neg hs]

theorem Regrouped.same {x : Slot} (h : Regrouped i x u new) : (u.slot i).state = x.state ∧
    (u.slot i).lane.transmit = x.lane.transmit := by
  unfold Regrouped at h
  split at h <;> (rw [h.1]; exact ⟨rfl, rfl⟩)

/-! ## A slot with groups goes on, one without goes back (R113) -/

/-- A slot that goes on to JOIN_WAIT with the groups it has claimed. -/
theorem joinWait_settle (hq : s.QueueSound) (q : Quietly i s v) (hs : v.slot i = s.slot i) : let u := s.settle (v.moveTo i .joinWait)
    QuietEvent i s u ∧ u.heldGroups i = v.heldGroups i ∧ u.posted .state i ∧
      Entered .joinWait s.timers (s.slot i) (u.slot i) ∧ ⟨i, .join⟩ ∈ u.block.list := by
  intro u
  have e := settled s (moveTo_unqueued hq q.near (st := .joinWait) (by decide))
  have q' : Quietly i s (v.moveTo i .joinWait) := q.trans
    ⟨calm_moveTo .., local_moveTo .., moveTo_opened .., moveTo_bank _ _ _ (by decide) (by decide)⟩
  refine ⟨q'.event, ?_, e.posted _ (moveTo_posted _ _ _), ?_, ?_⟩
  · rw [e.held]; exact moveTo_held (st := .joinWait) v i rfl (by decide) i
  · rw [e.slot, moveTo_slot_self, hs, q.calm.timers]; exact entered_moved ..
  · exact (e.listed _ rfl).2 ((moveTo_listed _ _ _ _ rfl).2 (Or.inl ⟨rfl, rfl⟩))

theorem assign_now (h : ∀ g : GroupId, gs.mem g = true → s.map[g.val] = none ∨ s.map[g.val] = some i) (hq : s.QueueSound)
    (hs : (s.slot i).state ≠ .live) : let u := s.settle (s.assign i gs)
    QuietEvent i s u ∧ u.heldGroups i = s.heldGroups i ||| gs ∧ u.posted .state i ∧ (u.slot i).state ≠ .live ∧
      (s.heldGroups i = 0 ∧ (s.slot i).joinsOnGroups = true →
        Entered .joinWait s.timers (s.slot i) (u.slot i) ∧ ⟨i, .join⟩ ∈ u.block.list) ∧
      (¬ (s.heldGroups i = 0 ∧ (s.slot i).joinsOnGroups = true) → u.slot i = s.slot i ∧ u.block = s.block) := by
  have g := claims h
  have e : s.assign i gs = if s.heldGroups i = 0 ∧ (((s.claimSet i gs).postSlot .state i).slot i).joinsOnGroups = true
      then ((s.claimSet i gs).postSlot .state i).moveTo i .joinWait else (s.claimSet i gs).postSlot .state i :=
    if_neg hs
  rw [g.slot] at e
  generalize (s.claimSet i gs).postSlot .state i = v at g e
  by_cases hj : s.heldGroups i = 0 ∧ (s.slot i).joinsOnGroups = true
  · obtain ⟨k1, k2, k3, k4, k5⟩ := joinWait_settle hq g.quiet g.slot
    rw [e, if_pos hj]
    exact ⟨k1, k2.trans g.held, k3, by rw [k4.state]; decide, fun _ => ⟨k4, k5⟩, fun k => absurd hj k⟩
  · rw [e, if_neg hj, settle_of_zones (g.zone .one) (g.zone .two)]
    exact ⟨g.quiet.kept g.zone, g.held, g.posted, by rw [g.slot]; exact hs, fun k => absurd k hj, fun _ => ⟨g.slot, g.block⟩⟩

/-- An AUTO slot that comes out of CP-L without groups has not gone on the change list. -/
theorem advanceListen_block (h : (s.advanceListen i).heldGroups i = 0) : (s.advanceListen i).block = s.block := by
  obtain ⟨b, -⟩ := assigned_rest s i
  by_cases hp : (s.slot i).policy = .auto
  · rw [advanceListen_auto hp] at h ⊢
    split at h
    · next k => rw [if_pos k, b]
    · next k => exact absurd (by rwa [moveTo_held _ i rfl (by decide)] at h) k
  · unfold State.advanceListen
    rw [if_neg hp]

/-- A JOIN_WAIT slot left with no group goes back to LISTEN, and stays or goes on there (R113, R115). -/
theorem release_joinWait (hq : s.QueueSound) (hs : (s.slot i).state = .joinWait) (h0 : s.heldGroups i &&& ~~~gs = 0) :
    let u := s.settle (s.release i gs)
    QuietEvent i s u ∧ u.posted .state i ∧ (u.slot i).state ≠ .live ∧
      ((s.slot i).policy = .supervised → Entered .listen s.timers (s.slot i) (u.slot i) ∧ u.heldGroups i = 0 ∧
        ∀ x ∈ u.block.list, x.slot ≠ i) ∧
      ((s.slot i).policy = .auto → AutoListens i (s.slot i).decl (s.freeSet i gs) u ∧
        (u.heldGroups i = 0 → ∀ x ∈ u.block.list, x.slot ≠ i)) := by
  intro u
  have g := frees s i gs
  have map : ((s.freeSet i gs).postSlot .state i).map = (s.freeSet i gs).map := postSlot_map ..
  have e : s.release i gs = if (((s.freeSet i gs).postSlot .state i).slot i).state = .joinWait ∧
      ((s.freeSet i gs).postSlot .state i).heldGroups i = 0
      then (((s.freeSet i gs).postSlot .state i).moveTo i .listen).atListen i else (s.freeSet i gs).postSlot .state i :=
    if_neg (by rw [hs]; decide)
  generalize (s.freeSet i gs).postSlot .state i = v at g e map
  have q := g.quiet
  have slot := g.slot
  have held : v.heldGroups i = 0 := g.held.trans h0
  rw [if_pos ⟨by rw [slot, hs], held⟩] at e
  have unlisted : ∀ x : ChangeEntry, x ∈ (v.moveTo i .listen).block.list → x.slot ≠ i := fun x hx hi => by
    rcases (moveTo_listed _ _ _ _ hi).1 hx with k | k <;> cases k.1
  have hn := moveTo_unqueued hq q.near (st := .listen) (by decide)
  have hu : u = s.settle ((v.moveTo i .listen).atListen i) := by unfold u; rw [e]
  cases hp : (s.slot i).policy with
  | supervised =>
    obtain ⟨k, kp⟩ := atListen_rests (v := v.moveTo i .listen) (i := i)
      (by rw [moveTo_slot_self, moved_state]) (by rw [moveTo_slot_self, moved_policy, slot, hp])
    have n := noted_noteCheckpoint (v.moveTo i .listen) i
    have a := settled s (by rw [n.inQueue]; exact hn)
    have q' : Quietly i s ((v.moveTo i .listen).noteCheckpoint i) := (q.trans
      ⟨calm_moveTo .., local_moveTo .., moveTo_opened .., moveTo_bank _ _ _ (by decide) (by decide)⟩).trans
      ⟨n.calm, n.near, by rw [n.block], n.bank⟩
    rw [k] at hu
    have en : Entered .listen s.timers (s.slot i) (u.slot i) := by
      rw [hu, a.slot, n.slot, moveTo_slot_self, slot, q.calm.timers]; exact entered_moved ..
    refine ⟨hu ▸ q'.event, hu ▸ a.posted _ (n.calm.posted (moveTo_posted _ _ _)), by rw [en.state]; decide,
      fun _ => ⟨en, ?_, fun x hx hi => ?_⟩, nofun⟩
    · rw [hu, a.held, heldGroups_of_map n.map, moveTo_held v i rfl (by decide), held]
    · rw [hu] at hx
      exact unlisted x (n.block ▸ (a.listed x hi).1 hx) hi
  | auto =>
    obtain ⟨j, jp⟩ := listen_settle hq q.calm q.near q.bank q.opened (by rw [slot, hp])
    rw [← hu, slot] at j
    rw [← hu] at jp
    have listens := j.listens.of_map map
    refine ⟨j.event, jp, ?_, nofun, fun _ => ⟨listens, fun h x hx hi => ?_⟩⟩
    · by_cases h : u.heldGroups i = 0
      · rw [(j.listens.waits h).1]; decide
      · rw [(j.listens.joins h).1]; decide
    · have n := noted_noteCheckpoint ((v.moveTo i .listen).advanceListen i) i
      have hq' : ((v.moveTo i .listen).atListen i).inQueue i = false := by
        rw [State.atListen, n.inQueue]
        exact advanceListen_unqueued hn fun z hz e he =>
          QueueSound.apart hq i z hz e (by rwa [(q.near.trans (local_moveTo ..)).zone z hz] at he)
      have a := settled s hq'
      rw [hu, a.held, State.atListen, heldGroups_of_map n.map] at h
      rw [hu, a.listed x hi, State.atListen, n.block, advanceListen_block h] at hx
      exact unlisted x hx hi

/-- Outside LIVE a release just frees, where it does not leave a JOIN_WAIT slot without groups (R113). -/
theorem release_now (hs : (s.slot i).state ≠ .live)
    (h : (s.slot i).state ≠ .joinWait ∨ s.heldGroups i &&& ~~~gs ≠ 0) : let u := s.settle (s.release i gs)
    QuietEvent i s u ∧ u.posted .state i ∧ u.slot i = s.slot i ∧ u.block = s.block ∧
      u.heldGroups i = s.heldGroups i &&& ~~~gs := by
  have g := frees s i gs
  have e : s.release i gs = if (((s.freeSet i gs).postSlot .state i).slot i).state = .joinWait ∧
      ((s.freeSet i gs).postSlot .state i).heldGroups i = 0
      then (((s.freeSet i gs).postSlot .state i).moveTo i .listen).atListen i else (s.freeSet i gs).postSlot .state i :=
    if_neg hs
  generalize (s.freeSet i gs).postSlot .state i = v at g e
  rw [g.slot, g.held, if_neg fun k => h.elim (fun a => a k.1) fun a => a k.2] at e
  dsimp only
  rw [e, settle_of_zones (g.zone .one) (g.zone .two)]
  exact ⟨g.quiet.kept g.zone, g.posted, g.slot, g.block, g.held⟩

/-! ## The two requests -/

theorem joinsOnGroups_iff (x : Slot) : x.joinsOnGroups = true ↔
    x.policy = .auto ∧ (x.state = .listen ∨ (x.state = .reverted ∧ x.backoffTimer = .stopped)) := by
  simp [Slot.joinsOnGroups]

theorem assignBody_eq (h : ToSlot r m i s) (hl : ListsGroups r.params gs) (ht : (s.slot i).state.takesGroups = true)
    (hu : (s.slot i).undoWait = false) (hw : s.holdsWindow i = false)
    (hm : ∀ g : GroupId, gs.mem g = true → s.map[g.val] = none ∨ s.map[g.val] = some i)
    (hc : groupCount (s.heldGroups i ||| gs) ≤ 8) : assignBody r s = (s.assign i gs, groupsReply i) := by
  rw [assignBody, changeGroups_eq h hl ht hu hw, if_neg (by rw [ownedByOther_eq_false hm]; exact Bool.false_ne_true),
    if_neg (by omega)]

theorem releaseBody_eq (h : ToSlot r m i s) (hl : ListsGroups r.params gs) (ht : (s.slot i).state.takesGroups = true)
    (hu : (s.slot i).undoWait = false) (hw : s.holdsWindow i = false) (hg : gs &&& ~~~s.heldGroups i = 0) :
    releaseBody r s = if (s.slot i).state = .live ∧ (s.slot i).lane.wanted &&& ~~~gs = 0 then refuse .noGroups s
      else (s.release i gs, groupsReply i) := by
  rw [releaseBody, changeGroups_eq h hl ht hu hw, if_neg (not_not.2 hg)]

/-- A change of a LIVE slot's regroup, after the change `v` of its groups, is answered with the sets it leaves. -/
theorem live_replied (h : Received r s) {b : Body} (hs : (s.slot i).state = .live) (hv : v.slot i = s.slot i)
    (hz : ∀ z, v.zone z = s.zone z) (hb : b s = (v.setRegroup i new, groupsReply i)) :
    let u := v.setRegroup i new
    request r b s = .next (u.replied r ⟨if (u.slot i).lane.pending = none then .done else .accepted,
      groupBytes (v.heldGroups i) ++ groupBytes (s.slot i).lane.transmit ++
        groupBytes ((u.slot i).lane.pending.getD 0)⟩) := by
  have k := setRegroup_sets v i new
  obtain ⟨st, tr⟩ := k.regrouped.same
  rw [hv] at st tr
  rw [request_of_zones h hb fun z => (k.zone z).trans (hz z), groupsReply_live (st.trans hs), k.held, tr]

/-- Settles O46. -/
theorem groupsAreGivenAndTaken : Obligations.GroupsAreGivenAndTaken := by
  intro r m i s gs h hq hl ht hu hw
  refine ⟨fun hm hc => ?_, fun hg => ⟨fun hs => ?_, fun hs h0 => ?_, fun hs h0 => ?_⟩⟩
  · have hb := assignBody_eq h hl ht hu hw hm hc
    by_cases hs : (s.slot i).state = .live
    · have e : s.assign i gs = (s.claimSet i gs).setRegroup i ((s.slot i).lane.wanted ||| gs) := if_pos hs
      have k := setRegroup_sets (s.claimSet i gs) i ((s.slot i).lane.wanted ||| gs)
      have kr := k.regrouped
      rw [claimSet_slot] at kr
      rw [e] at hb
      refine ⟨_, ((quietly_claimSet hm).trans k.quiet).kept fun z => (k.zone z).trans (claimSet_zone ..), k.held.trans (claimSet_heldGroups ..), k.posted,
        fun k => absurd hs k, fun _ => ⟨kr, ?_⟩⟩
      have x := live_replied h.toReceived (v := s.claimSet i gs) hs (claimSet_slot ..) (fun _ => claimSet_zone ..) hb
      rw [claimSet_heldGroups] at x
      exact x
    · obtain ⟨k1, k2, k3, k4, k5, k6⟩ := assign_now hm hq hs
      rw [joinsOnGroups_iff] at k5 k6
      refine ⟨_, k1, k2, k3, fun _ => ⟨?_, k5, k6⟩, fun k => absurd k hs⟩
      have x := request_settled h.toReceived hb
      rw [groupsReply_other k4, k2] at x
      exact x
  · have hb := releaseBody_eq h hl ht hu hw hg
    rw [if_neg fun k => hs k.1] at hb
    have x := request_settled h.toReceived hb
    by_cases hj : (s.slot i).state = .joinWait ∧ s.heldGroups i &&& ~~~gs = 0
    · obtain ⟨k1, k2, k3, k4, k5⟩ := release_joinWait hq hj.1 hj.2
      rw [groupsReply_other k3] at x
      exact ⟨_, k1, k2, x, fun k => absurd k (by rintro (k | k); exacts [k hj.1, k hj.2]), fun _ _ => ⟨k4, k5⟩⟩
    · obtain ⟨k1, k2, k3, k4, k5⟩ := release_now hs (not_and_or.1 hj)
      rw [groupsReply_other (by rw [k3]; exact hs)] at x
      exact ⟨_, k1, k2, x, fun _ => ⟨k3, k4, k5⟩, fun a b => absurd ⟨a, b⟩ hj⟩
  · have hb := releaseBody_eq h hl ht hu hw hg
    rw [if_pos ⟨hs, h0⟩] at hb
    exact request_refuse h.toReceived hb
  · have hb := releaseBody_eq h hl ht hu hw hg
    have e : s.release i gs = (s.freeSet i (gs &&& ~~~(s.slot i).lane.transmit)).setRegroup i
      ((s.slot i).lane.wanted &&& ~~~gs) := if_pos hs
    have k := setRegroup_sets (s.freeSet i (gs &&& ~~~(s.slot i).lane.transmit)) i ((s.slot i).lane.wanted &&& ~~~gs)
    have kr := k.regrouped
    rw [freeSet_slot] at kr
    rw [if_neg fun k => h0 k.2, e] at hb
    refine ⟨_, ((quietly_freeSet ..).trans k.quiet).kept fun z => (k.zone z).trans (freeSet_zone ..), k.posted,
      k.held.trans (freeSet_heldGroups ..), kr, ?_⟩
    have x := live_replied h.toReceived (v := s.freeSet i (gs &&& ~~~(s.slot i).lane.transmit))
      hs (freeSet_slot ..) (fun _ => freeSet_zone ..) hb
    rw [← k.held] at x
    exact x

end Sys2Proof.Machine
end

section
/-! # A first declaration, and one in DECLARED (R47 to R55, R59) -/

namespace Sys2Proof.Machine

variable {s t u v w : State} {i : SlotId} {r : Request} {d : Declaration} {clamped : Bool} {x : Slot}

/-! ## The parameters of a DECLARE -/

theorem six_bytes {params : List Byte} (h : ¬ params.length < 6) :
    ∃ cls pHi pLo cHi cLo n rest, params = cls :: pHi :: pLo :: cHi :: cLo :: n :: rest := by
  match params, h with
  | cls :: pHi :: pLo :: cHi :: cLo :: n :: rest, _ => exact ⟨cls, pHi, pLo, cHi, cLo, n, rest, rfl⟩
  | [], k | [_], k | [_, _], k | [_, _, _], k | [_, _, _, _], k | [_, _, _, _, _], k => simp at k

/-- A DECLARE that R48 does not refuse is usable. -/
theorem declares_of {params : List Byte} (hl : 16 ≤ params.length) (hc : (params.getD 0 0).toNat ≤ 3)
    (h1 : 1 ≤ (params.getD 1 0).toNat * 256 + (params.getD 2 0).toNat)
    (h8 : (params.getD 1 0).toNat * 256 + (params.getD 2 0).toNat ≤ 800) (hn : (params.getD 5 0).toNat ≤ 8) :
    ∃ d clamped, Declares params d clamped := by
  obtain ⟨cls, pHi, pLo, cHi, cLo, n, rest, rfl⟩ := six_bytes (params := params) (by omega)
  have class_of : ∃ k, bladeClass? cls = some k := by
    have hc : cls.toNat ≤ 3 := hc
    have e := byte_toNat cls
    have cases : cls.toNat = 0 ∨ cls.toNat = 1 ∨ cls.toNat = 2 ∨ cls.toNat = 3 := by omega
    rcases cases with k | k | k | k <;> (rw [k] at e; rw [← e]; exact ⟨_, rfl⟩)
  obtain ⟨k, hk⟩ := class_of
  have hr : ¬ rest.length < 10 := by
    have : 16 ≤ rest.length + 6 := hl
    omega
  have hp : ¬ (word2 pHi pLo = 0 ∨ 800 < word2 pHi pLo ∨ 8 < n.toNat) := by
    have h1 : 1 ≤ word2 pHi pLo := h1
    have h8 : word2 pHi pLo ≤ 800 := h8
    have hn : n.toNat ≤ 8 := hn
    omega
  have e := declareContent_cons cls pHi pLo cHi cLo n rest
  rw [if_neg hr, hk] at e
  dsimp only at e
  rw [if_neg hp] at e
  exact ⟨_, _, declareContent_iff.1 e⟩

/-- A usable DECLARE goes on by the state of its blade's slot. -/
theorem declareBody_eq (h : FromBlade r i s) (hd : Declares r.params d clamped) (ht : (s.slot i).takesDeclare = true) :
    declareBody r s = declareUsable i d clamped s := by
  rw [declareBody, fromBlade_eq h, declareSlot, if_neg (by rw [ht]; decide), declareContent_iff.2 hd]

/-! ## The OVERSIZE test (R52) -/

/-- What the OVERSIZE test finds of a declaration in its slot's zone. -/
def Zone.tooBig (z : Zone) (d : Declaration) : Bool :=
  decide (z.ceiling < reservationFor d.power z.margin + inrushFor z.current)

theorem oversizeTest_eq (h : (s.slot i).decl = some d) :
    s.oversizeTest i = s.modSlot i fun r => { r with oversize := (s.zone (zoneOf i)).tooBig d } := by
  unfold State.oversizeTest
  rw [h]
  rfl

/-! ## What follows at CP-D (R19, R53) -/

/-- What blocks the AUTO advance from DECLARED. -/
def State.holdsBack (s : State) (i : SlotId) : Prop :=
  (s.slot i).policy = .supervised ∨ (s.slot i).oversize = true ∨ (s.slot i).heldMark = true ∨
    ((s.slot i).cause = some .zoneDark ∧ (s.zone (zoneOf i)).protection = .dark)

theorem atDeclared_free (hs : (s.slot i).state = .declared) (h : ¬ s.holdsBack i) : s.atDeclared i = s.moveTo i .queued := by
  obtain ⟨h1, h2, h3, h4⟩ : (s.slot i).policy ≠ .supervised ∧ (s.slot i).oversize ≠ true ∧ (s.slot i).heldMark ≠ true ∧
      ¬ ((s.slot i).cause = some .zoneDark ∧ (s.zone (zoneOf i)).protection = .dark) :=
    ⟨fun k => h (.inl k), fun k => h (.inr (.inl k)), fun k => h (.inr (.inr (.inl k))), fun k => h (.inr (.inr (.inr k)))⟩
  have hp : (s.slot i).policy = .auto := by
    cases k : (s.slot i).policy with
    | auto => rfl
    | supervised => exact absurd k h1
  have e : s.autoAdvance i = s.moveTo i .queued :=
    if_pos ⟨hs, hp, Bool.eq_false_iff.2 h2, Bool.eq_false_iff.2 h3, h4⟩
  unfold State.atDeclared
  rw [e]
  exact if_neg (by rw [moveTo_slot_self, moved_state]; decide)

theorem atDeclared_held (hs : (s.slot i).state = .declared) (h : s.holdsBack i) : s.atDeclared i = s.noteCheckpoint i := by
  have e : s.autoAdvance i = s := by
    refine if_neg fun ⟨_, k1, k2, k3, k4⟩ => ?_
    rcases h with h | h | h | h
    · rw [k1] at h; cases h
    · rw [k2] at h; cases h
    · rw [k3] at h; cases h
    · exact k4 h
  unfold State.atDeclared
  rw [e]
  exact if_pos hs

/-- What an event leaves in which slot `i` comes to CP-D with the record `x`, in the zone `z`. -/
structure AtCheckpoint (i : SlotId) (x : Slot) (s u : State) : Prop where
  event    : QuietEvent i s u
  posted   : u.posted .state i
  decl     : (u.slot i).decl = x.decl
  clamped  : (u.slot i).clamped = x.clamped
  oversize : (u.slot i).oversize = x.oversize
  goes     : x.policy = .auto → x.oversize = false → x.heldMark = false → x.cause ≠ some .zoneDark →
    (u.slot i).state = .queued ∨ (u.slot i).state = .precharge
  stays    : x.policy = .supervised ∨ x.oversize = true ∨ x.heldMark = true → u.slot i = x
  waits    : x.policy = .supervised → u.posted .checkpoint i

theorem atDeclared_settle (hq : (w.atDeclared i).QueueSound) (q : Quietly i s w)
    (hn : w.inQueue i = false) (hst : (w.slot i).state = .declared) (hp : w.posted .state i) :
    AtCheckpoint i (w.slot i) s (s.settle (w.atDeclared i)) := by
  by_cases h : w.holdsBack i
  · rw [atDeclared_held hst h]
    have n := noted_noteCheckpoint w i
    have e := settled s (by rw [n.inQueue]; exact hn : (w.noteCheckpoint i).inQueue i = false)
    have slot : (s.settle (w.noteCheckpoint i)).slot i = w.slot i := by rw [e.slot, n.slot]
    refine ⟨(q.trans ⟨n.calm, n.near, by rw [n.block], n.bank⟩).event, e.posted _ (n.calm.posted hp), by rw [slot],
      by rw [slot], by rw [slot], fun a b c k => ?_, fun _ => slot, fun k => e.posted _ fun m => ?_⟩
    · rcases h with h | h | h | h
      · rw [a] at h; cases h
      · rw [b] at h; cases h
      · rw [c] at h; cases h
      · exact absurd h.1 k
    · refine (noteCheckpoint_hasSlotNotice ..).2 (Or.inr ⟨rfl, rfl, ?_⟩)
      unfold State.awaiting
      simp [hst, k]
  · have e := atDeclared_free hst h
    rw [e] at hq ⊢
    have hx : (w.slot i).oversize = false := Bool.eq_false_iff.2 fun k => h (.inr (.inl k))
    have k := queues_settle hq q.calm q.near q.bank q.opened hx (noted_refl i _)
    have same : (s.settle (w.moveTo i .queued)).slot i = (w.slot i).moved .queued s.timers ∨
        Entered .precharge s.timers ((w.slot i).moved .queued s.timers)
          { (s.settle (w.moveTo i .queued)).slot i with reservation := ((w.slot i).moved .queued s.timers).reservation } :=
      k.rests.imp id fun k => k.2
    refine ⟨k.event, k.posted, k.decl, ?_, ?_, fun _ _ _ _ => k.state, fun b => ?_, fun b => absurd (Or.inl b) h⟩
    · rcases same with a | a
      · rw [a, moved_clamped, if_neg (by decide)]
      · exact a.clamped.trans ((if_neg (by decide)).trans ((moved_clamped ..).trans (if_neg (by decide))))
    · rcases same with a | a
      · rw [a, moved_oversize, if_neg (by decide)]
      · exact a.oversize.trans ((if_neg (by decide)).trans ((moved_oversize ..).trans (if_neg (by decide))))
    · exact absurd (b.elim Or.inl fun b => Or.inr (b.elim Or.inl fun b => Or.inr (Or.inl b))) h

/-! ## The declaration is recorded -/

/-- The record of a slot with its declaration recorded and tested. -/
def Slot.tested (d : Declaration) (clamped : Bool) (z : Zone) (x : Slot) : Slot :=
  { x.record d clamped with oversize := z.tooBig d }

/-- The declaration recorded and tested, and nothing more done. -/
def State.declare (i : SlotId) (d : Declaration) (clamped : Bool) (s : State) : State :=
  (s.modSlot i (Slot.record d clamped)).oversizeTest i

theorem declare_slot (s : State) (i : SlotId) (d : Declaration) (clamped : Bool) :
    (s.declare i d clamped).slot i = (s.slot i).tested d clamped (s.zone (zoneOf i)) := by
  unfold State.declare
  rw [oversizeTest_eq (d := d) (by rw [modSlot_slot_self]; rfl), modSlot_slot_self, modSlot_slot_self, modSlot_zone]
  rfl

theorem declare_zone (s : State) (i : SlotId) (d : Declaration) (clamped : Bool) (z : ZoneId) :
    (s.declare i d clamped).zone z = s.zone z := by
  unfold State.declare
  rw [oversizeTest_eq (d := d) (by rw [modSlot_slot_self]; rfl), modSlot_zone, modSlot_zone]

theorem quietly_declare (s : State) (i : SlotId) (d : Declaration) (clamped : Bool) : Quietly i s (s.declare i d clamped) := by
  unfold State.declare
  rw [oversizeTest_eq (d := d) (by rw [modSlot_slot_self]; rfl)]
  exact (quietly_modSlot _).trans (quietly_modSlot _)

/-- The record of a slot that has declared in PRESENT or DECLARED, as it comes to CP-D. -/
def Slot.declared (d : Declaration) (clamped : Bool) (z : Zone) (T : TimerSettings) (x : Slot) : Slot :=
  if x.state = .present then (x.tested d clamped z).moved .declared T else x.tested d clamped z

theorem declareUsable_declares (hq : s.QueueSound) (sound : (declareUsable i d clamped s).1.QueueSound)
    (hs : (s.slot i).state = .present ∨ (s.slot i).state = .declared) :
    (declareUsable i d clamped s).2 = declareReply i (reservationFor d.power (s.zone (zoneOf i)).margin) ∧
    AtCheckpoint i ((s.slot i).declared d clamped (s.zone (zoneOf i)) s.timers) s (s.settle (declareUsable i d clamped s).1) := by
  have slot := declare_slot s i d clamped
  have q := quietly_declare s i d clamped
  rcases hs with hs | hs
  · have e : declareUsable i d clamped s = (((s.declare i d clamped).moveTo i .declared).atDeclared i,
        declareReply i (reservationFor d.power (s.zone (zoneOf i)).margin)) := by
      unfold declareUsable; rw [hs]; rfl
    have x : ((s.declare i d clamped).moveTo i .declared).slot i =
        (s.slot i).declared d clamped (s.zone (zoneOf i)) s.timers := by
      rw [moveTo_slot_self, slot, q.calm.timers, Slot.declared, if_pos hs]
    rw [e] at sound ⊢
    refine ⟨rfl, ?_⟩
    rw [← x]
    refine atDeclared_settle sound (q.trans ⟨calm_moveTo .., local_moveTo .., moveTo_opened ..,
      moveTo_bank _ _ _ (by decide) (by decide)⟩) (moveTo_unqueued hq q.near (by decide)) ?_ (moveTo_posted _ _ _)
    rw [moveTo_slot_self, moved_state]
  · have e : declareUsable i d clamped s = (((s.declare i d clamped).postSlot .state i).atDeclared i,
        declareReply i (reservationFor d.power (s.zone (zoneOf i)).margin)) := by
      unfold declareUsable; rw [hs]; rfl
    have x : ((s.declare i d clamped).postSlot .state i).slot i =
        (s.slot i).declared d clamped (s.zone (zoneOf i)) s.timers := by
      rw [postSlot_slot, slot, Slot.declared, if_neg (by rw [hs]; decide)]
    have hn : ((s.declare i d clamped).postSlot .state i).inQueue i = false := by
      have k := QueueSound.notIn hq (i := i) (by rw [hs]; decide)
      unfold State.inQueue at k ⊢
      rwa [show ((s.declare i d clamped).postSlot .state i).zone1 = s.zone1 from declare_zone s i d clamped .one,
        show ((s.declare i d clamped).postSlot .state i).zone2 = s.zone2 from declare_zone s i d clamped .two]
    rw [e] at sound ⊢
    refine ⟨rfl, ?_⟩
    rw [← x]
    exact atDeclared_settle sound (q.trans (quietly_postSlot _)) hn (by rw [postSlot_slot, slot]; exact hs)
      (posted_postSlot _ _ _)

/-- What a declaration changes of the record at CP-D. -/
theorem declared_record (hs : x.state = .present ∨ x.state = .declared) (z : Zone) (T : TimerSettings) :
    (x.declared d clamped z T).state = .declared ∧ (x.declared d clamped z T).decl = some d ∧
    (x.declared d clamped z T).clamped = clamped ∧ (x.declared d clamped z T).oversize = z.tooBig d ∧
    (x.declared d clamped z T).policy = x.policy ∧ (x.declared d clamped z T).heldMark = x.heldMark ∧
    (x.declared d clamped z T).cause = x.cause ∧
    (x.declared d clamped z T).declareTimer = if x.state = .present then .stopped else x.declareTimer := by
  unfold Slot.declared
  rcases hs with hs | hs
  · rw [if_pos hs, if_pos hs]
    have hst : (x.tested d clamped z).state = .present := hs
    refine ⟨moved_state .., (moved_decl ..).trans (if_neg (by decide)), (moved_clamped ..).trans (if_neg (by decide)),
      (moved_oversize ..).trans (if_neg (by decide)), moved_policy .., (moved_heldMark ..).trans (if_neg ?_),
      (moved_cause ..).trans (if_pos (Or.inr rfl)), (entered_moved ..).declareTimer.trans (if_neg (by decide))⟩
    rw [hst]; decide
  · rw [if_neg (by rw [hs]; decide), if_neg (by rw [hs]; decide)]
    exact ⟨hs, rfl, rfl, rfl, rfl, rfl, rfl, rfl⟩

/-- Settles O49. -/
theorem declarationIsRecorded : Obligations.DeclarationIsRecorded := by
  refine ⟨fun params hl hc h1 h8 hn => declares_of hl hc h1 h8 hn, ?_⟩
  intro r i s d clamped h hq hd v z reservation tooBig hs
  have ht : v.takesDeclare = true := by
    rcases hs with hs | hs <;> (unfold Slot.takesDeclare; rw [hs])
  have hb := declareBody_eq h hd ht
  have sound := RunFor.queueSound (run_declare (a := False) (s := s) (r := r)) hq
  rw [hb] at sound
  obtain ⟨hr, k⟩ := declareUsable_declares hq sound hs
  have hb' : declareUsable i d clamped s = ((declareUsable i d clamped s).1, declareReply i reservation) := Prod.ext rfl hr
  obtain ⟨st, k1, k2, k3, k4, k5, k6, k7⟩ := declared_record (d := d) (clamped := clamped) hs z s.timers
  have big : z.tooBig d = tooBig := rfl
  rw [big] at k3
  refine ⟨s.settle (declareUsable i d clamped s).1, ?_, k.event, k.decl.trans k1, k.clamped.trans k2, k.oversize.trans k3,
    declareContent_ranged (declareContent_iff.2 hd), k.posted, fun a b c e => ?_, fun a => ?_, fun a => ?_⟩
  · rw [show exec (.declare r) s = request r (declareBody r) s from rfl, request_settled h.toReceived (hb.trans hb'), declareReply,
      k.oversize.trans k3, k.clamped.trans k2]
    rfl
  · exact k.goes (k4.trans a) (k3.trans b) (k5.trans c) (by rw [k6]; exact e)
  · rw [k.stays (a.imp k4.trans fun a => a.imp k3.trans k5.trans)]
    exact ⟨st, k5, k6, k7⟩
  · exact k.waits (k4.trans a)

end Sys2Proof.Machine
end

section
/-! # A declaration of a slot that has power: in LIVE (R56, R57) and in ORPHANED (R27, R58) -/

namespace Sys2Proof.Machine

variable {s t u v w : State} {i : SlotId} {r : Request} {d : Declaration} {clamped : Bool} {x y : Slot} {n : Nat}

/-! ## What the ways out of ORPHANED keep of a slot -/

/-- The declaration with its flags, and the lines, are kept. -/
structure Slot.KeepsDeclaration (x y : Slot) : Prop where
  decl     : y.decl = x.decl
  clamped  : y.clamped = x.clamped
  oversize : y.oversize = x.oversize
  lines    : y.lines = x.lines

theorem keepsDeclaration_refl (x : Slot) : x.KeepsDeclaration x := ⟨rfl, rfl, rfl, rfl⟩

theorem Slot.KeepsDeclaration.trans {z : Slot} (h : x.KeepsDeclaration y) (k : y.KeepsDeclaration z) :
    x.KeepsDeclaration z :=
  ⟨k.decl.trans h.decl, k.clamped.trans h.clamped, k.oversize.trans h.oversize, k.lines.trans h.lines⟩

theorem keepsDeclaration_moved {st : SlotState} (h : ¬ (st = .empty ∨ st = .seating)) (T : TimerSettings) (x : Slot) :
    x.KeepsDeclaration (x.moved st T) :=
  ⟨(moved_decl ..).trans (if_neg h), (moved_clamped ..).trans (if_neg h), (moved_oversize ..).trans (if_neg h),
    moved_lines ..⟩

theorem keepsDeclaration_moveTo {st : SlotState} (h : ¬ (st = .empty ∨ st = .seating)) (s : State) (i : SlotId) :
    (s.slot i).KeepsDeclaration ((s.moveTo i st).slot i) := by
  rw [moveTo_slot_self]
  exact keepsDeclaration_moved h ..

theorem keepsDeclaration_advanceListen (s : State) (i : SlotId) :
    (s.slot i).KeepsDeclaration ((s.advanceListen i).slot i) := by
  rcases advanceListen_record s i with e | e
  · rw [e]; exact keepsDeclaration_refl _
  · rw [e]; exact keepsDeclaration_moved (by decide) ..

theorem keepsDeclaration_handleOpened (s : State) (i : SlotId) :
    (s.slot i).KeepsDeclaration ((s.handleOpened i).slot i) := by
  have pend : (s.slot i).KeepsDeclaration ((s.setRetirePending i .handle).slot i) := by
    unfold State.setRetirePending
    split
    · exact keepsDeclaration_refl _
    · rw [modSlot_slot_self]; exact ⟨rfl, rfl, rfl, rfl⟩
  have drain : (s.slot i).KeepsDeclaration ((s.startDrain i (some .handle)).slot i) := by
    rw [startDrain_slot_self]
    refine Slot.KeepsDeclaration.trans ?_ (keepsDeclaration_moved (by decide) ..)
    exact ⟨rfl, rfl, rfl, rfl⟩
  unfold State.handleOpened
  split
  · exact keepsDeclaration_moveTo (by decide) ..
  · exact keepsDeclaration_moveTo (by decide) ..
  · exact keepsDeclaration_moveTo (by decide) ..
  · exact keepsDeclaration_moveTo (by decide) ..
  · exact keepsDeclaration_moveTo (by decide) ..
  · exact keepsDeclaration_moveTo (by decide) ..
  · exact keepsDeclaration_moveTo (by decide) ..
  · exact keepsDeclaration_moveTo (by decide) ..
  · split
    · exact keepsDeclaration_refl _
    · exact pend
  · split
    · exact keepsDeclaration_refl _
    · split
      · exact pend
      · exact drain
  · rw [modSlot_slot_self]; exact ⟨rfl, rfl, rfl, rfl⟩
  all_goals exact keepsDeclaration_refl _

/-- No CHECKPOINT notice of slot `i` is posted. -/
def Unprompted (i : SlotId) (s t : State) : Prop := ∀ m, t.hasSlotNotice m .checkpoint i → s.hasSlotNotice m .checkpoint i

theorem Unprompted.trans (h : Unprompted i s t) (k : Unprompted i t u) : Unprompted i s u := fun m hm => h m (k m hm)

theorem unprompted_moveTo (s : State) (i : SlotId) (st : SlotState) : Unprompted i s (s.moveTo i st) := fun _ h =>
  ((moveTo_hasSlotNotice ..).1 h).resolve_right fun k => nomatch k.1

theorem unprompted_advanceListen (s : State) (i : SlotId) : Unprompted i s (s.advanceListen i) := by
  have assigned : Unprompted i s (s.assigned i) := fun m h => by
    unfold State.assigned at h
    split at h
    · rw [autoAssign_eq] at h
      split at h
      · exact h
      · rw [postSlot_hasSlotNotice, hasSlotNotice_congr (claimSet_manager s i (s.gain i))] at h
        exact h.resolve_right fun k => nomatch k.1
    · exact h
  by_cases hp : (s.slot i).policy = .auto
  · rw [advanceListen_auto hp]
    split
    · exact assigned
    · exact assigned.trans (unprompted_moveTo _ _ _)
  · unfold State.advanceListen
    rw [if_neg hp]
    exact fun _ => id

/-! ## The declaration is taken with its reservation -/

/-- The record of an ORPHANED slot with its declaration taken. -/
def Slot.takes (d : Declaration) (clamped : Bool) (n : Nat) (x : Slot) : Slot :=
  { x with decl := some d, clamped := clamped, oversize := false, attempts := 0, reservation := n }

/-- An ORPHANED slot's declaration is taken, and it is there still. -/
def State.adopted (i : SlotId) (d : Declaration) (clamped : Bool) (n : Nat) (s : State) : State :=
  (s.modSlot i fun r => { r.recordPowered d clamped with attempts := 0 }).setReservation i n

theorem quietly_setReservation (s : State) (i : SlotId) (n : Nat) : Quietly i s (s.setReservation i n) :=
  ⟨calm_setReservation .., local_setReservation .., by
    rw [State.setReservation, modSlot_block, modZone_block], by rw [State.setReservation, modSlot_bank, modZone_bank]⟩

theorem adopted_slot (s : State) (i : SlotId) (d : Declaration) (clamped : Bool) (n : Nat) :
    (s.adopted i d clamped n).slot i = (s.slot i).takes d clamped n := by
  rw [State.adopted, setReservation_slot_self, modSlot_slot_self]
  rfl

theorem quietly_adopted (s : State) (i : SlotId) (d : Declaration) (clamped : Bool) (n : Nat) :
    Quietly i s (s.adopted i d clamped n) := (quietly_modSlot _).trans (quietly_setReservation ..)

theorem adopted_map (s : State) (i : SlotId) (d : Declaration) (clamped : Bool) (n : Nat) :
    (s.adopted i d clamped n).map = s.map := by
  rw [State.adopted, State.setReservation, modSlot_map, modZone_map]
  rfl

theorem unprompted_adopted (s : State) (i : SlotId) (d : Declaration) (clamped : Bool) (n : Nat) :
    Unprompted i s (s.adopted i d clamped n) := fun m h => by
  have k : (s.adopted i d clamped n).manager m = s.manager m := by
    rw [State.adopted, State.setReservation, modSlot_manager, modZone_manager, modSlot_manager]
  unfold State.hasSlotNotice at h ⊢
  rwa [k] at h

/-! ## Out of ORPHANED by the lanes -/

theorem leaveOrphaned_joined (h : (w.slot i).lane.commanded = .joined) : w.leaveOrphaned i = w.moveTo i .live := by
  unfold State.leaveOrphaned; rw [h]

theorem leaveOrphaned_listen (h : (w.slot i).lane.commanded = .listen) :
    w.leaveOrphaned i = (w.moveTo i .listen).advanceListen i := by
  unfold State.leaveOrphaned; rw [h]

theorem leaveOrphaned_off (h : (w.slot i).lane.commanded = .openMode ∨ (w.slot i).lane.commanded = .biased) :
    w.leaveOrphaned i = (w.moveTo i .powered).advancePowered i := by
  unfold State.leaveOrphaned
  rcases h with h | h <;> rw [h]

/-- What a slot does as it leaves ORPHANED. -/
structure LeavesOrphaned (i : SlotId) (w x : State) : Prop where
  quiet      : Quietly i w x
  keeps      : (w.slot i).KeepsDeclaration (x.slot i)
  posted     : x.posted .state i
  unprompted : Unprompted i w x
  state      : (x.slot i).state = .powered ∨ (x.slot i).state = .listen ∨ (x.slot i).state = .joinWait ∨
    ((x.slot i).state = .live ∧ (w.slot i).lane.commanded = .joined)

theorem leavesOrphaned_moveTo {st : SlotState} (s : State) (i : SlotId) (h1 : st = .live → (s.slot i).state ≠ .joinObserve)
    (h2 : st ≠ .poweringDown) (h3 : ¬ (st = .empty ∨ st = .seating)) : Quietly i s (s.moveTo i st) ∧
      (s.slot i).KeepsDeclaration ((s.moveTo i st).slot i) ∧ (s.moveTo i st).posted .state i ∧ Unprompted i s (s.moveTo i st) :=
  ⟨⟨calm_moveTo .., local_moveTo .., moveTo_opened .., moveTo_bank_of _ _ h1 fun k => absurd k h2⟩,
    keepsDeclaration_moveTo h3 .., moveTo_posted _ _ _, unprompted_moveTo _ _ _⟩

theorem leavesOrphaned_listen (w : State) (i : SlotId) : LeavesOrphaned i w ((w.moveTo i .listen).advanceListen i) := by
  obtain ⟨q, k, p, np⟩ := leavesOrphaned_moveTo (st := .listen) w i nofun (by decide) (by decide)
  obtain ⟨o, b⟩ := advanceListen_opened (w.moveTo i .listen) i
  refine ⟨q.trans ⟨calm_advanceListen .., local_advanceListen .., o, b⟩, k.trans (keepsDeclaration_advanceListen ..),
    (calm_advanceListen ..).posted p, np.trans (unprompted_advanceListen _ _), ?_⟩
  rcases advanceListen_record (w.moveTo i .listen) i with e | e
  · exact Or.inr (Or.inl (by rw [e, moveTo_slot_self, moved_state]))
  · exact Or.inr (Or.inr (Or.inl (by rw [e, moved_state])))

theorem leavesOrphaned (hs : (w.slot i).state = .orphaned) : LeavesOrphaned i w (w.leaveOrphaned i) := by
  have off (e : w.leaveOrphaned i = (w.moveTo i .powered).advancePowered i) : LeavesOrphaned i w (w.leaveOrphaned i) := by
    obtain ⟨q, k, p, np⟩ := leavesOrphaned_moveTo (st := .powered) w i nofun (by decide) (by decide)
    rw [e]
    by_cases hp : ((w.moveTo i .powered).slot i).policy = .auto
    · have l := leavesOrphaned_listen (w.moveTo i .powered) i
      rw [State.advancePowered, if_pos hp]
      refine ⟨q.trans l.quiet, k.trans l.keeps, l.posted, np.trans l.unprompted, ?_⟩
      refine l.state.imp id fun a => a.imp id fun a => a.imp id fun a => ?_
      rcases advanceListen_record ((w.moveTo i .powered).moveTo i .listen) i with e | e
      · rw [e, moveTo_slot_self, moved_state] at a; cases a.1
      · rw [e, moved_state] at a; cases a.1
    · rw [State.advancePowered, if_neg hp]
      exact ⟨q, k, p, np, Or.inl (by rw [moveTo_slot_self, moved_state])⟩
  cases h : (w.slot i).lane.commanded with
  | openMode => exact off (leaveOrphaned_off (Or.inl h))
  | biased => exact off (leaveOrphaned_off (Or.inr h))
  | listen => rw [leaveOrphaned_listen h]; exact leavesOrphaned_listen w i
  | joined =>
    obtain ⟨q, k, p, np⟩ := leavesOrphaned_moveTo (st := .live) w i (fun _ => by rw [hs]; decide) (by decide) (by decide)
    rw [leaveOrphaned_joined h]
    exact ⟨q, k, p, np, Or.inr (Or.inr (Or.inr ⟨by rw [moveTo_slot_self, moved_state], h⟩))⟩

/-! ## The handle, and the end of the event -/

/-- What an ORPHANED slot's declaration does before the end of its event. -/
def State.ends (i : SlotId) (x : State) : State := if (x.slot i).handleClosed then x.noteCheckpoint i else x.handleOpened i

theorem declareOrphaned_eq (s : State) (i : SlotId) (d : Declaration) (clamped : Bool) (n : Nat) :
    s.declareOrphaned i d clamped n = ((s.adopted i d clamped n).leaveOrphaned i).ends i := rfl

theorem ends_rests (l : LeavesOrphaned i w v) : Quietly i w (v.ends i) ∧ (w.slot i).KeepsDeclaration ((v.ends i).slot i) ∧
    (v.ends i).posted .state i ∧ ((v.ends i).slot i).state ≠ .queued := by
  have ne : (v.slot i).state ≠ .queued := by rcases l.state with k | k | k | ⟨k, -⟩ <;> rw [k] <;> decide
  unfold State.ends
  split
  · have n := noted_noteCheckpoint v i
    exact ⟨l.quiet.trans ⟨n.calm, n.near, by rw [n.block], n.bank⟩, by rw [n.slot]; exact l.keeps, n.calm.posted l.posted,
      by rw [n.slot]; exact ne⟩
  · have o := handleOpened_opens v i
    obtain ⟨r1, r2⟩ := o.rest
    exact ⟨l.quiet.trans ⟨calm_handleOpened .., local_handleOpened .., r1, r2⟩,
      l.keeps.trans (keepsDeclaration_handleOpened ..), (calm_handleOpened ..).posted l.posted, o.ne_queued.1⟩

/-- A slot with no pending regroup that drains keeps the map. -/
theorem moveTo_draining_map (h : (v.slot i).lane.pending = none) : (v.moveTo i .draining).map = v.map := by
  have e : v.vacate i .draining = ((v.leaveQueue i).freeChannel i).dropChange i := by
    have hu : ((((v.leaveQueue i).freeChannel i).dropChange i).slot i).lane.pending = none := by
      rw [dropChange_slot, freeChannel_slot, leaveQueue_slot, h]
    unfold State.vacate State.discardRegroup
    dsimp only
    rw [if_pos rfl, hu, if_neg (by decide)]
  have k : (v.moveTo i .draining).map = (v.vacate i .draining).map := by
    unfold State.moveTo State.countMove
    dsimp only
    rw [if_neg (by rintro ⟨k, -⟩; cases k), if_neg (by rintro ⟨k, -⟩; cases k)]
    rfl
  rw [k, e]
  unfold State.dropChange State.freeChannel State.leaveQueue
  rw [modBlock_map, modZone_map, modZone_map]

/-- A slot found JOINED whose handle is OPEN goes through LIVE to DRAINING. -/
theorem live_drained (ha : x.attempts = 0) (T : TimerSettings) :
    Entered .draining T { x with origin := some .handle, steering := none }
      (({ x.moved .live T with origin := some .handle } : Slot).moved .draining T) := by
  have a := entered_moved .live T x
  have b := entered_moved .draining T ({ x.moved .live T with origin := some .handle } : Slot)
  have hl : (x.moved .live T).attempts = 0 := a.attempts.trans (if_pos (Or.inl rfl))
  obtain ⟨l1, l2⟩ := a.lanesKept rfl
  obtain ⟨m1, m2⟩ := b.lanesKept rfl
  exact
    { state := b.state, phase := b.phase, powerPath := b.powerPath, mgmtPower := b.mgmtPower
      declareTimer := b.declareTimer, drainTimer := b.drainTimer, dischargeTimer := b.dischargeTimer
      backoffTimer := b.backoffTimer.trans (if_neg (by rintro ⟨k, -⟩; cases k))
      lanes := b.lanes, lanesKept := fun _ => ⟨m1.trans l1, m2.trans l2⟩, regroup := b.regroup
      reservation := b.reservation.trans ((if_pos rfl).trans a.reservation)
      cause := b.cause.trans (if_neg (by decide)), origin := b.origin.trans (if_neg (by decide))
      target := b.target.trans ((if_neg (by decide)).trans a.target)
      attempts := b.attempts.trans ((if_neg (by
        rintro (k | k | k | ⟨-, k⟩)
        · cases k
        · cases k
        · cases k
        · rw [show (x.moved .live T).state = .live from moved_state ..] at k; cases k)).trans (hl.trans (by
          rw [ha]; exact (ite_self 0).symm)))
      heldMark := b.heldMark.trans ((if_neg (by
        rw [show (x.moved .live T).state = .live from moved_state ..]; decide)).trans a.heldMark)
      decl := b.decl.trans ((if_neg (by decide)).trans a.decl)
      oversize := b.oversize.trans ((if_neg (by decide)).trans a.oversize)
      clamped := b.clamped.trans ((if_neg (by decide)).trans a.clamped)
      steering := b.steering.trans ((if_neg (by decide)).trans a.steering)
      policy := ⟨b.policy.1.trans a.policy.1, b.policy.2.trans a.policy.2⟩
      codes := ⟨b.codes.1.trans a.codes.1, b.codes.2.trans a.codes.2⟩
      lines := b.lines.trans a.lines }

/-! ## The declaration in LIVE -/

theorem declaration_live (h : FromBlade r i s) (hq : s.QueueSound) (hk : s.Booked) (hd : Declares r.params d clamped)
    (hs : (s.slot i).state = .live) (hu : (s.slot i).undoWait = false)
    (hc : reservationFor d.power (s.zone (zoneOf i)).margin ≤ (s.slot i).reservation + (s.zone (zoneOf i)).headroom) :
    let n := reservationFor d.power (s.zone (zoneOf i)).margin
    ∃ u : State, exec (.declare r) s = .next (u.replied r ⟨.done, [10, byte (if clamped then 2 else 0)] ++ bytes2 n⟩) ∧
      QuietEvent i s u ∧
      u.slot i = { s.slot i with decl := some d, clamped := clamped, oversize := false, reservation := n } ∧
      u.map = s.map ∧ u.posted .state i ∧ (u.zone (zoneOf i)).reserved = u.reservations (zoneOf i) := by
  intro n
  have ht : (s.slot i).takesDeclare = true := by unfold Slot.takesDeclare; rw [hs, hu]; rfl
  have hb : declareBody r s = (s.declareLive i d clamped n, declareReply i n) := by
    rw [declareBody_eq h hd ht]
    unfold declareUsable
    rw [hs]
    exact if_pos (decide_eq_true hc)
  have q : Quietly i s (s.declareLive i d clamped n) :=
    ((quietly_setReservation s i n).trans (quietly_modSlot _)).trans (quietly_postSlot _)
  have slot : (s.declareLive i d clamped n).slot i =
      { s.slot i with decl := some d, clamped := clamped, oversize := false, reservation := n } := by
    rw [State.declareLive, postSlot_slot, modSlot_slot_self, setReservation_slot_self]
    rfl
  have hn : (s.declareLive i d clamped n).inQueue i = false := by
    have k := RunFor.queueSound (run_declare (a := False) (s := s) (r := r)) hq
    rw [hb] at k
    exact QueueSound.notIn k (by rw [slot]; exact fun e => by rw [hs] at e; cases e)
  have e := settled s hn
  have booked : (s.settle (s.declareLive i d clamped n)).Booked := by
    have k : Effect s (declareBody r s).1 := effects_declare r s
    rw [hb] at k
    exact (effect_settle _ s).booked (k.booked hk)
  refine ⟨s.settle (s.declareLive i d clamped n), ?_, q.event, e.slot.trans slot, ?_, e.posted _ (posted_postSlot _ _ _),
    booked.sums (zoneOf i)⟩
  · rw [show exec (.declare r) s = request r (declareBody r) s from rfl, request_settled h.toReceived hb, declareReply,
      e.slot, slot]
    dsimp only
    rw [hs]
    cases clamped <;> rfl
  · rw [(endOfEvent_settle _ s).map, State.declareLive, postSlot_map, modSlot_map, State.setReservation, modSlot_map,
      modZone_map]

theorem declaration_refused (h : FromBlade r i s) (hd : Declares r.params d clamped) (hs : (s.slot i).state = .live)
    (hu : (s.slot i).undoWait = false)
    (hc : (s.slot i).reservation + (s.zone (zoneOf i)).headroom < reservationFor d.power (s.zone (zoneOf i)).margin) :
    exec (.declare r) s = .next (s.replied r ⟨.noHeadroom,
      bytes2 (reservationFor d.power (s.zone (zoneOf i)).margin) ++ bytes2 (s.zone (zoneOf i)).headroom⟩) := by
  have ht : (s.slot i).takesDeclare = true := by unfold Slot.takesDeclare; rw [hs, hu]; rfl
  have hb : declareBody r s = (s, fun _ => ⟨.noHeadroom,
      bytes2 (reservationFor d.power (s.zone (zoneOf i)).margin) ++ bytes2 (s.zone (zoneOf i)).headroom⟩) := by
    rw [declareBody_eq h hd ht]
    unfold declareUsable
    rw [hs]
    exact if_neg fun k => absurd (of_decide_eq_true k) (by omega)
  rw [show exec (.declare r) s = request r (declareBody r) s from rfl, request_of_zones h.toReceived hb fun _ => rfl]

/-! ## The declaration in ORPHANED -/

section
variable (hs : (s.slot i).state = .orphaned)
include hs

/-- The handle is OPEN, and the slot was not found JOINED: it is powered down at once. -/
theorem opened_powersDown (hn : ((((s.adopted i d clamped n).leaveOrphaned i).ends i).inQueue i) = false)
    (hc : (s.slot i).handleClosed = false) (hl : (s.slot i).lane.commanded ≠ .joined) :
    let u := s.settle (((s.adopted i d clamped n).leaveOrphaned i).ends i)
    (u.slot i).state = .poweringDown ∧ (u.slot i).reservation = 0 ∧ u.heldGroups i = 0 ∧
      ∀ m, u.hasSlotNotice m .checkpoint i → s.hasSlotNotice m .checkpoint i := by
  have slot := adopted_slot s i d clamped n
  have l := leavesOrphaned (w := s.adopted i d clamped n) (i := i) (by rw [slot]; exact hs)
  generalize (s.adopted i d clamped n).leaveOrphaned i = v at hn l
  have closed : (v.slot i).handleClosed = false := by
    unfold Slot.handleClosed at hc ⊢
    rw [l.keeps.lines, slot]
    exact hc
  have e : v.ends i = v.moveTo i .poweringDown := by
    unfold State.ends State.handleOpened
    rw [closed, if_neg (by decide)]
    rcases l.state with k | k | k | ⟨-, k⟩
    · rw [k]
    · rw [k]
    · rw [k]
    · rw [slot] at k; exact absurd k hl
  rw [e] at hn ⊢
  have k := settled s hn
  refine ⟨by rw [k.slot, moveTo_slot_self, moved_state], ?_, ?_, fun m hm => ?_⟩
  · rw [k.slot, moveTo_slot_self, moved_reservation]; rfl
  · rw [k.held]; exact moveTo_groupless v i (st := .poweringDown) rfl
  · exact unprompted_adopted s i d clamped n m (l.unprompted m (unprompted_moveTo _ _ _ m
      ((endOfEvent_settle _ s).notices m _ i hn hm)))

end

/-- The handle is OPEN, and the slot was found JOINED: it starts to drain. -/
theorem opened_drains (hq : s.QueueSound) (hc : (s.slot i).handleClosed = false) (hl : (s.slot i).lane.commanded = .joined)
    (hw : s.holdsWindow i = false) : let u := s.settle (((s.adopted i d clamped n).leaveOrphaned i).ends i)
    Entered .draining s.timers { (s.slot i).takes d clamped n with origin := some .handle, steering := none } (u.slot i) ∧
      u.heldGroups i = s.heldGroups i ∧ u.posted .checkpoint i := by
  have slot := adopted_slot s i d clamped n
  have q := quietly_adopted s i d clamped n
  have map := adopted_map s i d clamped n
  generalize s.adopted i d clamped n = w at slot q map
  have el : w.leaveOrphaned i = w.moveTo i .live := leaveOrphaned_joined (by rw [slot]; exact hl)
  have ls : (w.moveTo i .live).slot i = ((s.slot i).takes d clamped n).moved .live s.timers := by
    rw [moveTo_slot_self, slot, q.calm.timers]
  have lo : (w.moveTo i .live).block.opened = s.block.opened := (moveTo_opened ..).trans q.opened
  have e : (w.leaveOrphaned i).ends i = (w.moveTo i .live).startDrain i (some .handle) := by
    have closed : ((w.moveTo i .live).slot i).handleClosed = false := by
      unfold Slot.handleClosed at hc ⊢
      rw [ls, moved_lines]
      exact hc
    have waits : ((w.moveTo i .live).slot i).undoWait = false := by
      unfold Slot.undoWait
      rw [ls, moved_cause, if_neg (by decide)]
      rfl
    rw [el, State.ends, closed, if_neg (by decide)]
    unfold State.handleOpened
    rw [show ((w.moveTo i .live).slot i).state = .live by rw [ls, moved_state]]
    dsimp only
    rw [waits, if_neg (by decide), if_neg (by rw [holdsWindow_of lo, hw]; decide)]
  have hn : ((w.moveTo i .live).startDrain i (some .handle)).inQueue i = false := by
    rw [State.startDrain, (noted_noteCheckpoint ..).inQueue]
    exact moveTo_unqueued hq ((q.near.trans (local_moveTo ..)).trans (local_modSlot ..)) (by decide)
  have k := settled s hn
  dsimp only
  rw [e]
  refine ⟨?_, ?_, k.posted _ (startDrain_posted _ _ _)⟩
  · rw [k.slot, startDrain_slot_self, ls, (q.calm.trans (calm_moveTo ..)).timers]
    exact live_drained rfl s.timers
  · have pend : (((w.moveTo i .live).modSlot i fun r => { r with origin := some .handle }).slot i).lane.pending = none := by
      rw [modSlot_slot_self, ls]
      exact (entered_moved .live s.timers _).regroup
    rw [k.held, State.startDrain, heldGroups_of_map (noteCheckpoint_map ..)]
    refine (heldGroups_of_map (moveTo_draining_map pend) i).trans ?_
    exact heldGroups_of_map ((moveTo_map _ _ _ rfl (by decide)).trans map) i

/-- The handle is CLOSED: the slot comes to rest where its lanes say, or goes on from there in AUTO. -/
theorem closed_rests (hq : s.QueueSound) (hs : (s.slot i).state = .orphaned) (hc : (s.slot i).handleClosed = true) :
    let u := s.settle (((s.adopted i d clamped n).leaveOrphaned i).ends i); let taken := (s.slot i).takes d clamped n
    ((s.slot i).lane.commanded = .joined → Entered .live s.timers taken (u.slot i) ∧ u.heldGroups i = s.heldGroups i) ∧
    ((s.slot i).policy = .supervised → (s.slot i).lane.commanded = .listen →
      Entered .listen s.timers taken (u.slot i) ∧ u.posted .checkpoint i) ∧
    ((s.slot i).policy = .supervised → ((s.slot i).lane.commanded = .openMode ∨ (s.slot i).lane.commanded = .biased) →
      Entered .powered s.timers taken (u.slot i) ∧ u.posted .checkpoint i) ∧
    ((s.slot i).policy = .auto → (s.slot i).lane.commanded ≠ .joined → (u.slot i).reservation = n ∧
      AutoListens i (some d) s u) := by
  have slot := adopted_slot s i d clamped n
  have q := quietly_adopted s i d clamped n
  have map := adopted_map s i d clamped n
  have l := leavesOrphaned (w := s.adopted i d clamped n) (i := i) (by rw [slot]; exact hs)
  generalize s.adopted i d clamped n = w at slot q map l
  have lanes : (w.slot i).lane = (s.slot i).lane := by rw [slot]; rfl
  have policy : (w.slot i).policy = (s.slot i).policy := by rw [slot]; rfl
  have orphaned : (w.slot i).state = .orphaned := by rw [slot]; exact hs
  have e : (w.leaveOrphaned i).ends i = (w.leaveOrphaned i).noteCheckpoint i := by
    have closed : ((w.leaveOrphaned i).slot i).handleClosed = true := by
      unfold Slot.handleClosed at hc ⊢
      rw [l.keeps.lines, slot]
      exact hc
    rw [State.ends, if_pos closed]
  dsimp only
  rw [e]
  have goes {st : SlotState} (h1 : st ≠ .queued) (h2 : st ≠ .poweringDown) (h : w.leaveOrphaned i = w.moveTo i st) :
      Goes i st ((s.slot i).takes d clamped n) s (s.settle ((w.leaveOrphaned i).noteCheckpoint i)) := by
    have g := goes_settle hq q.calm q.near q.bank q.opened map h1 (fun _ => by rw [orphaned]; decide) (fun k => absurd k h2)
      (noted_noteCheckpoint (w.moveTo i st) i)
    rwa [slot, ← h] at g
  refine ⟨fun hl => ?_, fun hp hl => ?_, fun hp hl => ?_, fun hp hl => ?_⟩
  · have g := goes (st := .live) (by decide) (by decide) (leaveOrphaned_joined (by rw [lanes, hl]))
    exact ⟨g.entered, g.held rfl (by decide)⟩
  · have hp' : ((w.moveTo i .listen).slot i).policy = .supervised := by rw [moveTo_slot_self, moved_policy, policy, hp]
    have el : w.leaveOrphaned i = w.moveTo i .listen := by
      rw [leaveOrphaned_listen (by rw [lanes, hl]), State.advanceListen, if_neg (by rw [hp']; decide)]
    have k := atListen_rests (v := w.moveTo i .listen) (i := i) (by rw [moveTo_slot_self, moved_state]) hp'
    exact ⟨(goes (by decide) (by decide) el).entered, settle_posted s (by rw [el]; exact k.2)⟩
  · have hp' : ((w.moveTo i .powered).slot i).policy = .supervised := by rw [moveTo_slot_self, moved_policy, policy, hp]
    have el' : (w.moveTo i .powered).advancePowered i = w.moveTo i .powered := if_neg (by rw [hp']; decide)
    have el : w.leaveOrphaned i = w.moveTo i .powered := (leaveOrphaned_off (by rwa [lanes])).trans el'
    have k := atPowered_waits (s := w.moveTo i .powered) (i := i) (by rw [moveTo_slot_self, moved_state]) hp'
    rw [State.atPowered, el'] at k
    exact ⟨(goes (by decide) (by decide) el).entered, settle_posted s (by rw [el]; exact k.2)⟩
  · have pol : (w.slot i).policy = .auto := policy.trans hp
    have decl : (w.slot i).decl = some d := by rw [slot]; rfl
    have res : (w.slot i).reservation = n := by rw [slot]; rfl
    have hne : ((w.leaveOrphaned i).slot i).state ≠ .queued := by
      rcases l.state with k | k | k | ⟨k, -⟩ <;> rw [k] <;> decide
    cases hm : (s.slot i).lane.commanded with
    | joined => exact absurd hm hl
    | listen =>
      have el := leaveOrphaned_listen (w := w) (i := i) (by rw [lanes, hm])
      obtain ⟨j, -⟩ := listen_settle hq q.calm q.near q.bank q.opened pol
      rw [decl, State.atListen, ← el] at j
      have hn : ((w.leaveOrphaned i).noteCheckpoint i).inQueue i = false := by
        rw [(noted_noteCheckpoint ..).inQueue, el]
        exact advanceListen_unqueued (moveTo_unqueued hq q.near (by decide)) fun z hz x hx =>
          QueueSound.apart hq i z hz x (by rwa [(q.near.trans (local_moveTo ..)).zone z hz] at hx)
      refine ⟨?_, j.listens.of_map map⟩
      rw [(settled s hn).slot, noteCheckpoint_slot, el]
      have k : ((w.moveTo i .listen).slot i).reservation = n := by
        rw [moveTo_slot_self, moved_reservation]; exact res
      rcases advanceListen_record (w.moveTo i .listen) i with e | e
      · rw [e, k]
      · rw [e, moved_reservation]; exact k
    | openMode | biased =>
      have el := leaveOrphaned_off (w := w) (i := i) (by rw [lanes, hm]; simp)
      have q' : Quietly i s (w.moveTo i .powered) :=
        q.trans ⟨calm_moveTo .., local_moveTo .., moveTo_opened .., moveTo_bank _ _ _ (by decide) (by decide)⟩
      have unq : (w.moveTo i .powered).inQueue i = false := moveTo_unqueued hq q.near (by decide)
      have j := atPowered_settle hq q'.calm q'.near q'.bank q'.opened unq (by rw [moveTo_slot_self, moved_policy, pol])
      rw [State.atPowered, ← el, moveTo_slot_self, moved_decl, if_neg (by decide), decl] at j
      have hn : ((w.moveTo i .powered).atPowered i).inQueue i = false :=
        atPowered_unqueued (fun z hz x hx => QueueSound.apart hq i z hz x (by rwa [q'.near.zone z hz] at hx)) unq
      refine ⟨?_, j.listens.of_map ((moveTo_map _ _ _ rfl (by decide)).trans map)⟩
      have k := (atPowered_record (w.moveTo i .powered) i (by rw [moveTo_slot_self, moved_powerPath]; rfl)).2
      rw [moveTo_slot_self, moved_reservation] at k
      rw [show (w.leaveOrphaned i).noteCheckpoint i = (w.moveTo i .powered).atPowered i by rw [el]; rfl, (settled s hn).slot, k]
      exact res

/-- Settles O50. -/
theorem declarationOfPoweredSlot : Obligations.DeclarationOfPoweredSlot := by
  intro r i s d clamped h hq hk hd v z n flags
  refine ⟨fun hs hu => ⟨declaration_refused h hd hs hu, declaration_live h hq hk hd hs hu⟩, fun hs => ?_⟩
  have ht : v.takesDeclare = true := by unfold Slot.takesDeclare; rw [hs]
  have hb : declareBody r s = (((s.adopted i d clamped n).leaveOrphaned i).ends i, declareReply i n) := by
    rw [declareBody_eq h hd ht, ← declareOrphaned_eq]
    unfold declareUsable
    rw [show (s.slot i).state = .orphaned from hs]
  have sound := RunFor.queueSound (run_declare (a := False) (s := s) (r := r)) hq
  rw [hb] at sound
  have slot := adopted_slot s i d clamped n
  have q := quietly_adopted s i d clamped n
  obtain ⟨q', keeps, posted, ne⟩ := ends_rests (leavesOrphaned (w := s.adopted i d clamped n) (i := i) (by rw [slot]; exact hs))
  have hn := QueueSound.notIn sound ne
  have e := settled s hn
  have event := (q.trans q').event
  rw [slot] at keeps
  refine ⟨_, ?_, event, by rw [e.slot, keeps.decl]; rfl, e.posted _ posted, ?_⟩
  · rw [show exec (.declare r) s = request r (declareBody r) s from rfl, request_settled h.toReceived hb, declareReply,
      show ((s.settle (((s.adopted i d clamped n).leaveOrphaned i).ends i)).slot i).oversize = false by
        rw [e.slot, keeps.oversize]; rfl,
      show ((s.settle (((s.adopted i d clamped n).leaveOrphaned i).ends i)).slot i).clamped = clamped by
        rw [e.slot, keeps.clamped]; rfl]
    unfold flags
    cases clamped <;> rfl
  · refine ⟨fun hc => (closed_rests hq hs hc).1, fun hc => (closed_rests hq hs hc).2.1, fun hc => (closed_rests hq hs hc).2.2.1,
      fun hc => (closed_rests hq hs hc).2.2.2, fun hc hl => ?_, fun hc => opened_drains hq hc⟩
    obtain ⟨k1, k2, k3, k4⟩ := opened_powersDown hs hn hc hl
    exact ⟨k1, k2, k3, fun m => ⟨k4 m, event.calm.notices m .checkpoint i⟩⟩

end Sys2Proof.Machine
end

section
/-! # SET_ZONE: the settings, the second OVERSIZE test, and the examination of the head (R72, R73) -/

namespace Sys2Proof.Machine

variable {s t u v : State} {i j : SlotId} {z : ZoneId} {l : List SlotId} {d : Declaration} {x : Slot} {T : TimerSettings}

/-! ## What the examination of a head keeps -/

/-- The holder of a channel holds it through the examinations. -/
theorem Examines.holds (h : Examines s t) {w : ZoneId} {p : Precharge} : s.QueueSound → (s.zone w).precharge = some p →
    (s.slot p.holder).state = .precharge → (t.zone w).precharge = some p ∧ (t.slot p.holder).state = .precharge := by
  induction h with
  | rest hs hz =>
    intro _ hp hs'
    obtain ⟨y, e⟩ := hz w
    refine ⟨by rw [e]; exact hp, ?_⟩
    unfold State.slot at hs' ⊢
    rw [hs]
    exact hs'
  | @sweep s i hi =>
    intro _ hp hs
    have hn : p.holder ≠ i := fun k => by rw [k] at hs; rw [hs] at hi; rcases hi with hi | hi <;> cases hi
    refine ⟨?_, by rw [(local_moveTo ..).slots _ hn]; exact hs⟩
    rw [moveTo_precharge]
    split
    · unfold Zone.freeFrom; rw [hp]; dsimp only; rw [if_neg hn]; exact hp
    · exact hp
  | @grant s z e l hq hw =>
    intro h hp hs
    obtain ⟨d, g⟩ := h.grantable hq hw
    have hn : p.holder ≠ e.slot := fun k => by rw [k, g.queued] at hs; cases hs
    have hz : w ≠ z := fun k => by rw [k, g.free] at hp; cases hp
    exact ⟨by rw [grantTo_zone_ne s g.zone hz]; exact hp, by rw [grantTo_slot_ne _ _ hn]; exact hs⟩
  | trans h1 _ h k =>
    intro hq hp hs
    obtain ⟨a, b⟩ := h hq hp hs
    exact k (h1.queueSound hq) a b

theorem Examines.decl (h : Examines s t) (j : SlotId) : s.QueueSound → (t.slot j).decl = (s.slot j).decl := by
  induction h with
  | rest hs hz =>
    intro _
    unfold State.slot
    rw [hs]
  | @sweep s i _ =>
    intro _
    by_cases hj : j = i
    · subst hj; rw [moveTo_slot_self]; exact (moved_decl ..).trans (if_neg (by decide))
    · rw [(local_moveTo ..).slots j hj]
  | @grant s z e l hq hw =>
    intro h
    obtain ⟨d, g⟩ := h.grantable hq hw
    by_cases hj : j = e.slot
    · subst hj
      rw [grantTo_slot_self g.decl]
      exact (moved_decl .precharge s.timers _).trans (if_neg (by decide))
    · rw [grantTo_slot_ne _ _ hj]
  | trans h1 _ h k => exact fun hq => (k (h1.queueSound hq)).trans (h hq)

/-- The sweep of a queue takes its OVERSIZE slots to DECLARED, and no other. -/
theorem sweep_slot (i : SlotId) : ∀ (l : List QueueEntry) (s : State), (l.map (·.slot)).Nodup →
    (l.foldl (fun s e => (s.moveTo e.slot .declared).noteCheckpoint e.slot) s).slot i =
      if i ∈ l.map (·.slot) then (s.slot i).moved .declared s.timers else s.slot i
  | [], s, _ => rfl
  | e :: l, s, hn => by
    obtain ⟨he, hl⟩ := List.nodup_cons.1 hn
    have step (j : SlotId) : ((s.moveTo e.slot .declared).noteCheckpoint e.slot).slot j =
        if j = e.slot then (s.slot j).moved .declared s.timers else s.slot j := by
      rw [noteCheckpoint_slot]
      split
      · next k => rw [k, moveTo_slot_self]
      · next k => rw [(local_moveTo ..).slots j k]
    have timers : ((s.moveTo e.slot .declared).noteCheckpoint e.slot).timers = s.timers :=
      ((calm_moveTo ..).trans (calm_noteCheckpoint ..)).timers
    rw [List.foldl_cons, sweep_slot i l _ hl, step, timers]
    by_cases k : i = e.slot
    · rw [if_pos k, if_neg (by rw [k]; exact he)]
      exact (if_pos (List.mem_cons.2 (Or.inl k))).symm
    · rw [if_neg k]
      by_cases kl : i ∈ l.map (·.slot)
      · rw [if_pos kl]
        exact (if_pos (List.mem_cons_of_mem _ kl)).symm
      · rw [if_neg kl]
        exact (if_neg fun h => (List.mem_cons.1 h).elim k kl).symm

theorem sweepQueue_slot (hq : s.QueueSound) (z : ZoneId) (i : SlotId) : (s.sweepQueue z).slot i =
    if (s.slot i).state = .queued ∧ zoneOf i = z ∧ (s.slot i).oversize = true then (s.slot i).moved .declared s.timers
    else s.slot i := by
  have mem : i ∈ ((s.zone z).queue.filter fun e => (s.slot e.slot).oversize).map (·.slot) ↔
      (s.slot i).state = .queued ∧ zoneOf i = z ∧ (s.slot i).oversize = true := by
    rw [List.mem_map]
    constructor
    · rintro ⟨e, he, rfl⟩
      obtain ⟨he, ho⟩ := List.mem_filter.1 he
      obtain ⟨h1, h2⟩ := (hq.member z e.slot).1 ⟨e, he, rfl⟩
      exact ⟨h1, h2, ho⟩
    · rintro ⟨h1, h2, h3⟩
      obtain ⟨e, he, rfl⟩ := (hq.member z i).2 ⟨h1, h2⟩
      exact ⟨e, List.mem_filter.2 ⟨he, h3⟩, rfl⟩
  unfold State.sweepQueue
  rw [sweep_slot i _ s ((hq.once z).sublist (List.filter_sublist.map _))]
  by_cases k : (s.slot i).state = .queued ∧ zoneOf i = z ∧ (s.slot i).oversize = true
  · rw [if_pos (mem.2 k), if_pos k]
  · rw [if_neg fun h => k (mem.1 h), if_neg k]

/-- The examination of a head keeps the slots of the other zone. -/
theorem examine_slot_ne (hq : s.QueueSound) (hz : zoneOf i ≠ z) : (s.examine z).slot i = s.slot i := by
  have sound := (examines_sweepQueue hq z).queueSound hq
  have e : (s.sweepQueue z).slot i = s.slot i := by
    rw [sweepQueue_slot hq, if_neg fun k => hz k.2.1]
  rw [State.examine, ← e]
  generalize s.sweepQueue z = t at sound
  unfold State.testHead
  split
  · next e l h _ =>
    refine grantTo_slot_ne _ _ fun k => hz ?_
    rw [k]
    exact ((sound.member z e.slot).1 ⟨e, by rw [h]; exact List.mem_cons_self .., rfl⟩).2
  · exact modZone_slot ..

/-- The end of an event that changed one zone alone keeps the slots of the other. -/
theorem settle_slot_ne {before : State} (h : ∀ w, w ≠ z → u.zone w = before.zone w) (hq : u.QueueSound)
    (hz : zoneOf i ≠ z) : (before.settle u).slot i = u.slot i := by
  have k : (u.examineAfter z before).slot i = u.slot i := by
    unfold State.examineAfter
    split
    · exact examine_slot_ne hq hz
    · rfl
  rcases settle_of_zone h fun e he => ((hq.member z e.slot).1 ⟨e, he, rfl⟩).2 with e | e
  · rw [e, k]
  · rw [e, postShelf_slot, k]

/-! ## The second OVERSIZE test -/

/-- A slot that leaves DECLARED for QUEUED because it is OVERSIZE no more. -/
def Slot.Advances (z : Zone) (d : Declaration) (x : Slot) : Prop :=
  x.state = .declared ∧ x.oversize = true ∧ z.tooBig d = false ∧ x.policy = .auto ∧ x.heldMark = false ∧
    ¬ (x.cause = some .zoneDark ∧ z.protection = .dark)

/-- The record of a slot whose declaration has been tested again. -/
inductive Slot.Retested (z : Zone) (T : TimerSettings) (x : Slot) : Slot → Prop
  | kept : ¬ ((x.state = .declared ∨ x.state = .queued) ∧ x.decl.isSome = true) → x.Retested z T x
  | flagged {d : Declaration} : x.decl = some d → x.state = .declared ∨ x.state = .queued → ¬ x.Advances z d →
      x.Retested z T { x with oversize := z.tooBig d }
  | advanced {d : Declaration} : x.decl = some d → x.Advances z d → x.Retested z T (({ x with oversize := false } : Slot).moved .queued T)

/-- The second test of a slot. -/
structure Retests (i : SlotId) (s t : State) : Prop where
  quiet   : Quietly i s t
  map     : t.map = s.map
  slot    : (s.slot i).Retested (s.zone (zoneOf i)) s.timers (t.slot i)
  channel : ∀ w p, (s.zone w).precharge = some p → (s.slot p.holder).state = .precharge →
    (t.zone w).precharge = some p ∧ (t.slot p.holder).state = .precharge

theorem retests_refl (h : ¬ (((s.slot i).state = .declared ∨ (s.slot i).state = .queued) ∧ (s.slot i).decl.isSome = true)) :
    Retests i s s := ⟨quietly_refl s, rfl, .kept h, fun _ _ a b => ⟨a, b⟩⟩

theorem retests_retest (s : State) (i : SlotId) : Retests i s (s.retest i) := by
  unfold State.retest
  dsimp only
  by_cases hs : (s.slot i).state = .declared ∨ (s.slot i).state = .queued
  · rw [if_pos hs]
    have notHolder (j : SlotId) (hj : (s.slot j).state = .precharge) : j ≠ i := fun k => by
      rw [k] at hj; rw [hj] at hs; rcases hs with hs | hs <;> cases hs
    cases hd : (s.slot i).decl with
    | none =>
      have e : s.oversizeTest i = s := by unfold State.oversizeTest; rw [hd]
      rw [e, if_neg fun k => by rw [k.1] at k; cases k.2]
      exact retests_refl fun k => by rw [hd] at k; cases k.2
    | some d =>
      rw [oversizeTest_eq hd]
      generalize hf : (fun r : Slot => { r with oversize := (s.zone (zoneOf i)).tooBig d }) = f
      have ef (r : Slot) : f r = { r with oversize := (s.zone (zoneOf i)).tooBig d } := by rw [← hf]
      have slot : (s.modSlot i f).slot i = { s.slot i with oversize := (s.zone (zoneOf i)).tooBig d } := by
        rw [modSlot_slot_self, ef]
      have zone (w : ZoneId) : (s.modSlot i f).zone w = s.zone w := modSlot_zone ..
      have flagged (h : ¬ (s.slot i).Advances (s.zone (zoneOf i)) d) : Retests i s (s.modSlot i f) :=
        ⟨quietly_modSlot f, rfl, by rw [slot]; exact .flagged hd hs h, fun w p a b =>
          ⟨by rw [zone]; exact a, by rw [(local_modSlot ..).slots _ (notHolder _ b)]; exact b⟩⟩
      by_cases ha : (s.slot i).Advances (s.zone (zoneOf i)) d
      · obtain ⟨a1, a2, a3, a4, a5, a6⟩ := ha
        have e : (s.modSlot i f).autoAdvance i = (s.modSlot i f).moveTo i .queued := by
          unfold State.autoAdvance
          rw [slot, zone]
          exact if_pos ⟨a1, a4, a3, a5, a6⟩
        rw [if_pos ⟨a2, by rw [slot]; exact a3⟩, e]
        refine ⟨(quietly_modSlot f).trans ⟨calm_moveTo .., local_moveTo .., moveTo_opened ..,
          moveTo_bank _ _ _ (by decide) (by decide)⟩, moveTo_map _ _ _ rfl (by decide), ?_, fun w p a b => ?_⟩
        · rw [moveTo_slot_self, slot, a3]
          exact .advanced hd ⟨a1, a2, a3, a4, a5, a6⟩
        · have hn := notHolder _ b
          refine ⟨?_, by rw [(local_moveTo ..).slots _ hn, (local_modSlot ..).slots _ hn]; exact b⟩
          rw [moveTo_precharge, zone]
          split
          · unfold Zone.freeFrom; rw [a]; dsimp only; rw [if_neg hn]; exact a
          · exact a
      · have e : (s.modSlot i f).autoAdvance i = s.modSlot i f ∨
            ¬ ((s.slot i).oversize = true ∧ ((s.modSlot i f).slot i).oversize = false) := by
          by_contra hc
          rw [not_or, not_not] at hc
          obtain ⟨c1, c2, c3⟩ := hc
          rw [slot] at c3
          refine c1 ?_
          unfold State.autoAdvance
          rw [slot, zone]
          exact if_neg fun ⟨k1, k2, _, k4, k5⟩ => ha ⟨k1, c2, c3, k2, k4, k5⟩
        split
        · next k => rw [e.resolve_right (not_not.2 k)]; exact flagged ha
        · exact flagged ha
  · rw [if_neg hs]
    exact retests_refl fun k => hs k.1

/-- Zones with the same settings and feeds test alike. -/
theorem retested_congr {z w : Zone} {y : Slot} (h : w.quiet = z.quiet) (k : x.Retested w T y) : x.Retested z T y := by
  obtain ⟨hc, hm, hq⟩ := settings_of_quiet h
  have big (d : Declaration) : w.tooBig d = z.tooBig d := by unfold Zone.tooBig; rw [hc, hm, hq]
  have prot : w.protection = z.protection := (quiet_budget h).2.1
  have adv (d : Declaration) : x.Advances w d ↔ x.Advances z d := by unfold Slot.Advances; rw [big, prot]
  cases k with
  | kept k => exact .kept k
  | flagged hd hs ha => rw [big]; exact .flagged hd hs fun k => ha ((adv _).2 k)
  | advanced hd ha => exact .advanced hd ((adv _).1 ha)

/-- The second test of the slots in `l`. -/
structure RetestsAll (l : List SlotId) (s t : State) : Prop where
  calm    : Calm s t
  map     : t.map = s.map
  opened  : t.block.opened = s.block.opened
  bank    : t.bank = s.bank
  slot    : ∀ i ∈ l, (s.slot i).Retested (s.zone (zoneOf i)) s.timers (t.slot i)
  others  : ∀ i, i ∉ l → t.slot i = s.slot i
  zone    : ∀ w, (∀ i ∈ l, zoneOf i ≠ w) → t.zone w = s.zone w
  channel : ∀ w p, (s.zone w).precharge = some p → (s.slot p.holder).state = .precharge →
    (t.zone w).precharge = some p ∧ (t.slot p.holder).state = .precharge

theorem retestsAll_foldl : ∀ (l : List SlotId) (s : State), l.Nodup → RetestsAll l s (l.foldl (fun s i => s.retest i) s)
  | [], s, _ => ⟨.refl s, rfl, rfl, rfl, nofun, fun _ _ => rfl, fun _ _ => rfl, fun _ _ a b => ⟨a, b⟩⟩
  | i :: l, s, hn => by
    obtain ⟨hi, hl⟩ := List.nodup_cons.1 hn
    have r := retests_retest s i
    have k := retestsAll_foldl l (s.retest i) hl
    refine ⟨r.quiet.calm.trans k.calm, k.map.trans r.map, k.opened.trans r.quiet.opened, k.bank.trans r.quiet.bank,
      fun j hj => ?_, fun j hj => ?_, fun w hw => ?_, fun w p a b => ?_⟩
    · rw [List.foldl_cons]
      by_cases hji : j = i
      · subst hji; rw [k.others j hi]; exact r.slot
      · have kj := k.slot j ((List.mem_cons.1 hj).resolve_left hji)
        rw [r.quiet.near.slots j hji, r.quiet.calm.timers] at kj
        exact retested_congr (r.quiet.calm.zone _) kj
    · obtain ⟨h1, h2⟩ := not_or.1 fun h => hj (List.mem_cons.2 h)
      rw [List.foldl_cons, k.others j h2, r.quiet.near.slots j h1]
    · rw [List.foldl_cons, k.zone w fun j hj => hw j (List.mem_cons_of_mem _ hj)]
      exact r.quiet.near.zone w fun e => hw i List.mem_cons_self e.symm
    · obtain ⟨a, b⟩ := r.channel w p a b
      exact k.channel w p a b

/-! ## The setting -/

theorem zoneSetting_eq (z : ZoneId) (exposed : Bool) (a b c d e f : Byte) (l : List Byte) :
    zoneSetting? (zoneByte z :: a :: b :: c :: d :: e :: f :: byte (flagBit exposed 0) :: l) =
      some ⟨z, min (word2 a b) 8000, min (word2 c d) 8000, min e.toNat 64, max 2 (min f.toNat 16), exposed⟩ := by
  have hz : zoneNumber? (zoneByte z) = some z := by cases z <;> rfl
  have hf : flag? (byte (flagBit exposed 0)) = some exposed := by cases exposed <;> rfl
  unfold zoneSetting?
  simp only [hz, hf]

/-- The zone after its settings are written, and its slots tested again. -/
def State.configured (v : ZoneSetting) (s : State) : State :=
  (slotsOf v.zone).foldl (fun s i => s.retest i) (s.modZone v.zone (Zone.configure v))

theorem setZone_eq (v : ZoneSetting) (s : State) : s.setZone v = (s.configured v).examine v.zone := rfl

theorem configured_queueSound (hq : s.QueueSound) (v : ZoneSetting) : (s.configured v).QueueSound := by
  have hw : DeedsAt False (slotsOf v.zone) s (s.configured v) :=
    (deeds_modZone s v.zone _ rfl rfl).before
      (deedsAt_foldl _ deedsAt_retest (fun s i j => retest_slot_ne s) _ (slotsOf_nodup _) _)
      fun i _ e => by rw [modZone_slot]; exact e
  exact (hw.run (slotsOf_sorted _)).queueSound hq

/-- What the setting of a zone leaves of a slot of that zone that waits in DECLARED or QUEUED. -/
theorem retested_ends {t u : State} {y : Zone} (hr : (s.slot i).Retested y T (t.slot i)) (ht : t.QueueSound)
    (hz : zoneOf i = z) (he : EndOfEvent (t.examine z) u) (ha : EndOfEvent t u) (hx : Examines t u)
    (hd : (s.slot i).decl = some d) (hs : (s.slot i).state = .declared ∨ (s.slot i).state = .queued) :
    (u.slot i).decl = some d ∧ (u.slot i).oversize = y.tooBig d ∧
    (y.tooBig d = true → (u.slot i).state = .declared) ∧
    ((s.slot i).state = .queued → y.tooBig d = false → (u.slot i).state = .queued ∨ (u.slot i).state = .precharge) ∧
    ((s.slot i).state = .declared → y.tooBig d = false → (s.slot i).Advances y d →
      (u.slot i).state = .queued ∨ (u.slot i).state = .precharge) ∧
    ((s.slot i).state = .declared → y.tooBig d = false → ¬ (s.slot i).Advances y d →
      u.slot i = { s.slot i with oversize := false }) := by
  have decl := hx.decl i ht
  have flag := ha.oversize i
  have sweeps (hq : (t.slot i).state = .queued) (ho : (t.slot i).oversize = true) : (u.slot i).state = .declared := by
    have sound := (examines_sweepQueue ht z).queueSound ht
    have e : (t.sweepQueue z).slot i = (t.slot i).moved .declared t.timers := by
      rw [sweepQueue_slot ht, if_pos ⟨hq, hz, ho⟩]
    have st : ((t.sweepQueue z).slot i).state = .declared := by rw [e, moved_state]
    have hn : (t.sweepQueue z).inQueue i = false := QueueSound.notIn sound (by rw [st]; decide)
    have k : ((t.sweepQueue z).testHead z).slot i = (t.sweepQueue z).slot i := (endOfEvent_testHead _ z).slots i hn
    have hn' : (t.examine z).inQueue i = false :=
      QueueSound.notIn ((examines_examine ht z).queueSound ht) (by rw [State.examine, k, st]; decide)
    rw [he.slots i hn', State.examine, k, st]
  have still (hq : (t.slot i).state = .declared) : u.slot i = t.slot i :=
    ha.slots i (QueueSound.notIn ht (by rw [hq]; decide))
  have goes (hq : (t.slot i).state = .queued) (ho : (t.slot i).oversize = false) :
      (u.slot i).state = .queued ∨ (u.slot i).state = .precharge := by
    rcases ha.granted i ho with k | k
    · exact Or.inl (by rw [k, hq])
    · exact Or.inr k
  generalize t.slot i = b at hr decl flag sweeps still goes
  cases hr with
  | kept k => exact absurd ⟨hs, by rw [hd]; rfl⟩ k
  | @flagged d' hd' hs' ha' =>
    obtain rfl : d' = d := Option.some.inj (hd'.symm.trans hd)
    refine ⟨decl.trans hd, flag, fun big => ?_, fun q small => goes q small, fun _ _ adv => absurd adv ha',
      fun q small _ => by rw [still q, small]⟩
    rcases hs' with q | q
    · rw [still q]; exact q
    · exact sweeps q big
  | @advanced d' hd' ha' =>
    obtain rfl : d' = d := Option.some.inj (hd'.symm.trans hd)
    have small := ha'.2.2.1
    have flag' : (u.slot i).oversize = false := flag.trans ((moved_oversize ..).trans (if_neg (by decide)))
    have on := goes (moved_state ..) ((moved_oversize ..).trans (if_neg (by decide)))
    refine ⟨decl.trans ((moved_decl ..).trans ((if_neg (by decide)).trans hd)), flag'.trans small.symm, fun big => ?_,
      fun _ _ => on, fun _ _ _ => on, fun _ _ n => absurd ha' n⟩
    rw [small] at big; cases big

/-- Settles O42. -/
theorem zoneSettingIsTaken : Obligations.ZoneSettingIsTaken := by
  intro r m s z exposed a b c d e f l h hq hp
  generalize hset : (⟨z, min (word2 a b) 8000, min (word2 c d) 8000, min e.toNat 64, max 2 (min f.toNat 16), exposed⟩ :
    ZoneSetting) = set
  have hz : set.zone = z := by rw [← hset]
  have hb : setZoneBody r s = ((s.configured set).examine z, fun t => ⟨.done, setZoneData z (t.zone z)⟩) := by
    rw [setZoneBody, onShelf_eq h, hp, zoneSetting_eq, hset]
    show (s.setZone set, fun t : State => (⟨.done, setZoneData set.zone (t.zone set.zone)⟩ : Reply)) = _
    rw [setZone_eq, hz]
  have hw : (s.modZone z (Zone.configure set)).zone z = Zone.configure set (s.zone z) := modZone_zone_self ..
  have k : RetestsAll (slotsOf z) (s.modZone z (Zone.configure set)) (s.configured set) := by
    rw [← hz]; exact retestsAll_foldl _ _ (slotsOf_nodup _)
  have base (i : SlotId) : (s.modZone z (Zone.configure set)).slot i = s.slot i := modZone_slot ..
  have btimers : (s.modZone z (Zone.configure set)).timers = s.timers := modZone_timers ..
  have ht := configured_queueSound hq set
  have hzone (w : ZoneId) (hwz : w ≠ z) : (s.configured set).zone w = s.zone w := by
    rw [k.zone w fun i hi => by rw [mem_slotsOf.1 hi]; exact hwz.symm, modZone_zone_ne _ _ _ hwz]
  have bmap : (s.modZone z (Zone.configure set)).map = s.map := modZone_map ..
  have bblock : (s.modZone z (Zone.configure set)).block = s.block := modZone_block ..
  have bbank : (s.modZone z (Zone.configure set)).bank = s.bank := modZone_bank ..
  have bref : (s.modZone z (Zone.configure set)).ref = s.ref := modZone_ref ..
  have bchannel (w : ZoneId) : ((s.modZone z (Zone.configure set)).zone w).precharge = (s.zone w).precharge := by
    rw [modZone_zone]
    split
    · next e => rw [e]; rfl
    · rfl
  generalize s.modZone z (Zone.configure set) = v at k hw base btimers bmap bblock bbank bref bchannel
  generalize s.configured set = t at k ht hzone hb
  have xex := examines_examine ht z
  have qex := xex.queueSound ht
  have he : EndOfEvent (t.examine z) (s.settle (t.examine z)) := endOfEvent_settle ..
  have ha : EndOfEvent t (s.settle (t.examine z)) := (endOfEvent_examine ..).trans he
  have hx : Examines t (s.settle (t.examine z)) := xex.trans (examines_settle s qex)
  have hc : Calm v (s.settle (t.examine z)) := (k.calm.trans (calm_examine ..)).trans (calm_settle ..)
  have quiet : ((s.settle (t.examine z)).zone z).quiet = (Zone.configure set (s.zone z)).quiet := by
    rw [← hw]; exact hc.zone z
  have ezone (w : ZoneId) (hwz : w ≠ z) : (t.examine z).zone w = s.zone w := by
    rw [examine_zone_ne t hwz (fun e he => ((ht.member z e.slot).1 ⟨e, he, rfl⟩).2), hzone w hwz]
  have att := attended_settle ezone qex (attended_examine ht z)
  have big (x : Declaration) : (Zone.configure set (s.zone z)).tooBig x = ((s.settle (t.examine z)).zone z).tooBig x := by
    obtain ⟨q1, q2, q3⟩ := settings_of_quiet quiet
    unfold Zone.tooBig
    rw [q1, q2, q3]
  refine ⟨s.settle (t.examine z), request_settled h.toReceived hb, ?_, ?_, ?_, ?_, ?_, ?_, ?_, ?_, ?_, fun p hp hs => ?_,
    att.wait, att.waits, ?_, ?_, ?_, ?_, ?_, fun i h1 h2 => ?_, fun i hi => ?_, fun i x hi hd hs => ?_⟩
  · exact (congrArg Zone.capA quiet :).trans (by rw [← hset]; rfl)
  · exact (congrArg Zone.capB quiet :).trans (by rw [← hset]; rfl)
  · exact (congrArg Zone.margin quiet :).trans (by rw [← hset]; rfl)
  · exact (congrArg Zone.current quiet :).trans (by rw [← hset]; rfl)
  · exact (congrArg Zone.exposedFlag quiet :).trans (by rw [← hset]; rfl)
  · exact (congrArg Zone.healthA quiet :)
  · exact (congrArg Zone.healthB quiet :)
  · exact (congrArg Zone.lineA quiet :)
  · exact (congrArg Zone.lineB quiet :)
  · obtain ⟨k1, k2⟩ := k.channel z p ((bchannel z).trans hp) (by rw [base]; exact hs)
    exact (hx.holds ht k1 k2).1
  · rw [ha.map, k.map, bmap]
  · rw [ha.opened, k.opened, bblock]
  · rw [ha.bank, k.bank, bbank]
  · rw [hc.timers, btimers]
  · rw [hc.ref, bref]
  · have same : t.slot i = s.slot i := by
      by_cases hi : i ∈ slotsOf z
      · have r := k.slot i hi
        rw [base] at r
        generalize t.slot i = y at r
        cases r with
        | kept _ => rfl
        | flagged _ hs _ => rcases hs with hs | hs; exacts [absurd hs h1, absurd hs h2]
        | advanced _ ha => exact absurd ha.1 h1
      · rw [k.others i hi, base]
    rw [ha.slots i (QueueSound.notIn ht (by rw [same]; exact h2)), same]
  · rw [settle_slot_ne ezone qex hi, examine_slot_ne ht hi, k.others i (fun n => hi (mem_slotsOf.1 n)), base]
  · have r := k.slot i (mem_slotsOf.2 hi)
    rw [base, btimers, hi, hw] at r
    obtain ⟨e1, e2, e3, e4, e5, e6⟩ := retested_ends r ht hi he ha hx hd hs
    rw [big x] at e2 e3 e4 e5 e6
    have iff : ((s.settle (t.examine z)).zone z).tooBig x = true ↔ _ := decide_eq_true_iff
    refine ⟨e1, by rw [e2]; exact iff, fun n => e3 (iff.2 n), fun q n => e4 q (Bool.eq_false_iff.2 fun k => n (iff.1 k)),
      fun q n => ?_⟩
    have small : ((s.settle (t.examine z)).zone z).tooBig x = false := Bool.eq_false_iff.2 fun k => n (iff.1 k)
    have adv : (s.slot i).Advances (Zone.configure set (s.zone z)) x ↔ ((s.slot i).oversize = true ∧
        (s.slot i).policy = .auto ∧ (s.slot i).heldMark = false ∧
        ¬ ((s.slot i).cause = some .zoneDark ∧ (s.zone z).protection = .dark)) := by
      unfold Slot.Advances
      rw [big x]
      exact ⟨fun ⟨_, k2, _, k4⟩ => ⟨k2, k4⟩, fun ⟨k2, k4⟩ => ⟨q, k2, small, k4⟩⟩
    split
    · next k => exact e5 q small (adv.2 k)
    · next k => exact e6 q small fun n => k (adv.1 n)

end Sys2Proof.Machine
end

section
/-! # The boundary actions of the change window: REVERT, RESTORE and UNDO (R108, R118, R120, R124, R135) -/

namespace Sys2Proof.Machine

variable {s t u v a b : State} {i : SlotId} {w : OpenWindow} {x : Slot}

/-! ## Events of the change window block -/

/-- The end of an event looks at the zones and the survey alone of the state before it. -/
theorem settle_congr (hz : ∀ z, a.zone z = b.zone z) (hs : a.survey = b.survey) (t : State) : a.settle t = b.settle t := by
  unfold State.settle State.examineAfter overcommitFlips
  simp only [hz, hs]

/-- What is done to a slot and its window after the window block has taken its part `u` of the event. -/
structure Works (i : SlotId) (u t : State) : Prop where
  calm : Calm u t
  near : Local i u t

theorem Works.trans (h : Works i u v) (k : Works i v t) : Works i u t := ⟨h.calm.trans k.calm, h.near.trans k.near⟩

theorem works_refl (u : State) : Works i u u := ⟨.refl u, .refl i u⟩

theorem works_modSlot (u : State) (i : SlotId) (f : Slot → Slot) : Works i u (u.modSlot i f) :=
  ⟨calm_modSlot .., local_modSlot ..⟩

theorem works_postSlot (u : State) (k : SlotNotice) (i : SlotId) : Works i u (u.postSlot k i) :=
  ⟨calm_postSlot .., local_postSlot ..⟩

theorem works_count (u : State) (k : EventKind) (n : Nat) : Works i u (u.count k n) := ⟨calm_count .., local_count ..⟩

theorem works_setPhase (u : State) (i : SlotId) (p : SlotPhase) : Works i u (u.setPhase i p) :=
  (works_modSlot ..).trans (works_postSlot ..)

/-- The open window alone is written. -/
theorem works_opened (u : State) (i : SlotId) (f : WindowBlock → WindowBlock) (hq : (f u.block).quiet = u.block.quiet)
    (hl : (f u.block).list = u.block.list) : Works i u (u.modBlock f) :=
  ⟨calm_modBlock _ _ hq, local_modBlock _ _ _ fun y _ => by rw [hl]⟩

theorem works_closeWindow (u : State) (i : SlotId) : Works i u u.closeWindow := ⟨calm_closeWindow .., local_closeWindow ..⟩

theorem works_dropGroups (u : State) (i : SlotId) (gs : GroupSet) : Works i u (u.dropGroups i gs) :=
  ⟨((calm_freeSet ..).trans (calm_modLane ..)).trans (calm_postSlot ..),
    ((local_freeSet ..).trans (local_modLane ..)).trans (local_postSlot ..)⟩

theorem works_startDrain (u : State) (i : SlotId) (o : Option DrainOrigin) : Works i u (u.startDrain i o) :=
  ⟨calm_startDrain .., local_startDrain ..⟩

theorem works_moveTo (u : State) (i : SlotId) (st : SlotState) : Works i u (u.moveTo i st) :=
  ⟨calm_moveTo .., local_moveTo ..⟩

/-- An event of the window, ended. -/
theorem Works.event (h : Works i u v) (hz : ∀ z, s.zone z = u.zone z) (hs : s.survey = u.survey) :
    SlotEvent i u (s.settle v) := by
  rw [settle_congr hz hs]
  exact slotEvent_settle h.calm h.near

/-- A pending retirement starts its drain with the origin that it recorded. -/
theorem startDrain_pending (v : State) (i : SlotId) :
    (v.startDrain i none).slot i = (v.slot i).moved .draining v.timers ∧ (v.startDrain i none).posted .state i ∧
    (v.startDrain i none).bank = v.bank ∧ (v.startDrain i none).block.opened = v.block.opened := by
  refine ⟨startDrain_slot_self .., (calm_noteCheckpoint ..).posted (moveTo_posted _ _ _), ?_, ?_⟩
  · rw [State.startDrain, noteCheckpoint_bank, moveTo_bank _ _ _ (by decide) (by decide)]
    rfl
  · rw [State.startDrain, noteCheckpoint_block, moveTo_opened]
    rfl

theorem startDrain_unqueued (hq : s.QueueSound) (hz : ∀ z, z ≠ zoneOf i → v.zone z = s.zone z) (o : Option DrainOrigin) :
    (v.startDrain i o).inQueue i = false := by
  rw [State.startDrain, (noted_noteCheckpoint ..).inQueue]
  exact moveTo_inQueue (by decide) fun z hn e he => QueueSound.apart hq i z hn e (by
    rwa [modSlot_zone, hz z hn] at he)

/-! ## The actions do nothing once the boundary has passed (R108) -/

theorem boundary_passed (h : s.ref.closeDue = false) :
    exec .windowGrant s = .next s ∧ exec .revert s = .next s ∧ exec .restore s = .next s ∧ exec .undo s = .next s := by
  have hb : ¬ s.atBoundary = true := by rw [State.atBoundary, h]; decide
  refine ⟨?_, ?_, ?_, ?_⟩
  · show execWindowGrant s = _
    unfold execWindowGrant
    split
    · exact if_neg fun k => hb k.1
    · rfl
  · show execRevert s = _
    unfold execRevert
    split
    · exact if_neg fun k => hb k.1
    · rfl
  · show execRestore s = _
    unfold execRestore
    split
    · exact if_neg fun k => hb k.1
    · rfl
  · show execUndo s = _
    unfold execUndo
    split
    · exact if_neg fun k => hb k.1
    · rfl

/-! ## Off the highway (R118, R124) -/

/-- The record of a slot taken off the highway at a boundary. -/
def Slot.away (x : Slot) : Slot := { x with
  lane := { x.lane with commanded := .listen, transmit := 0, comparison := some .transmitOff, atBoundary := true }
  latch := { x.latch with laneMode := .listen, drive := 0 } }

/-- What the switching of a revert and of an undo leaves, after the boundary has been used. -/
structure OffHighway (i : SlotId) (s t : State) : Prop where
  works  : Works i s.useBoundary t
  zone   : ∀ z, t.zone z = s.zone z
  map    : t.map = s.map
  slot   : t.slot i = (s.slot i).away
  block  : t.block = s.useBoundary.block
  bank   : t.bank = (s.count .revert 1).bank

theorem offHighway_leaves (s : State) (i : SlotId) : OffHighway i s (s.offHighway i) where
  works := by
    have e : s.offHighway i = (s.useBoundary.switchLanes i .listen 0 .transmitOff true).count .revert 1 := rfl
    rw [e]
    exact (works_modSlot ..).trans (works_count ..)
  zone z := by
    rw [State.offHighway, State.useBoundary, modBlock_zone, count_zone, switchLanes_zone]
  map := rfl
  slot := by
    rw [State.offHighway, State.useBoundary, modBlock_slot, count_slot, switchLanes_slot_self]
    rfl
  block := rfl
  bank := rfl

/-- An event of the window that keeps both zones ends as it is. -/
theorem window_ended (h : Works i s.useBoundary t) (hz : ∀ z, t.zone z = s.zone z) :
    s.settle t = t ∧ SlotEvent i s.useBoundary t := by
  have e : s.settle t = t := settle_of_zones (hz .one) (hz .two)
  have k := h.event (s := s) (fun z => (modBlock_zone ..).symm) rfl
  rw [e] at k
  exact ⟨e, k⟩

/-- REVERT, at a boundary with a revert pending. -/
theorem revert_reverts (hw : s.block.opened = some w) (hd : s.ref.closeDue = true) (hb : s.block.boundaryDue = true)
    (hp : w.phase = .revertPending) (hu : w.undoPending = false) (hs : (s.slot w.holder).state = .joinObserve) :
    ∃ t, exec .revert s = .next t ∧ SlotEvent w.holder s.useBoundary t ∧
      t.slot w.holder = { (s.slot w.holder).away with phase := some .observeRevert } ∧
      t.block.opened = some { w with phase := .observeRevert, observed := 0, after := 0 } ∧ t.map = s.map ∧
      t.posted .state w.holder ∧ t.bank = (s.count .revert 1).bank := by
  have ex : exec .revert s = .next (s.settle (s.applyRevert w.holder)) := by
    show execRevert s = _
    unfold execRevert
    rw [hw]
    exact if_pos ⟨hd, hb, hp, hu, hs⟩
  have o := offHighway_leaves s w.holder
  unfold State.applyRevert at ex
  generalize s.offHighway w.holder = v at ex o
  have works := (o.works.trans (works_setPhase _ w.holder .observeRevert)).trans
    (works_opened (v.setPhase w.holder .observeRevert) w.holder
      (fun b => { b with opened := b.opened.map fun w => { w with phase := .observeRevert, observed := 0, after := 0 } }) rfl rfl)
  obtain ⟨e, event⟩ := window_ended works o.zone
  rw [e] at ex
  refine ⟨_, ex, event, ?_, ?_, o.map, posted_postSlot _ _ _, o.bank⟩
  · rw [modBlock_slot, State.setPhase, postSlot_slot, modSlot_slot_self, o.slot]
  · show (v.block.opened.map _) = _
    rw [o.block]
    show (s.block.opened.map _) = _
    rw [hw]
    rfl

/-- UNDO, at a boundary with an undo pending. -/
theorem undo_undoes (hw : s.block.opened = some w) (hd : s.ref.closeDue = true) (hb : s.block.boundaryDue = true)
    (hu : w.undoPending = true) (hs : (s.slot w.holder).state = w.kind.observedState) :
    ∃ t, exec .undo s = .next t ∧ SlotEvent w.holder s.useBoundary t ∧ t.block.opened = none ∧ t.map = s.map ∧
      t.bank = (s.count .revert 1).bank ∧ t.slot w.holder = { (s.slot w.holder).away with
        lane := { (s.slot w.holder).away.lane with restore := none }
        phase := if (s.slot w.holder).state = .joinObserve then some .observeRevert else (s.slot w.holder).phase } := by
  have ex : exec .undo s = .next (s.settle (s.applyUndo w.holder)) := by
    show execUndo s = _
    unfold execUndo
    rw [hw]
    exact if_pos ⟨hd, hb, hu, hs⟩
  have o := offHighway_leaves s w.holder
  unfold State.applyUndo at ex
  dsimp only at ex
  have works : Works w.holder s.useBoundary (((s.offHighway w.holder).modLane w.holder fun l =>
      { l with restore := none }).closeWindow) :=
    (o.works.trans ⟨calm_modLane .., local_modLane ..⟩).trans (works_closeWindow ..)
  have slot : ((((s.offHighway w.holder).modLane w.holder fun l => { l with restore := none }).closeWindow).slot w.holder) =
      { (s.slot w.holder).away with lane := { (s.slot w.holder).away.lane with restore := none } } := by
    rw [closeWindow_slot, modLane_slot_self, o.slot]
  have zone (z : ZoneId) : (((s.offHighway w.holder).modLane w.holder fun l => { l with restore := none }).closeWindow).zone z =
      s.zone z := o.zone z
  have map : (((s.offHighway w.holder).modLane w.holder fun l => { l with restore := none }).closeWindow).map = s.map := o.map
  have bank : (((s.offHighway w.holder).modLane w.holder fun l => { l with restore := none }).closeWindow).bank =
      (s.count .revert 1).bank := o.bank
  have opened : (((s.offHighway w.holder).modLane w.holder fun l =>
      { l with restore := none }).closeWindow).block.opened = none := rfl
  generalize ((s.offHighway w.holder).modLane w.holder fun l => { l with restore := none }).closeWindow = v at *
  rw [slot] at ex
  by_cases hj : (s.slot w.holder).state = .joinObserve
  · rw [if_pos (show (s.slot w.holder).away.state = .joinObserve from hj)] at ex
    obtain ⟨e, event⟩ := window_ended (works.trans (works_setPhase v w.holder .observeRevert)) zone
    rw [e] at ex
    refine ⟨_, ex, event, opened, map, bank, ?_⟩
    rw [State.setPhase, postSlot_slot, modSlot_slot_self, slot, if_pos hj]
  · rw [if_neg (show ¬ (s.slot w.holder).away.state = .joinObserve from hj)] at ex
    obtain ⟨e, event⟩ := window_ended works zone
    rw [e] at ex
    refine ⟨_, ex, event, opened, map, bank, ?_⟩
    rw [slot, if_neg hj]
    rfl

/-! ## The restore of a regroup (R120) -/

/-- The record of a slot taken back to its restore set. -/
def Slot.restored (set : GroupSet) (x : Slot) : Slot := { x with
  lane := { x.lane with
    commanded := .joined, transmit := set, restore := none, comparison := some .transmitOff, atBoundary := true }
  latch := { x.latch with laneMode := .joined, drive := set } }

/-- The groups a slot gave up are freed and its restore set is gone; nothing else of it changes. -/
structure Drops (i : SlotId) (gs : GroupSet) (v t : State) : Prop where
  works  : Works i v t
  zone   : ∀ z, t.zone z = v.zone z
  slot   : t.slot i = { v.slot i with lane := { (v.slot i).lane with restore := none } }
  block  : t.block = v.block
  bank   : t.bank = v.bank
  held   : t.heldGroups i = v.heldGroups i &&& ~~~gs
  posted : t.posted .state i

theorem drops_dropGroups (v : State) (i : SlotId) (gs : GroupSet) : Drops i gs v (v.dropGroups i gs) where
  works := works_dropGroups ..
  zone z := by rw [State.dropGroups, postSlot_zone, modLane_zone, freeSet_zone]
  slot := by rw [State.dropGroups, postSlot_slot, modLane_slot_self, freeSet_slot]
  block := by rw [State.dropGroups, postSlot_block, modLane_block, freeSet_block]
  bank := by rw [State.dropGroups, postSlot_bank, modLane_bank, freeSet_bank]
  held := by rw [State.dropGroups, postSlot_heldGroups, modLane_heldGroups, freeSet_heldGroups]
  posted := posted_postSlot _ _ _

/-- What the end of a regroup's window leaves of its slot, after the drop of its groups led from `s` to `v`. -/
structure RegroupEnds (i : SlotId) (x : Slot) (n : GroupSet) (s t : State) : Prop where
  opened : t.block.opened = none
  posted : t.posted .state i
  stays  : x.retirePending = false → t.slot i = x ∧ t.heldGroups i = n
  drains : x.retirePending = true → Entered .draining s.timers x (t.slot i) ∧ t.posted .checkpoint i

theorem endRegroup_ends {gs : GroupSet} (hq : s.QueueSound) (wk : Works i u v) (ht : u.timers = s.timers)
    (hz : ∀ z, v.zone z = s.zone z) (d : Drops i gs v t) :
    Works i u (t.endRegroup i) ∧ (t.endRegroup i).bank = v.bank ∧
    RegroupEnds i (t.slot i) (t.heldGroups i) s (s.settle (t.endRegroup i)) := by
  have zone (z : ZoneId) : t.closeWindow.zone z = s.zone z := (d.zone z).trans (hz z)
  have works : Works i u t.closeWindow := (wk.trans d.works).trans (works_closeWindow ..)
  unfold State.endRegroup
  dsimp only
  rw [closeWindow_slot]
  by_cases hr : (t.slot i).retirePending = true
  · rw [if_pos hr]
    obtain ⟨k1, k2, k3, k4⟩ := startDrain_pending t.closeWindow i
    have e := settled s (startDrain_unqueued (v := t.closeWindow) (i := i) hq (fun z _ => zone z) none)
    refine ⟨works.trans (works_startDrain ..), k3.trans d.bank, ?_, e.posted _ k2, fun k => absurd hr (by rw [k]; decide),
      fun _ => ⟨?_, e.posted _ (startDrain_posted _ _ _)⟩⟩
    · rw [(endOfEvent_settle _ s).opened, k4]; rfl
    · rw [e.slot, k1, closeWindow_slot, works.calm.timers, ht]
      exact entered_moved ..
  · rw [if_neg hr, settle_of_zones (zone .one) (zone .two)]
    exact ⟨works, d.bank, rfl, d.posted, fun _ => ⟨rfl, rfl⟩, fun k => absurd k hr⟩

/-- RESTORE, at a boundary with a restore pending. -/
theorem restore_restores {set : GroupSet} (hq : s.QueueSound) (hw : s.block.opened = some w) (hd : s.ref.closeDue = true)
    (hb : s.block.boundaryDue = true) (hr : (s.slot w.holder).lane.restore = some set) (hp : w.phase = .restorePending)
    (hu : w.undoPending = false) (hs : (s.slot w.holder).state = .live) :
    ∃ t, exec .restore s = .next t ∧ SlotEvent w.holder s.useBoundary t ∧ t.bank = (s.count .revert 1).bank ∧
      RegroupEnds w.holder ((s.slot w.holder).restored set)
        (s.heldGroups w.holder &&& ~~~((s.slot w.holder).lane.transmit &&& ~~~set)) s t := by
  generalize hi : w.holder = i at hr hs
  have ex : exec .restore s = .next (s.settle (s.applyRestore i)) := by
    show execRestore s = _
    unfold execRestore
    rw [hw]
    dsimp only
    rw [hi]
    exact if_pos ⟨hd, hb, hp, hu, hs⟩
  have ev : s.applyRestore i = ((((s.switchLanes i .joined set .transmitOff true).count .revert 1).useBoundary).dropGroups i
      ((s.slot i).lane.transmit &&& ~~~set)).endRegroup i := by
    unfold State.applyRestore
    dsimp only
    rw [hr]
    rfl
  have works : Works i s.useBoundary ((s.switchLanes i .joined set .transmitOff true).count .revert 1).useBoundary := by
    have e : ((s.switchLanes i .joined set .transmitOff true).count .revert 1).useBoundary =
      (s.useBoundary.switchLanes i .joined set .transmitOff true).count .revert 1 := rfl
    rw [e]
    exact (works_modSlot ..).trans (works_count ..)
  have zone (z : ZoneId) : (((s.switchLanes i .joined set .transmitOff true).count .revert 1).useBoundary).zone z = s.zone z := by
    rw [State.useBoundary, modBlock_zone, count_zone, switchLanes_zone]
  have slot : (((s.switchLanes i .joined set .transmitOff true).count .revert 1).useBoundary).slot i =
      (s.slot i).switched .joined set .transmitOff true := by
    rw [State.useBoundary, modBlock_slot, count_slot, switchLanes_slot_self]
  have bank : (((s.switchLanes i .joined set .transmitOff true).count .revert 1).useBoundary).bank = (s.count .revert 1).bank :=
    rfl
  have held : (((s.switchLanes i .joined set .transmitOff true).count .revert 1).useBoundary).heldGroups i = s.heldGroups i :=
    rfl
  rw [ev] at ex
  generalize ((s.switchLanes i .joined set .transmitOff true).count .revert 1).useBoundary = v at *
  have d := drops_dropGroups v i ((s.slot i).lane.transmit &&& ~~~set)
  obtain ⟨k1, k2, k3⟩ := endRegroup_ends hq works rfl zone d
  have record : (v.dropGroups i ((s.slot i).lane.transmit &&& ~~~set)).slot i = (s.slot i).restored set := by
    rw [d.slot, slot]
    rfl
  rw [record, d.held, held] at k3
  exact ⟨_, ex, k1.event (fun z => (modBlock_zone ..).symm) rfl, ((endOfEvent_settle _ s).bank).trans (k2.trans bank), k3⟩

/-- Settles O36. -/
theorem boundaryActionsSwitchBack : Obligations.BoundaryActionsSwitchBack := by
  refine ⟨fun s h => boundary_passed h, ?_⟩
  intro s w _ hq hw hd hb
  refine ⟨fun hp hu hs => revert_reverts hw hd hb hp hu hs, fun set hr hp hu hs => ?_, fun hu hs => undo_undoes hw hd hb hu hs⟩
  obtain ⟨t, ex, ev, bank, k⟩ := restore_restores hq hw hd hb hr hp hu hs
  exact ⟨t, ex, ev, k.opened, k.posted, bank, k.stays, k.drains⟩

end Sys2Proof.Machine
end

section
/-! # WINDOW_VERDICT: what a verdict makes of the change (R5, R21, R120, R134, R135, R150) -/

namespace Sys2Proof.Machine

variable {s t u v x : State} {i : SlotId} {w : OpenWindow} {st : SlotState}

/-! ## The verdict is recorded -/

/-- The verdict is recorded, and not yet acted on. -/
def State.judged (w : OpenWindow) (s : State) : State := s.modBlock fun b => { b with lastVerdict := some w.verdict }

theorem judged_queueSound (hq : s.QueueSound) (w : OpenWindow) : (s.judged w).QueueSound :=
  (deeds_modBlock (a := False) ..).queueSound hq

theorem giveVerdict_eq (s : State) (w : OpenWindow) : s.giveVerdict w =
    if w.undoPending then (s.judged w).setWindowPhase .donePending else (s.judged w).actOnVerdict w w.verdict := rfl

theorem exec_windowVerdict (hw : s.block.opened = some w) (hp : w.phase = .observeChange ∨ w.phase = .observeRevert)
    (hc : w.window ≤ w.observed) (hs : (s.slot w.holder).state = w.kind.observedState) :
    exec .windowVerdict s = .next ((s.judged w).settle (s.giveVerdict w)) := by
  have hcomplete : w.complete = true := by
    unfold OpenWindow.complete OpenWindow.counting OpenWindow.observedAll
    rcases hp with hp | hp <;> simp [hp, hc]
  have base : (s.judged w).settle (s.giveVerdict w) = s.settle (s.giveVerdict w) :=
    settle_congr (fun z => modBlock_zone ..) rfl _
  show execWindowVerdict s = _
  unfold execWindowVerdict
  rw [hw, base]
  exact if_pos ⟨hcomplete, hs⟩

/-! ## The window's slot, whatever the verdict -/

theorem works_setWindowPhase (u : State) (i : SlotId) (p : WindowPhase) : Works i u (u.setWindowPhase p) :=
  works_opened u i _ rfl rfl

theorem works_noteCheckpoint (u : State) (i : SlotId) : Works i u (u.noteCheckpoint i) :=
  ⟨calm_noteCheckpoint .., local_noteCheckpoint ..⟩

theorem works_bar (u : State) (i : SlotId) (c : FaultCause) : Works i u (u.bar i c) := ⟨calm_bar .., local_bar ..⟩

theorem works_isolate (u : State) (i : SlotId) (c : IsolationCause) : Works i u (u.isolate i c) :=
  ⟨calm_isolate .., local_isolate ..⟩

theorem works_endRegroup (u : State) (i : SlotId) : Works i u (u.endRegroup i) := by
  unfold State.endRegroup
  dsimp only
  split
  · exact (works_closeWindow ..).trans (works_startDrain ..)
  · exact works_closeWindow ..

theorem works_actOnVerdict (u : State) (w : OpenWindow) (v : Verdict) : Works w.holder u (u.actOnVerdict w v) := by
  unfold State.actOnVerdict
  split
  · unfold State.joinClean
    dsimp only
    split
    · exact (works_closeWindow ..).trans (works_startDrain ..)
    · exact (works_closeWindow ..).trans (works_moveTo ..)
  · exact (works_setWindowPhase ..).trans (works_setPhase ..)
  · have hx : Works w.holder u (u.closeWindow.modSlot w.holder fun r => { r with attempts := r.attempts + 1 }) :=
      (works_closeWindow ..).trans (works_modSlot ..)
    unfold State.revertClean
    dsimp only
    split
    · exact hx.trans (works_bar ..)
    · split
      · exact hx.trans (works_moveTo ..)
      · exact (hx.trans (works_moveTo ..)).trans (works_noteCheckpoint ..)
  · exact works_isolate ..
  · exact (works_dropGroups ..).trans (works_endRegroup ..)
  · exact (works_setWindowPhase ..).trans (works_postSlot ..)
  · unfold State.leaveEnd
    dsimp only
    split
    · exact ((works_closeWindow ..).trans (works_moveTo ..)).trans (works_postSlot ..)
    · exact (works_closeWindow ..).trans (works_moveTo ..)
  · exact works_refl u

/-! ## A change that ends: its window is closed, and its slot goes on -/

/-- What the end of the event leaves of a window that is closed and of its slot, gone from the record `r` to the state
`st`. -/
structure Finishes (i : SlotId) (st : SlotState) (r : Slot) (u t : State) : Prop where
  opened : t.block.opened = none
  record : t.slot i = r.moved st u.timers
  posted : t.posted .state i
  held   : st.groupless = false → st ≠ .draining → t.heldGroups i = u.heldGroups i
  freed  : st.groupless = true → t.heldGroups i = 0

theorem Finishes.entered {r : Slot} (f : Finishes i st r u t) : Entered st u.timers r (t.slot i) := by
  rw [f.record]
  exact entered_moved ..

theorem finishes (hq : u.QueueSound) (wk : Works i u x) (ho : x.block.opened = none) (hm : x.map = u.map) (h : st ≠ .queued)
    (n : Noted i (x.moveTo i st) t) : Finishes i st (x.slot i) u (u.settle t) ∧ (u.settle t).bank = (x.moveTo i st).bank := by
  have hn : t.inQueue i = false := by
    rw [n.inQueue]
    exact moveTo_unqueued hq wk.near h
  have e := settled u hn
  refine ⟨⟨?_, ?_, e.posted _ (n.calm.posted (moveTo_posted _ _ _)), fun k d => ?_, fun k => ?_⟩, ?_⟩
  · rw [settle_opened, n.block, moveTo_opened, ho]
  · rw [e.slot, n.slot, moveTo_slot_self, wk.calm.timers]
  · rw [e.held, heldGroups_of_map n.map, moveTo_held x i k d, heldGroups_of_map hm]
  · rw [e.held, heldGroups_of_map n.map, moveTo_groupless x i k]
  · rw [settle_bank, n.bank]

/-- A pending retirement takes the slot to DRAINING as its window closes (R6, R135). -/
theorem drains_settle (hq : u.QueueSound) (wk : Works i u x) (ho : x.block.opened = none) :
    (u.settle (x.startDrain i none)).block.opened = none ∧
    (u.settle (x.startDrain i none)).slot i = (x.slot i).moved .draining u.timers ∧
    (u.settle (x.startDrain i none)).posted .state i ∧ (u.settle (x.startDrain i none)).posted .checkpoint i ∧
    (u.settle (x.startDrain i none)).bank = x.bank := by
  obtain ⟨k1, k2, k3, k4⟩ := startDrain_pending x i
  have e := settled u (startDrain_unqueued (v := x) (i := i) hq (fun z hz => wk.near.zone z hz) none)
  refine ⟨by rw [settle_opened, k4, ho], ?_, e.posted _ k2, e.posted _ (startDrain_posted _ _ _), by rw [settle_bank, k3]⟩
  rw [e.slot, k1, wk.calm.timers]

/-! ## The join (R21, R135) -/

theorem join_clean (hq : u.QueueSound) (hs : (u.slot i).state = .joinObserve) : let t := u.settle (u.joinClean i)
    t.block.opened = none ∧ t.posted .state i ∧
    ((u.slot i).retirePending = false → Entered .live u.timers (u.slot i) (t.slot i) ∧
      t.heldGroups i = u.heldGroups i ∧ t.bank = (u.count .joinDone 1).bank) ∧
    ((u.slot i).retirePending = true → Entered .draining u.timers (u.slot i) (t.slot i) ∧
      (t.slot i).retirePending = false ∧ t.bank = u.bank ∧ t.posted .checkpoint i) := by
  have wk := works_closeWindow u i
  unfold State.joinClean
  dsimp only
  rw [closeWindow_slot]
  by_cases hr : (u.slot i).retirePending = true
  · rw [if_pos hr]
    obtain ⟨k1, k2, k3, k4, k5⟩ := drains_settle hq wk rfl
    rw [closeWindow_slot] at k2
    refine ⟨k1, k3, fun k => absurd hr (by rw [k]; decide), fun _ => ⟨?_, ?_, k5, k4⟩⟩
    · rw [k2]; exact entered_moved ..
    · rw [k2, moved_retirePending]; exact if_pos (Or.inl rfl)
  · rw [if_neg hr]
    obtain ⟨f, b⟩ := finishes (st := .live) hq wk rfl rfl (by decide) (noted_refl i _)
    refine ⟨f.opened, f.posted, fun _ => ⟨f.entered, f.held rfl (by decide), ?_⟩, fun k => absurd k hr⟩
    rw [b, moveTo_counts, if_pos ⟨rfl, hs⟩]
    rfl

theorem join_disturbed (ho : u.block.opened = some w) : let t := u.settle (u.joinDisturbed i)
    t.block.opened = some { w with phase := .revertPending } ∧ t.bank = u.bank ∧
    t.slot i = { u.slot i with phase := some .revertPending } ∧ t.posted .state i := by
  dsimp only
  unfold State.joinDisturbed
  rw [settle_of_zones]
  · refine ⟨?_, rfl, ?_, posted_postSlot _ _ _⟩
    · show (u.block.opened.map _) = _
      rw [ho]
      rfl
    · rw [State.setPhase, postSlot_slot, modSlot_slot_self]
      rfl
  · rfl
  · rfl

/-! ## The revert (R5, R21, R135) -/

theorem revert_clean (hq : u.QueueSound) (hs : (u.slot i).state = .joinObserve) : let t := u.settle (u.revertClean i)
    t.block.opened = none ∧ t.posted .state i ∧ t.bank = u.bank ∧
    let more : Slot := { u.slot i with attempts := (u.slot i).attempts + 1 }
    (3 ≤ (u.slot i).attempts + 1 → Entered .barred u.timers { more with cause := some .attempts } (t.slot i) ∧
      t.posted .fault i) ∧
    ((u.slot i).attempts + 1 < 3 → (u.slot i).retirePending = true → Entered .poweringDown u.timers more (t.slot i)) ∧
    ((u.slot i).attempts + 1 < 3 → (u.slot i).retirePending = false → Entered .reverted u.timers more (t.slot i)) := by
  have wk : Works i u (u.closeWindow.modSlot i fun r => { r with attempts := r.attempts + 1 }) :=
    (works_closeWindow ..).trans (works_modSlot ..)
  have slot : (u.closeWindow.modSlot i fun r => { r with attempts := r.attempts + 1 }).slot i =
      { u.slot i with attempts := (u.slot i).attempts + 1 } := by
    rw [modSlot_slot_self, closeWindow_slot]
  have ho : (u.closeWindow.modSlot i fun r => { r with attempts := r.attempts + 1 }).block.opened = none := rfl
  have hm : (u.closeWindow.modSlot i fun r => { r with attempts := r.attempts + 1 }).map = u.map := rfl
  have hb : (u.closeWindow.modSlot i fun r => { r with attempts := r.attempts + 1 }).bank = u.bank := rfl
  unfold State.revertClean
  dsimp only
  generalize (u.closeWindow.modSlot i fun r => { r with attempts := r.attempts + 1 }) = x at *
  rw [slot]
  by_cases h3 : 3 ≤ (u.slot i).attempts + 1
  · rw [if_pos h3]
    have b := bars_settle hq wk.calm wk.near .attempts (fun _ => id) rfl (fun _ => rfl) rfl
    have e := b.record
    rw [slot] at e
    refine ⟨?_, b.posted, ?_, fun _ => ⟨by rw [e]; exact entered_moved .., b.fault⟩, fun k => absurd h3 (by omega),
      fun k => absurd h3 (by omega)⟩
    · rw [settle_opened, bar_block, moveTo_opened, ho]
    · rw [settle_bank, bar_bank, hb]
  · rw [if_neg h3]
    by_cases hr : (u.slot i).retirePending = true
    · rw [if_pos hr]
      obtain ⟨f, b⟩ := finishes (st := .poweringDown) hq wk ho hm (by decide) (noted_refl i _)
      have en := f.entered
      rw [slot] at en
      refine ⟨f.opened, f.posted, ?_, fun k => absurd k h3, fun _ _ => en, fun _ k => absurd hr (by rw [k]; decide)⟩
      have kept : (x.moveTo i .poweringDown).bank = x.bank := moveTo_bank_of (st := .poweringDown) x i nofun fun _ => by
        rw [slot]
        show (u.slot i).state ≠ _
        rw [hs]
        decide
      rw [b, kept, hb]
    · rw [if_neg hr]
      obtain ⟨f, b⟩ := finishes (st := .reverted) hq wk ho hm (by decide) (noted_noteCheckpoint _ i)
      have en := f.entered
      rw [slot] at en
      refine ⟨f.opened, f.posted, ?_, fun k => absurd k h3, fun _ k => absurd k hr, fun _ _ => en⟩
      rw [b, moveTo_bank _ _ _ (by decide) (by decide), hb]

theorem revert_disturbed (hq : u.QueueSound) : let t := u.settle (u.isolate i .revertDisturbed)
    Isolated i u t ∧ (t.slot i).state = .barred ∧ (t.slot i).cause = some .revertDisturbed ∧ t.bank = u.bank := by
  have k := isolates u i (c := .revertDisturbed) nofun
  obtain ⟨iso, e⟩ := k.isolated hq (.refl i u) (.refl u) rfl (noted_refl i _)
  obtain ⟨h, o, r⟩ := k.record
  refine ⟨iso, ?_, ?_, ?_⟩
  · rw [e, r, isolated_state]; rfl
  · rw [e, r, isolated_cause]; rfl
  · rw [settle_bank, k.bank]; rfl

/-! ## The regroup (R120, R135) -/

theorem regroup_clean (hq : u.QueueSound) : (u.settle (u.regroupClean i)).bank = u.bank ∧
    RegroupEnds i { u.slot i with lane := { (u.slot i).lane with restore := none } }
      (u.heldGroups i &&& ~~~((u.slot i).lane.restore.getD 0 &&& ~~~(u.slot i).lane.transmit)) u
      (u.settle (u.regroupClean i)) := by
  have d := drops_dropGroups u i ((u.slot i).lane.restore.getD 0 &&& ~~~(u.slot i).lane.transmit)
  obtain ⟨-, k2, k3⟩ := endRegroup_ends hq (works_refl u) rfl (fun _ => rfl) d
  rw [d.slot, d.held] at k3
  exact ⟨(settle_bank ..).trans k2, k3⟩

theorem regroup_disturbed (ho : u.block.opened = some w) : let t := u.settle (u.regroupDisturbed i)
    t.block.opened = some { w with phase := .restorePending } ∧ t.bank = u.bank ∧ t.slots = u.slots ∧ t.posted .fault i := by
  dsimp only
  unfold State.regroupDisturbed
  rw [settle_of_zones]
  · refine ⟨?_, rfl, rfl, posted_postSlot _ _ _⟩
    show (u.block.opened.map _) = _
    rw [ho]
    rfl
  · rfl
  · rfl

/-! ## The leave (R150) -/

theorem leave_ends (hq : u.QueueSound) (hs : (u.slot i).state = .leaveObserve) (d : Verdict) :
    let t := u.settle (u.leaveEnd i d)
    t.block.opened = none ∧ Entered .poweringDown u.timers (u.slot i) (t.slot i) ∧ t.heldGroups i = 0 ∧ t.posted .state i ∧
    t.bank = (u.count .leaveDone 1).bank ∧ (d = .disturbed → t.posted .fault i) := by
  have n : Noted i (u.closeWindow.moveTo i .poweringDown) (u.leaveEnd i d) := by
    unfold State.leaveEnd
    dsimp only
    split
    · exact noted_postSlot ..
    · exact noted_refl i _
  obtain ⟨f, b⟩ := finishes (st := .poweringDown) hq (works_closeWindow u i) rfl rfl (by decide) n
  refine ⟨f.opened, f.entered, f.freed rfl, f.posted, ?_, fun k => ?_⟩
  · rw [b, moveTo_counts, if_neg (by rintro ⟨k, -⟩; cases k), if_pos ⟨rfl, hs⟩]
    rfl
  · refine settle_posted u ?_
    unfold State.leaveEnd
    dsimp only
    rw [if_pos k]
    exact posted_postSlot _ _ _

/-! ## The obligation -/

theorem verdict_disturbed (h : w.before + w.tolerance < w.after) : w.verdict = .disturbed := if_pos h

theorem verdict_clean (h : ¬ w.before + w.tolerance < w.after) : w.verdict = .clean := if_neg h

theorem actOnVerdict_eq (u : State) {k : ChangeKind} {p : WindowPhase} (hk : w.kind = k) (hp : w.phase = p) (v : Verdict) :
    u.actOnVerdict w v = u.actOnVerdict { w with kind := k, phase := p } v := by
  subst hk hp
  rfl

/-- What an isolation leaves, told of the state before the verdict was recorded. -/
theorem isolated_of_judged (h : Isolated i (s.judged w) t) : Isolated i s t :=
  ⟨h.lanes, h.groups, h.power, h.reservation, h.timers, h.retirement, h.channel, h.queue, h.listed, h.notices, h.holder,
    h.closed, h.other⟩

/-- Settles O35. -/
theorem verdictActsByKind : Obligations.VerdictActsByKind := by
  intro s w _ hq hw hp hc i r hs disturbed
  have ex := exec_windowVerdict hw hp hc hs
  have hqu := judged_queueSound hq w
  have opened : (s.judged w).block.opened = some w := hw
  have give (h : w.undoPending = false) : s.giveVerdict w = (s.judged w).actOnVerdict w w.verdict := by
    rw [giveVerdict_eq, if_neg (by rw [h]; decide)]
  have event : SlotEvent i (s.judged w) ((s.judged w).settle (s.giveVerdict w)) := by
    have wk : Works i (s.judged w) (s.giveVerdict w) := by
      rw [giveVerdict_eq]
      split
      · exact works_setWindowPhase ..
      · exact works_actOnVerdict ..
    exact wk.event (fun _ => rfl) rfl
  have acts (h : w.undoPending = false) {k : ChangeKind} {p : WindowPhase} (hk : w.kind = k) (hp : w.phase = p)
      {d : Verdict} (hd : w.verdict = d) : s.giveVerdict w = (s.judged w).actOnVerdict { w with kind := k, phase := p } d := by
    rw [give h, actOnVerdict_eq _ hk hp, hd]
  refine ⟨_, ex, event, fun h => ?_, fun h hk hp => ⟨fun hd => ?_, fun hd => ?_⟩, fun h hk hp => ⟨fun hd => ?_, fun hd => ?_⟩,
    fun h hk hp => ⟨?_, fun hd => ?_, fun hd => ?_⟩, fun h hk hp => ?_⟩
  · rw [giveVerdict_eq, if_pos h, settle_of_zones]
    · refine ⟨rfl, rfl, ?_⟩
      show ((s.judged w).block.opened.map _) = _
      rw [opened]
      rfl
    · rfl
    · rfl
  · rw [acts h hk hp (verdict_clean hd)]
    exact join_clean hqu (hs.trans (by rw [hk]; rfl))
  · rw [acts h hk hp (verdict_disturbed hd)]
    exact join_disturbed opened
  · rw [acts h hk hp (verdict_clean hd)]
    exact revert_clean hqu (hs.trans (by rw [hk]; rfl))
  · rw [acts h hk hp (verdict_disturbed hd)]
    obtain ⟨k1, k2⟩ := revert_disturbed (i := i) hqu
    exact ⟨isolated_of_judged k1, k2⟩
  · by_cases hd : w.before + w.tolerance < w.after
    · rw [acts h hk hp (verdict_disturbed hd)]
      exact (regroup_disturbed (i := i) opened).2.1
    · rw [acts h hk hp (verdict_clean hd)]
      exact (regroup_clean hqu).1
  · rw [acts h hk hp (verdict_clean hd)]
    have k := (regroup_clean (i := i) hqu).2
    exact ⟨k.opened, k.posted, k.stays, k.drains⟩
  · rw [acts h hk hp (verdict_disturbed hd)]
    obtain ⟨k1, -, k3, k4⟩ := regroup_disturbed (i := i) opened
    exact ⟨k1, k3, k4⟩
  · rw [acts h hk hp rfl]
    obtain ⟨k1, k2, k3, k4, k5, k6⟩ := leave_ends hqu (hs.trans (by rw [hk]; rfl)) w.verdict
    exact ⟨k1, k2, k3, k4, k5, fun hd => k6 (verdict_disturbed hd)⟩

end Sys2Proof.Machine
end

section
/-! # WINDOW_GRANT: the first entry of the change list takes the window (R117, R119, R121, R127, R130, R134) -/

namespace Sys2Proof.Machine

variable {s t u v : State} {i : SlotId} {e : ChangeEntry} {l : List ChangeEntry} {st : SlotState} {r : Slot}

/-! ## The change window block at the end of an event -/

theorem block_of_quiet {a b : WindowBlock} (hq : a.quiet = b.quiet) (hl : a.list = b.list) (ho : a.opened = b.opened) :
    a = b := by
  cases a
  cases b
  simp only [WindowBlock.quiet, WindowBlock.mk.injEq] at *
  simp [hq, hl, ho]

/-- The end of an event keeps the change window block where no slot of its list stands in a queue. -/
theorem settle_block (before : State) (h : ∀ x ∈ u.block.list, u.inQueue x.slot = false) :
    (before.settle u).block = u.block :=
  block_of_quiet (calm_settle u before).block (settle_list before h) (settle_opened before)

/-! ## The record of a slot whose change is observed -/

/-- A slot that waits for its change runs no timer and is on the full connection (Table 1-4, R8, R9). -/
structure Slot.Waits (r : Slot) : Prop where
  undeclared     : r.state ≠ .declared
  declareTimer   : r.declareTimer = .stopped
  drainTimer     : r.drainTimer = .stopped
  dischargeTimer : r.dischargeTimer = .stopped
  backoffTimer   : r.backoffTimer = .stopped
  powerPath      : r.powerPath = .full
  mgmtPower      : r.mgmtPower = true

theorem waits_of (h : r.Sound) (hs : r.state = .joinWait ∨ r.state = .leaveWait) : r.Waits := by
  have no {a : SlotState} (hj : a ≠ .joinWait) (hl : a ≠ .leaveWait) : r.state ≠ a := by
    rintro rfl
    exact hs.elim hj hl
  refine ⟨no (by decide) (by decide), ?_, ?_, ?_, ?_, ?_, ?_⟩
  · exact Classical.not_not.1 fun k => no (by decide) (by decide) (h.declareTimer k)
  · exact Classical.not_not.1 fun k => no (by decide) (by decide) (h.drainTimer k)
  · exact Classical.not_not.1 fun k => no (by decide) (by decide) (h.dischargeTimer k)
  · exact Classical.not_not.1 fun k => no (by decide) (by decide) (h.backoffTimer k)
  · rw [h.powerPath]
    rcases hs with hs | hs <;> rw [hs] <;> rfl
  · rw [h.mgmtPower]
    rcases hs with hs | hs <;> rw [hs] <;> rfl

/-- The entry of an observation changes the state, its phase and the fault cause, and sets the power switches again. -/
theorem moved_observing (h : r.Waits) (hst : st = .joinObserve ∨ st = .leaveObserve) (t : TimerSettings) :
    r.moved st t = { r with
      state := st, phase := st.firstPhase, cause := none, lane := { r.lane with pending := none }
      latch := { r.latch with power := .full, mgmt := true } } := by
  obtain ⟨hd, h1, h2, h3, h4, hp, hm⟩ := h
  have entered : r.moved st t = r.enter st t := by rcases hst with rfl | rfl <;> rfl
  rw [entered]
  rcases hst with rfl | rfl <;>
    simp [Slot.enter, Slot.enterTimers, SlotState.unsteered, SlotState.powerPath, SlotState.mgmtPower, hd, h1, h2, h3, h4,
      hp, hm]

theorem Slot.Waits.switched (h : r.Waits) (m : LaneMode) (gs : GroupSet) (k : SwitchKind) (b : Bool) :
    (r.switched m gs k b).Waits :=
  ⟨h.undeclared, h.declareTimer, h.drainTimer, h.dischargeTimer, h.backoffTimer, h.powerPath, h.mgmtPower⟩

theorem Slot.Waits.ungrouped (h : r.Waits) : r.ungrouped.Waits :=
  ⟨h.undeclared, h.declareTimer, h.drainTimer, h.dischargeTimer, h.backoffTimer, h.powerPath, h.mgmtPower⟩

/-! ## The switchings -/

/-- What the switching of an entry leaves, after the window block has opened the window in `u`. -/
structure Applies (i : SlotId) (u t : State) : Prop where
  works    : Works i u t
  bank     : t.bank = u.bank
  posted   : t.posted .state i
  block    : t.block = { u.block with list := u.block.list.filter fun x => x.slot ≠ i }
  unqueued : t.inQueue i = false

theorem applies_moveTo (hq : u.QueueSound) (wk : Works i u v) (hb : v.bank = u.bank) (hk : v.block = u.block)
    (hst : st = .joinObserve ∨ st = .leaveObserve) : Applies i u (v.moveTo i st) := by
  refine ⟨wk.trans (works_moveTo ..), ?_, moveTo_posted _ _ _, ?_, moveTo_unqueued hq wk.near ?_⟩
  · rw [moveTo_bank _ _ _ (by rcases hst with rfl | rfl <;> decide) (by rcases hst with rfl | rfl <;> decide), hb]
  · rw [moveTo_block, hk]
    rcases hst with rfl | rfl <;> rfl
  · rcases hst with rfl | rfl <;> decide

theorem works_switchLanes (u : State) (i : SlotId) (m : LaneMode) (gs : GroupSet) (k : SwitchKind) (b : Bool) :
    Works i u (u.switchLanes i m gs k b) := ⟨calm_switchLanes .., local_switchLanes ..⟩

theorem works_freeGroups (u : State) (i : SlotId) : Works i u (u.freeGroups i) := ⟨calm_freeGroups .., local_freeGroups ..⟩

theorem freeGroups_bank (u : State) (i : SlotId) : (u.freeGroups i).bank = u.bank := by
  rw [State.freeGroups, modLane_bank, freeSet_bank]

theorem freeGroups_block (u : State) (i : SlotId) : (u.freeGroups i).block = u.block := by
  rw [State.freeGroups, modLane_block, freeSet_block]

/-- The join closes the transmit switches on the groups held (R117). -/
theorem applyJoin_applies (hq : u.QueueSound) (hw : (u.slot i).Waits) (hn : (u.slot i).lane.pending = none) :
    Applies i u (u.applyJoin i) ∧ (u.applyJoin i).heldGroups i = u.heldGroups i ∧
    (u.applyJoin i).slot i = { u.slot i with
      state := .joinObserve, phase := some .observeJoin, cause := none
      lane := { (u.slot i).lane with
        commanded := .joined, transmit := u.heldGroups i, comparison := some .transmitOn, atBoundary := true }
      latch := { (u.slot i).latch with power := .full, mgmt := true, laneMode := .joined, drive := u.heldGroups i } } := by
  refine ⟨applies_moveTo hq (works_switchLanes ..) rfl rfl (Or.inl rfl), ?_, ?_⟩
  · rw [State.applyJoin, moveTo_held (st := .joinObserve) _ i rfl (by decide)]
    rfl
  · rw [State.applyJoin, moveTo_slot_self, switchLanes_slot_self, moved_observing (hw.switched ..) (Or.inl rfl)]
    simp only [Slot.switched, hn]
    rfl

/-- The leave opens the transmit switches and frees the groups (R121). -/
theorem applyLeave_applies (hq : u.QueueSound) (hw : (u.slot i).Waits) :
    Applies i u (u.applyLeave i) ∧ (u.applyLeave i).heldGroups i = 0 ∧
    (u.applyLeave i).slot i = { u.slot i with
      state := .leaveObserve, phase := some .observeLeave, cause := none
      lane := { (u.slot i).lane with
        commanded := .listen, transmit := 0, pending := none, restore := none, comparison := some .transmitOff
        atBoundary := true }
      latch := { (u.slot i).latch with power := .full, mgmt := true, laneMode := .listen, drive := 0 } } := by
  have works := (works_switchLanes u i .listen 0 .transmitOff true).trans (works_freeGroups _ i)
  refine ⟨applies_moveTo hq works ?_ ?_ (Or.inr rfl), ?_, ?_⟩
  · rw [freeGroups_bank]; rfl
  · rw [freeGroups_block]; rfl
  · rw [State.applyLeave, moveTo_held (st := .leaveObserve) _ i rfl (by decide), freeGroups_heldGroups]
  · rw [State.applyLeave, moveTo_slot_self, freeGroups_slot_self, switchLanes_slot_self,
      moved_observing (hw.switched ..).ungrouped (Or.inr rfl)]
    rfl

/-- The regroup switches to the pending set and keeps the set before it to restore (R119). -/
theorem applyRegroup_applies (hu : u.inQueue i = false) (hf : u.block.list.filter (fun x => x.slot ≠ i) = u.block.list) :
    Applies i u (u.applyRegroup i) ∧ (u.applyRegroup i).heldGroups i = u.heldGroups i ∧
    ∀ p, (u.slot i).lane.pending = some p → (u.applyRegroup i).slot i = { u.slot i with
      lane := { (u.slot i).lane with
        commanded := .joined, transmit := p, pending := none, restore := some (u.slot i).lane.transmit
        comparison := some .transmitOn, atBoundary := true }
      latch := { (u.slot i).latch with laneMode := .joined, drive := p } } := by
  refine ⟨⟨?_, rfl, posted_postSlot _ _ _, ?_, ?_⟩, rfl, fun p hp => ?_⟩
  · exact ((works_switchLanes ..).trans ⟨calm_modLane .., local_modLane ..⟩).trans (works_postSlot ..)
  · rw [hf]; rfl
  · exact hu
  · unfold State.applyRegroup
    dsimp only
    rw [postSlot_slot, modLane_slot_self, switchLanes_slot_self, hp]
    rfl

/-! ## The grant -/

/-- The window block without the entry that takes the window, and its window opened. -/
theorem grant_works (s : State) (e : ChangeEntry) :
    Works e.slot (s.modBlock fun b => { b with lastVerdict := none, grantDue := false }) (s.modBlock (WindowBlock.grant e)) := by
  generalize hu : (s.modBlock fun b => { b with lastVerdict := none, grantDue := false }) = u
  have eq : s.modBlock (WindowBlock.grant e) = u.modBlock (WindowBlock.grant e) := by rw [← hu]; rfl
  rw [eq]
  refine ⟨calm_modBlock _ _ ?_, local_modBlock _ _ _ fun x hx => ?_⟩
  · rw [← hu]; rfl
  · show x ∈ u.block.list.filter _ ↔ _
    rw [List.mem_filter]
    simp [hx]

/-- The list without its first entry. -/
theorem filter_first (hl : s.block.list = e :: l) (hn : (s.block.list.map (·.slot)).Nodup) :
    s.block.list.filter (fun x => x.slot ≠ e.slot) = l ∧ ∀ x ∈ l, x.slot ≠ e.slot := by
  rw [hl, List.map_cons, List.nodup_cons] at hn
  have apart (x : ChangeEntry) (hx : x ∈ l) : x.slot ≠ e.slot := fun k => hn.1 (k ▸ List.mem_map_of_mem hx)
  refine ⟨?_, apart⟩
  rw [hl, List.filter_cons_of_neg (by simp)]
  exact List.filter_eq_self.2 fun x hx => decide_eq_true (apart x hx)

/-- A slot of the change list does not stand in a queue. -/
theorem listed_unqueued (hq : s.QueueSound) (hl : s.ListSound) {x : ChangeEntry} (hx : x ∈ s.block.list) :
    s.inQueue x.slot = false := by
  refine QueueSound.notIn hq fun hs => ?_
  obtain ⟨j, k⟩ := x
  cases k with
  | join => exact absurd (hs.symm.trans ((hl.join j).1 hx)) (by decide)
  | leave => exact absurd (hs.symm.trans ((hl.leave j).1 hx)) (by decide)
  | regroup => exact absurd (hs.symm.trans (hl.live j ((hl.regroup j).1 hx))) (by decide)

/-- Settles O34. -/
theorem windowGrantAppliesChange : Obligations.WindowGrantAppliesChange := by
  intro s e l hs hq hls hl hd hg ho
  obtain ⟨rest, apart⟩ := filter_first hl hls.once
  have ex : exec .windowGrant s = .next (s.settle ((s.modBlock (WindowBlock.grant e)).applyChange e)) := by
    show execWindowGrant s = _
    unfold execWindowGrant
    rw [hl]
    exact if_pos ⟨hd, hg, ho⟩
  have hqu : (s.modBlock (WindowBlock.grant e)).QueueSound := (deeds_modBlock (a := False) ..).queueSound hq
  have works := grant_works s e
  have head : e ∈ s.block.list := hl ▸ List.mem_cons_self ..
  have unqueued : (s.modBlock (WindowBlock.grant e)).inQueue e.slot = false := listed_unqueued hq hls head
  have others (x : ChangeEntry) (hx : x ∈ l) : (s.modBlock (WindowBlock.grant e)).inQueue x.slot = false :=
    listed_unqueued hq hls (hl ▸ List.mem_cons_of_mem e hx)
  have held : (s.modBlock (WindowBlock.grant e)).heldGroups e.slot = s.heldGroups e.slot := rfl
  have slot : (s.modBlock (WindowBlock.grant e)).slot e.slot = s.slot e.slot := modBlock_slot ..
  have bank : (s.modBlock (WindowBlock.grant e)).bank = s.bank := rfl
  have block : (s.modBlock (WindowBlock.grant e)).block = { s.block with
      list := l, lastVerdict := none, grantDue := false, opened := some (s.block.openFor e) } := by
    show WindowBlock.grant e s.block = _
    rw [WindowBlock.grant, rest]
  generalize s.modBlock (WindowBlock.grant e) = u at *
  have list : u.block.list.filter (fun x => x.slot ≠ e.slot) = l := by
    rw [block]
    exact List.filter_eq_self.2 fun x hx => decide_eq_true (apart x hx)
  have ends {v : State} (a : Applies e.slot u v) :
      SlotEvent e.slot (s.modBlock fun b => { b with lastVerdict := none, grantDue := false }) (s.settle v) ∧
      (s.settle v).bank = s.bank ∧ (s.settle v).posted .state e.slot ∧ (s.settle v).block = u.block ∧
      (s.settle v).slot e.slot = v.slot e.slot ∧ (s.settle v).heldGroups e.slot = v.heldGroups e.slot := by
    have k := settled s a.unqueued
    refine ⟨(works.trans a.works).event (fun z => (modBlock_zone ..).symm) rfl, ?_, k.posted _ a.posted, ?_, k.slot, k.held _⟩
    · rw [settle_bank, a.bank, bank]
    · rw [settle_block s fun x hx => ?_, a.block, list, block]
      rw [a.block, list] at hx
      rw [a.works.near.inQueue (apart x hx)]
      exact others x hx
  have waits (h : (s.slot e.slot).state = .joinWait ∨ (s.slot e.slot).state = .leaveWait) : (u.slot e.slot).Waits := by
    rw [slot]
    exact waits_of (hs.records _) h
  obtain ⟨i, k⟩ := e
  refine ⟨_, ex, ?_⟩
  cases k with
  | join =>
    have state := (hls.join i).1 head
    have np : (u.slot i).lane.pending = none := by
      rw [slot]
      exact Option.not_isSome_iff_eq_none.1 fun k => absurd (state.symm.trans (hls.live i k)) (by decide)
    obtain ⟨a, h, r⟩ := applyJoin_applies hqu (waits (Or.inl state)) np
    obtain ⟨e1, e2, e3, e4, e5, e6⟩ := ends a
    refine ⟨e1, e2, e3, e4.trans block, fun _ => ⟨e6.trans (h.trans held), e5.trans ?_⟩, nofun, nofun⟩
    rw [r, slot, held]
  | leave =>
    obtain ⟨a, h, r⟩ := applyLeave_applies hqu (waits (Or.inr ((hls.leave i).1 head)))
    obtain ⟨e1, e2, e3, e4, e5, e6⟩ := ends a
    refine ⟨e1, e2, e3, e4.trans block, nofun, nofun, fun _ => ⟨e6.trans h, e5.trans ?_⟩⟩
    rw [r, slot]
  | regroup =>
    obtain ⟨a, h, r⟩ := applyRegroup_applies unqueued (list.trans (by rw [block]))
    obtain ⟨e1, e2, e3, e4, e5, e6⟩ := ends a
    refine ⟨e1, e2, e3, e4.trans block, nofun, fun p hp _ => ⟨e6.trans (h.trans held), e5.trans ?_⟩, nofun⟩
    rw [slot] at r
    exact r p hp

end Sys2Proof.Machine
end

section
/-! # LANE_SENSE_SAMPLE: the comparison of each switching (R122, R124, R125) -/

namespace Sys2Proof.Machine

variable {s t u v : State} {i j : SlotId} {y : LaneSense} {k : SwitchKind} {r : Slot}

/-! ## What is sensed of a slot -/

/-- The lane sense that a record holds. -/
def LaneRecord.sensed (l : LaneRecord) : LaneSense := ⟨l.sensedMode, l.sensedDrive⟩

theorem moved_sensed (st : SlotState) (T : TimerSettings) (r : Slot) : (r.moved st T).lane.sensed = r.lane.sensed := by
  have vacated (r : Slot) : (r.vacated st).lane.sensed = r.lane.sensed := by
    unfold Slot.vacated
    split <;> rfl
  have lanes (r : Slot) : (r.lanesFor st).lane.sensed = r.lane.sensed := by
    unfold Slot.lanesFor Slot.plain
    split
    · split <;> rfl
    · rfl
  have power (r : Slot) : (r.powerFor st).lane.sensed = r.lane.sensed := by
    unfold Slot.powerFor
    split <;> rfl
  have groups (r : Slot) : (r.groupsFor st).lane.sensed = r.lane.sensed := by
    unfold Slot.groupsFor
    split <;> rfl
  show (((((r.vacated st).lanesFor st).powerFor st).groupsFor st)).lane.sensed = _
  rw [groups, power, lanes, vacated]

theorem moveTo_sensed (u : State) (j : SlotId) (st : SlotState) (i : SlotId) :
    ((u.moveTo j st).slot i).lane.sensed = (u.slot i).lane.sensed := by
  by_cases h : i = j
  · rw [h, moveTo_slot_self, moved_sensed]
  · rw [(local_moveTo ..).slots i h]

/-- The end of an event keeps what is sensed of every slot. -/
theorem settle_sensed (before u : State) (i : SlotId) :
    ((before.settle u).slot i).lane.sensed = (u.slot i).lane.sensed := by
  have sweep (z : ZoneId) (u : State) : ((u.sweepQueue z).slot i).lane.sensed = (u.slot i).lane.sensed := by
    unfold State.sweepQueue
    generalize (u.zone z).queue.filter _ = l
    induction l generalizing u with
    | nil => rfl
    | cons e l ih => rw [List.foldl_cons, ih, noteCheckpoint_slot, moveTo_sensed]
  have grant (z : ZoneId) (u : State) (j : SlotId) : ((u.grantTo z j).slot i).lane.sensed = (u.slot i).lane.sensed := by
    unfold State.grantTo
    split
    · rfl
    · rw [modZone_slot]
      by_cases h : i = j
      · rw [h, setReservation_slot_self]
        exact moveTo_sensed ..
      · rw [(local_setReservation ..).slots i h, moveTo_sensed]
  have test (z : ZoneId) (u : State) : ((u.testHead z).slot i).lane.sensed = (u.slot i).lane.sensed := by
    unfold State.testHead
    split
    · exact grant ..
    · rw [State.setWait, modZone_slot]
  have examine (z : ZoneId) (u : State) : ((u.examineAfter z before).slot i).lane.sensed = (u.slot i).lane.sensed := by
    unfold State.examineAfter
    split
    · rw [State.examine, test, sweep]
    · rfl
  unfold State.settle
  extract_lets w
  have e : (w.slot i).lane.sensed = (u.slot i).lane.sensed := (examine .two _).trans (examine .one u)
  split
  · rw [postShelf_slot, e]
  · exact e

/-! ## The comparison -/

theorem result_agree_iff (l : LaneRecord) : l.result = .agree ↔ l.sensedDrive = l.drive ∧ l.sensedMode = l.commanded := by
  have eq_of (h : l.sensedDrive &&& ~~~l.drive = 0) (k : l.drive &&& ~~~l.sensedDrive = 0) : l.sensedDrive = l.drive := by
    refine BitVec.eq_of_getLsbD_eq fun n hn => ?_
    have h := congrArg (·.getLsbD n) (show l.sensedDrive &&& ~~~l.drive = 0#32 from h)
    have k := congrArg (·.getLsbD n) (show l.drive &&& ~~~l.sensedDrive = 0#32 from k)
    simp only [BitVec.getLsbD_and, BitVec.getLsbD_not, hn, decide_true, Bool.true_and, BitVec.getLsbD_zero] at h k
    revert h k
    cases l.sensedDrive.getLsbD n <;> cases l.drive.getLsbD n <;> decide
  unfold LaneRecord.result
  split
  · next h =>
    refine ⟨nofun, fun e => absurd ?_ h⟩
    rw [e.1]
    simp
  · next h =>
    split
    · next k =>
      refine ⟨nofun, fun e => absurd ?_ k⟩
      rw [e.1]
      simp
    · next k =>
      have e := eq_of (Classical.not_not.1 h) (Classical.not_not.1 k)
      split
      · next m => exact ⟨nofun, fun e => absurd e.2 m⟩
      · next m => exact ⟨fun _ => ⟨e, Classical.not_not.1 m⟩, fun _ => rfl⟩

theorem result_excess_iff (l : LaneRecord) : l.result = .excess ↔ l.sensedDrive &&& ~~~l.drive ≠ 0 := by
  unfold LaneRecord.result
  split
  · next h => exact ⟨fun _ => h, fun _ => rfl⟩
  · next h =>
    refine ⟨fun k => ?_, fun k => absurd k h⟩
    split at k
    · cases k
    · split at k <;> cases k

/-- The state after the FAULT notice of a disagreement. -/
def State.judgeSense (i : SlotId) (u : State) : State := if (u.slot i).lane.result = .agree then u else u.postSlot .fault i

theorem judgeSense_noted (u : State) (i : SlotId) : Noted i u (u.judgeSense i) := by
  unfold State.judgeSense
  split
  · exact noted_refl ..
  · exact noted_postSlot ..

theorem judgeSense_posted (h : (u.slot i).lane.result ≠ .agree) : (u.judgeSense i).posted .fault i := by
  unfold State.judgeSense
  rw [if_neg h]
  exact posted_postSlot _ _ _

theorem actOnSense_eq (u : State) (i : SlotId) (k : SwitchKind) : u.actOnSense i k = match k with
    | .transmitOn => if (u.slot i).lane.result = .agree then u.judgeSense i else (u.judgeSense i).laneMismatch i
    | .transmitOff =>
      if (u.slot i).undoWait then
        if (u.slot i).lane.sensedDrive = 0 then (u.judgeSense i).bar i .laneMismatch
        else (u.judgeSense i).isolate i .stuckLane
      else if (u.slot i).lane.result = .excess ∧ (u.slot i).state.isPowered then (u.judgeSense i).isolate i .stuckLane
      else u.judgeSense i
    | .plain => u.judgeSense i := rfl

/-- A comparison of slot `i` acts on it and on the window alone. -/
theorem works_laneMismatch (u : State) (i : SlotId) : Works i u (u.laneMismatch i) := by
  unfold State.laneMismatch
  split
  · dsimp only
    have w := (works_modSlot u i fun r => { r with cause := some .laneMismatch }).trans
      (works_opened _ i (fun b => { b with opened := b.opened.map fun w => { w with undoPending := true } }) rfl rfl)
    split
    · exact w.trans (works_setPhase ..)
    · exact w
  · exact works_refl u

theorem works_actOnSense (u : State) (i : SlotId) (k : SwitchKind) : Works i (u.judgeSense i) (u.actOnSense i k) := by
  rw [actOnSense_eq]
  split
  · split
    · exact works_refl _
    · exact works_laneMismatch ..
  · split
    · split
      · exact works_bar ..
      · exact works_isolate ..
    · split
      · exact works_isolate ..
      · exact works_refl _
  · exact works_refl _

/-! ## What the part of another slot leaves of a slot and of its window -/

/-- The undo of slot `i` waits in its window. -/
def State.Undoes (i : SlotId) (u : State) : Prop := ∃ w, u.block.opened = some w ∧ w.holder = i ∧ w.undoPending = true

/-- What the other slots' parts of a sample leave as it is. -/
structure Apart (i : SlotId) (u t : State) : Prop where
  calm   : Calm u t
  slot   : t.slot i = u.slot i
  held   : t.heldGroups i = u.heldGroups i
  queued : t.inQueue i = u.inQueue i
  holds  : t.holdsWindow i = u.holdsWindow i
  undoes : u.Undoes i → t.Undoes i
  closed : u.block.opened = none → t.block.opened = none

theorem Apart.refl (i : SlotId) (u : State) : Apart i u u := ⟨.refl u, rfl, rfl, rfl, rfl, id, id⟩

theorem Apart.trans (h : Apart i u v) (k : Apart i v t) : Apart i u t :=
  ⟨h.calm.trans k.calm, k.slot.trans h.slot, k.held.trans h.held, k.queued.trans h.queued, k.holds.trans h.holds,
    k.undoes ∘ h.undoes, k.closed ∘ h.closed⟩

/-- A change of another slot that keeps the holder of the window and the mark of its undo. -/
theorem apart_of (w : Works j u t) (hj : j ≠ i) {f : OpenWindow → OpenWindow} (ho : t.block.opened = u.block.opened.map f)
    (hf : ∀ w, u.block.opened = some w → (f w).holder = w.holder ∧ (w.undoPending = true → (f w).undoPending = true)) :
    Apart i u t where
  calm := w.calm
  slot := w.near.slots i hj.symm
  held := w.near.held i hj.symm
  queued := w.near.inQueue hj.symm
  holds := by
    unfold State.holdsWindow
    rw [ho]
    cases hx : u.block.opened with
    | none => rfl
    | some x => exact decide_eq_decide.2 (by rw [(hf x hx).1])
  undoes := by
    rintro ⟨x, hx, hi, hp⟩
    exact ⟨f x, by rw [ho, hx]; rfl, (hf x hx).1.trans hi, (hf x hx).2 hp⟩
  closed h := by rw [ho, h]; rfl

theorem apart_kept (w : Works j u t) (hj : j ≠ i) (ho : t.block.opened = u.block.opened) : Apart i u t :=
  apart_of w hj (f := id) (by rw [ho, Option.map_id]; rfl) fun _ _ => ⟨rfl, id⟩

theorem apart_isolate (hj : j ≠ i) (u : State) : Apart i u (u.isolate j .stuckLane) := by
  have k := isolates u j (c := .stuckLane) nofun
  have w := works_isolate u j .stuckLane
  cases ho : u.block.opened with
  | none => exact apart_kept w hj (by rw [k.opened, isolateWindow_closed ho, ho])
  | some x =>
    by_cases hx : x.holder = j
    · have closed : (u.isolate j .stuckLane).block.opened = none := by
        rw [k.opened, isolateWindow_holder]
        unfold State.holdsWindow
        rw [ho]
        exact decide_eq_true hx
      have other : u.holdsWindow i = false := by
        unfold State.holdsWindow
        rw [ho]
        exact decide_eq_false fun h => hj (hx.symm.trans h)
      refine ⟨w.calm, w.near.slots i hj.symm, w.near.held i hj.symm, w.near.inQueue hj.symm, ?_, ?_, fun _ => closed⟩
      · rw [other]
        unfold State.holdsWindow
        rw [closed]
      · rintro ⟨z, hz, hi, -⟩
        rw [ho] at hz
        cases hz
        exact absurd (hx.symm.trans hi) hj
    · refine apart_of w hj (f := fun _ => if (x.phase = .observeChange ∨ x.phase = .observeRevert) ∧ x.observed < x.window then
        { x with observed := 0, after := 0, before := u.block.disturbedMarks x.window } else x) ?_ ?_
      · rw [k.opened, isolateWindow_other ho hx, ho]
        rfl
      · intro z hz
        rw [ho] at hz
        cases hz
        split
        · exact ⟨rfl, id⟩
        · exact ⟨rfl, id⟩

theorem apart_bar (hj : j ≠ i) (u : State) (c : FaultCause) : Apart i u (u.bar j c) :=
  apart_kept (works_bar ..) hj (by rw [bar_block, moveTo_opened])

theorem apart_laneMismatch (hj : j ≠ i) (u : State) : Apart i u (u.laneMismatch j) := by
  have w := works_laneMismatch u j
  unfold State.laneMismatch at w ⊢
  split
  · next h =>
    rw [if_pos h] at w
    refine apart_of w hj (f := fun w => { w with undoPending := true }) ?_ fun _ _ => ⟨rfl, fun _ => rfl⟩
    dsimp only
    split <;> rfl
  · exact .refl ..

theorem apart_noted (hj : j ≠ i) (n : Noted j u t) : Apart i u t := apart_kept ⟨n.calm, n.near⟩ hj (by rw [n.block])

theorem apart_actOnSense (hj : j ≠ i) (u : State) (k : SwitchKind) : Apart i u (u.actOnSense j k) := by
  have judged := apart_noted hj (judgeSense_noted u j)
  rw [actOnSense_eq]
  split
  · split
    · exact judged
    · exact judged.trans (apart_laneMismatch hj _)
  · split
    · split
      · exact judged.trans (apart_bar hj ..)
      · exact judged.trans (apart_isolate hj _)
    · split
      · exact judged.trans (apart_isolate hj _)
      · exact judged
  · exact judged

theorem apart_modLane (hj : j ≠ i) (u : State) (f : LaneRecord → LaneRecord) : Apart i u (u.modLane j f) :=
  apart_kept ⟨calm_modLane .., local_modLane ..⟩ hj rfl

theorem apart_senseSlot (hj : j ≠ i) (u : State) (y : LaneSense) : Apart i u (u.senseSlot j y) := by
  unfold State.senseSlot
  dsimp only
  split
  · split
    · exact apart_modLane hj ..
    · exact ((apart_modLane hj ..).trans (apart_modLane hj ..)).trans (apart_actOnSense hj ..)
  · exact apart_modLane hj ..

/-- The parts of the slots of a list, one after the other. -/
def State.senseList (senses : Vector LaneSense 16) (l : List SlotId) (u : State) : State :=
  l.foldl (fun s i => s.senseSlot i senses[i.val]) u

theorem apart_senseList (senses : Vector LaneSense 16) (l : List SlotId) (hl : i ∉ l) (u : State) :
    Apart i u (u.senseList senses l) := by
  induction l generalizing u with
  | nil => exact .refl ..
  | cons j l ih =>
    rw [List.mem_cons, not_or] at hl
    exact (apart_senseSlot (Ne.symm hl.1) ..).trans (ih hl.2 _)

/-- A sample takes each slot once: what comes before and after its part leaves the slot and its window. -/
theorem senseAll_slot (s : State) (senses : Vector LaneSense 16) (i : SlotId) :
    ∃ u, Apart i { s with laneDue := false } u ∧ Apart i (u.senseSlot i senses[i.val]) (s.senseAll senses) := by
  obtain ⟨a, b, e⟩ := List.append_of_mem (List.mem_finRange i)
  have nodup := List.nodup_finRange 16
  rw [e, List.nodup_append] at nodup
  obtain ⟨-, hb, hab⟩ := nodup
  refine ⟨_, apart_senseList senses a (fun h => hab i h i (List.mem_cons_self ..) rfl) _, ?_⟩
  have all : s.senseAll senses =
      ((({ s with laneDue := false }).senseList senses a).senseSlot i senses[i.val]).senseList senses b := by
    show (List.finRange 16).foldl _ _ = _
    rw [e, List.foldl_append, List.foldl_cons]
    rfl
  rw [all]
  exact apart_senseList senses b (List.nodup_cons.1 hb).1 _

/-! ## The slot's own part -/

/-- The record of a slot whose lane sense has been recorded. -/
def Slot.sense (y : LaneSense) (r : Slot) : Slot := { r with lane := { r.lane with sensedMode := y.mode, sensedDrive := y.drive } }

/-- The record of a slot whose switching has been compared. -/
def Slot.compared (y : LaneSense) (r : Slot) : Slot := { r.sense y with lane := { (r.sense y).lane with comparison := none } }

theorem senseSlot_uncompared (h : (u.slot i).lane.comparison = none ∨ (u.slot i).lane.atBoundary = true ∨
    u.survey.running = true) : u.senseSlot i y = u.modLane i (LaneRecord.sense y) := by
  unfold State.senseSlot
  dsimp only
  rw [modLane_slot_self]
  show (match (u.slot i).lane.comparison with
    | some k => if (u.slot i).lane.atBoundary = true ∨ u.survey.running = true then _ else _
    | none => _) = _
  split
  · next k hk => exact if_pos (h.resolve_left (by rw [hk]; exact nofun))
  · rfl

/-- The state as the switching of slot `i` is compared. -/
def State.compareSense (i : SlotId) (y : LaneSense) (u : State) : State :=
  (u.modLane i (LaneRecord.sense y)).modLane i fun l => { l with comparison := none }

theorem senseSlot_compared (hk : (u.slot i).lane.comparison = some k) (hb : (u.slot i).lane.atBoundary = false)
    (hr : u.survey.running = false) : u.senseSlot i y = (u.compareSense i y).actOnSense i k := by
  unfold State.senseSlot
  dsimp only
  rw [modLane_slot_self]
  show (match (u.slot i).lane.comparison with
    | some k => if (u.slot i).lane.atBoundary = true ∨ u.survey.running = true then _ else _
    | none => _) = _
  rw [hk]
  exact if_neg (by rw [hb, hr]; simp)

theorem compareSense_slot (u : State) (i : SlotId) (y : LaneSense) : (u.compareSense i y).slot i = (u.slot i).compared y := by
  rw [State.compareSense, modLane_slot_self, modLane_slot_self]
  rfl

theorem actOnSense_sensed (u : State) (i : SlotId) (k : SwitchKind) :
    ((u.actOnSense i k).slot i).lane.sensed = (u.slot i).lane.sensed := by
  have judged : ((u.judgeSense i).slot i).lane.sensed = (u.slot i).lane.sensed := by rw [(judgeSense_noted u i).slot]
  generalize hv : u.judgeSense i = v at judged
  have isolated : ((v.isolate i .stuckLane).slot i).lane.sensed = (v.slot i).lane.sensed := by
    obtain ⟨h, o, e⟩ := (isolates v i (c := .stuckLane) nofun).record
    rw [e]
    exact moved_sensed _ v.timers (v.slot i).cutOff
  have barred (c : FaultCause) : ((v.bar i c).slot i).lane.sensed = (v.slot i).lane.sensed := by
    rw [bar_slot_self]
    exact moved_sensed .barred v.timers (v.slot i)
  have mismatched : ((v.laneMismatch i).slot i).lane.sensed = (v.slot i).lane.sensed := by
    unfold State.laneMismatch
    split
    · dsimp only
      split
      · rw [State.setPhase, postSlot_slot, modSlot_slot_self, modBlock_slot, modSlot_slot_self]
      · rw [modBlock_slot, modSlot_slot_self]
    · rfl
  rw [actOnSense_eq, hv, ← judged]
  split
  · split
    · rfl
    · exact mismatched
  · split
    · split
      · exact barred _
      · exact isolated
    · split
      · exact isolated
      · rfl
  · rfl

theorem senseSlot_sensed (u : State) (i : SlotId) (y : LaneSense) : ((u.senseSlot i y).slot i).lane.sensed = y := by
  unfold State.senseSlot
  dsimp only
  split
  · split
    · rw [modLane_slot_self]; rfl
    · rw [actOnSense_sensed, modLane_slot_self, modLane_slot_self]; rfl
  · rw [modLane_slot_self]; rfl

end Sys2Proof.Machine
end

section
/-! # LANE_SENSE_SAMPLE: what becomes of each slot at the sample, its end included (R85, R122, R124, R125) -/

namespace Sys2Proof.Machine

variable {s t u v : State} {i : SlotId} {y : LaneSense} {k : SwitchKind} {x : Slot}

/-! ## The slot as its switching is judged -/

/-- What is so of slot `i` when its switching has been compared and a disagreement told. -/
structure Judged (i : SlotId) (y : LaneSense) (u p : State) : Prop where
  slot   : p.slot i = (u.slot i).compared y
  queued : p.inQueue i = u.inQueue i
  block  : p.block = u.block
  fault  : ¬ (y.drive = (u.slot i).lane.drive ∧ y.mode = (u.slot i).lane.commanded) → p.posted .fault i

theorem compared_agrees (y : LaneSense) (r : Slot) :
    (r.compared y).lane.result = .agree ↔ y.drive = r.lane.drive ∧ y.mode = r.lane.commanded := result_agree_iff _

theorem compared_exceeds (y : LaneSense) (r : Slot) :
    (r.compared y).lane.result = .excess ↔ y.drive &&& ~~~r.lane.drive ≠ 0 := result_excess_iff _

theorem compared_undoWait (y : LaneSense) (r : Slot) : (r.compared y).undoWait = r.undoWait := rfl

theorem judged_judgeSense (u : State) (i : SlotId) (y : LaneSense) : Judged i y u ((u.compareSense i y).judgeSense i) := by
  have n := judgeSense_noted (u.compareSense i y) i
  have lane (u : State) (f : LaneRecord → LaneRecord) : Beside i u (u.modLane i f) := beside_modSlot ..
  have b : Beside i u (u.compareSense i y) := (lane u _).trans (lane _ _)
  refine ⟨by rw [n.slot, compareSense_slot], by rw [n.inQueue, b.inQueue], by rw [n.block, b.block], fun h => ?_⟩
  refine judgeSense_posted ?_
  rw [compareSense_slot]
  exact fun e => h ((compared_agrees ..).1 e)

/-! ## The ends of a comparison -/

/-- A comparison that agrees, or of a slot it does not act on, leaves the slot compared. -/
theorem actOnSense_rests
    (h : k = .plain ∨
      (k = .transmitOn ∧ ((y.drive = (u.slot i).lane.drive ∧ y.mode = (u.slot i).lane.commanded) ∨ u.holdsWindow i = false)) ∨
      (k = .transmitOff ∧ (u.slot i).undoWait = false ∧
        (y.drive &&& ~~~(u.slot i).lane.drive = 0 ∨ (u.slot i).state.isPowered = false))) :
    (u.compareSense i y).actOnSense i k = (u.compareSense i y).judgeSense i := by
  have j := judged_judgeSense u i y
  rw [actOnSense_eq, compareSense_slot]
  rcases h with rfl | ⟨rfl, h⟩ | ⟨rfl, hu, h⟩
  · rfl
  · dsimp only
    by_cases ha : ((u.slot i).compared y).lane.result = .agree
    · exact if_pos ha
    · rw [if_neg ha]
      have hw := h.resolve_left fun e => ha ((compared_agrees ..).2 e)
      have hp : ¬ ((u.compareSense i y).judgeSense i).holdsWindow i = true := by
        rw [holdsWindow_of (congrArg WindowBlock.opened j.block), hw]
        decide
      unfold State.laneMismatch
      exact if_neg hp
  · dsimp only
    rw [if_neg (by rw [compared_undoWait, hu]; decide)]
    refine if_neg fun e => ?_
    rcases h with h | h
    · exact (compared_exceeds ..).1 e.1 h
    · exact Bool.noConfusion ((show (u.slot i).state.isPowered = true from e.2).symm.trans h)

/-- A mismatch of the holder of the window: it is marked, and the undo waits (R124). -/
theorem actOnSense_mismatch (ha : ¬ (y.drive = (u.slot i).lane.drive ∧ y.mode = (u.slot i).lane.commanded))
    (hw : u.holdsWindow i = true) : let t := (u.compareSense i y).actOnSense i .transmitOn
    t.slot i = { (u.slot i).compared y with
      cause := some .laneMismatch
      phase := if (u.slot i).state = .joinObserve then some .revertPending else (u.slot i).phase } ∧
    t.inQueue i = u.inQueue i ∧ ((u.slot i).state = .joinObserve → t.posted .state i) ∧ t.Undoes i := by
  have j := judged_judgeSense u i y
  have e : (u.compareSense i y).actOnSense i .transmitOn = ((u.compareSense i y).judgeSense i).laneMismatch i := by
    rw [actOnSense_eq, compareSense_slot]
    exact if_neg fun e => ha ((compared_agrees ..).1 e)
  dsimp only
  rw [e]
  generalize (u.compareSense i y).judgeSense i = p at j
  have hp : p.holdsWindow i = true := by rw [holdsWindow_of (congrArg WindowBlock.opened j.block), hw]
  obtain ⟨w, ho, hi⟩ := Option.map_eq_some_iff.1 ((holdsWindow_iff ..).1 hp)
  have opened : p.block.opened.map (fun w => { w with undoPending := true }) = some { w with undoPending := true } := by
    rw [ho]; rfl
  unfold State.laneMismatch
  rw [if_pos hp]
  dsimp only
  have marked : ((p.modSlot i fun r => { r with cause := some .laneMismatch }).modBlock fun b =>
      { b with opened := b.opened.map fun w => { w with undoPending := true } }).slot i =
        { (u.slot i).compared y with cause := some .laneMismatch } := by
    rw [modBlock_slot, modSlot_slot_self, j.slot]
  rw [marked]
  by_cases hs : (u.slot i).state = .joinObserve
  · rw [if_pos (show ((u.slot i).compared y).state = .joinObserve from hs), if_pos hs]
    refine ⟨?_, j.queued, fun _ => posted_postSlot _ _ _, _, opened, hi, rfl⟩
    rw [State.setPhase, postSlot_slot, modSlot_slot_self, marked]
  · rw [if_neg (show ¬ ((u.slot i).compared y).state = .joinObserve from hs), if_neg hs]
    exact ⟨marked, j.queued, fun h => absurd h hs, _, opened, hi, rfl⟩

/-- What is so of a slot that a comparison bars or isolates. -/
structure CutOff (i : SlotId) (c : FaultCause) (t : State) : Prop where
  state       : (t.slot i).state = .barred
  cause       : (t.slot i).cause = some c
  power       : (t.slot i).powerPath = .off
  lanes       : (t.slot i).lane.commanded = .openMode
  reservation : (t.slot i).reservation = 0
  held        : t.heldGroups i = 0
  queued      : t.inQueue i = false
  posted      : t.posted .state i
  fault       : t.posted .fault i

theorem unqueued_iff (h : u.inQueue i = false) (z : ZoneId) (e : QueueEntry) (he : e ∈ (u.zone z).queue) : e.slot ≠ i :=
  fun k => by rw [inQueue_iff.2 ⟨z, e, he, k⟩] at h; cases h

theorem moveTo_stays_unqueued {st : SlotState} (hq : u.inQueue i = false) (h : st ≠ .queued) :
    (u.moveTo i st).inQueue i = false := moveTo_inQueue h fun z _ => unqueued_iff hq z

theorem bar_cutOff (hq : u.inQueue i = false) (c : FaultCause) : CutOff i c (u.bar i c) := by
  have e : (u.bar i c).slot i = { (u.slot i).moved .barred u.timers with cause := some c } := bar_slot_self ..
  have zone (z : ZoneId) : (u.bar i c).zone z = (u.moveTo i .barred).zone z := bar_zone ..
  have queued : (u.bar i c).inQueue i = false := by
    have h := moveTo_stays_unqueued (st := .barred) hq (by decide)
    unfold State.inQueue at h ⊢
    rwa [show (u.bar i c).zone1 = (u.moveTo i .barred).zone1 from zone .one,
      show (u.bar i c).zone2 = (u.moveTo i .barred).zone2 from zone .two]
  have lanes : ((u.slot i).moved .barred u.timers).lane.commanded = .openMode := moved_commanded ..
  have reservation : ((u.slot i).moved .barred u.timers).reservation = 0 := (moved_reservation ..).trans (if_neg (by decide))
  refine ⟨?_, ?_, ?_, ?_, ?_, bar_held .., queued, bar_posted u i c, posted_postSlot _ _ _⟩
  · rw [e]; rfl
  · rw [e]
  · rw [e]; rfl
  · rw [e]; exact lanes
  · rw [e]; exact reservation

theorem isolate_cutOff (hq : u.inQueue i = false) : CutOff i .stuckLane (u.isolate i .stuckLane) ∧
    ((u.isolate i .stuckLane).slot i).lane.transmit = 0 ∧
    (u.holdsWindow i = true → (u.isolate i .stuckLane).block.opened = none) := by
  have k := isolates u i (c := .stuckLane) nofun
  obtain ⟨h, o, e⟩ := k.record
  have g := k.cut
  refine ⟨⟨?_, ?_, g.power.1, g.lanes.1, g.reservation, k.held, ?_, k.posted, k.fault⟩, g.lanes.2.1, fun hw => ?_⟩
  · rw [k.state]; rfl
  · rw [e]; rfl
  · rw [k.beside.inQueue]
    refine moveTo_stays_unqueued ?_ (destination_offHighway _ _).queued
    unfold State.inQueue at hq ⊢
    rwa [show (u.cutOff i).zone1 = u.zone1 from cutOff_zone u i .one, show (u.cutOff i).zone2 = u.zone2 from cutOff_zone u i .two]
  · rw [k.opened, isolateWindow_holder hw]

/-- The sample after an undo bars the slot (R124). -/
theorem actOnSense_undone (hu : (u.slot i).undoWait = true) (hq : u.inQueue i = false) :
    CutOff i (if y.drive = 0 then .laneMismatch else .stuckLane) ((u.compareSense i y).actOnSense i .transmitOff) := by
  have j := judged_judgeSense u i y
  rw [actOnSense_eq, compareSense_slot]
  have undone : ((u.slot i).compared y).undoWait = true := hu
  dsimp only
  rw [if_pos undone]
  show CutOff i _ (if y.drive = 0 then _ else _)
  split
  · exact bar_cutOff (j.queued.trans hq) _
  · exact (isolate_cutOff (j.queued.trans hq)).1

/-- A stuck lane isolates its powered slot (R125). -/
theorem actOnSense_stuck (hu : (u.slot i).undoWait = false) (hd : y.drive &&& ~~~(u.slot i).lane.drive ≠ 0)
    (hw : (u.slot i).state.isPowered = true) (hq : u.inQueue i = false) :
    let t := (u.compareSense i y).actOnSense i .transmitOff
    CutOff i .stuckLane t ∧ (t.slot i).lane.transmit = 0 ∧ (u.holdsWindow i = true → t.block.opened = none) := by
  have j := judged_judgeSense u i y
  have e : (u.compareSense i y).actOnSense i .transmitOff = ((u.compareSense i y).judgeSense i).isolate i .stuckLane := by
    rw [actOnSense_eq, compareSense_slot]
    dsimp only
    rw [if_neg (by rw [compared_undoWait, hu]; decide)]
    exact if_pos ⟨(compared_exceeds ..).2 hd, hw⟩
  dsimp only
  rw [e]
  obtain ⟨k1, k2, k3⟩ := isolate_cutOff (j.queued.trans hq)
  exact ⟨k1, k2, fun h => k3 (by rw [holdsWindow_of (congrArg WindowBlock.opened j.block), h])⟩

/-! ## The end of the sample -/

/-- The end of an event leaves a slot's record, or takes a QUEUED slot on (R85). -/
theorem settle_rests_or (before : State) (hx : v.slot i = x) :
    (before.settle v).slot i = x ∨ (v.inQueue i = true ∧ (((before.settle v).slot i).state = .precharge ∨
      (((before.settle v).slot i).state = .declared ∧ x.oversize = true))) := by
  have k := endOfEvent_settle v before
  subst hx
  cases hq : v.inQueue i with
  | false => exact Or.inl (k.slots i hq)
  | true =>
    rcases k.swept i with h | h | h
    · exact Or.inl h
    · exact Or.inr ⟨rfl, Or.inl h⟩
    · cases ho : (v.slot i).oversize with
      | false => exact (k.granted i ho).imp id fun h => ⟨rfl, Or.inl h⟩
      | true => exact Or.inr ⟨rfl, Or.inr ⟨h, rfl⟩⟩

theorem CutOff.apart {c : FaultCause} (h : CutOff i c u) (a : Apart i u v) : CutOff i c v :=
  ⟨by rw [a.slot]; exact h.state, by rw [a.slot]; exact h.cause, by rw [a.slot]; exact h.power, by rw [a.slot]; exact h.lanes,
    by rw [a.slot]; exact h.reservation, a.held.trans h.held, a.queued.trans h.queued, a.calm.posted h.posted,
    a.calm.posted h.fault⟩

theorem CutOff.settle {c : FaultCause} (h : CutOff i c v) (before : State) : CutOff i c (before.settle v) := by
  have k := settled before h.queued
  exact ⟨by rw [k.slot]; exact h.state, by rw [k.slot]; exact h.cause, by rw [k.slot]; exact h.power,
    by rw [k.slot]; exact h.lanes, by rw [k.slot]; exact h.reservation, (k.held _).trans h.held,
    settle_inQueue before h.queued, k.posted _ h.posted, k.posted _ h.fault⟩

theorem exec_laneSenseSample (senses : Vector LaneSense 16) (h : s.laneDue = true) :
    exec (.laneSenseSample senses) s = .next (s.settle (s.senseAll senses)) := if_pos h

theorem calm_senseAll (s : State) (senses : Vector LaneSense 16) : Calm { s with laneDue := false } (s.senseAll senses) := by
  obtain ⟨u, b, a⟩ := senseAll_slot s senses 0
  have own (u : State) (y : LaneSense) : Calm u (u.senseSlot 0 y) := by
    unfold State.senseSlot
    dsimp only
    split
    · split
      · exact calm_modLane ..
      · exact ((calm_modLane ..).trans (calm_modLane ..)).trans
          ((judgeSense_noted ..).calm.trans (works_actOnSense ..).calm)
    · exact calm_modLane ..
  exact (b.calm.trans (own ..)).trans a.calm

/-- Settles O33. -/
theorem laneSenseComparesSwitchings : Obligations.LaneSenseComparesSwitchings := by
  intro s senses hd
  refine ⟨_, exec_laneSenseSample senses hd, (calm_senseAll s senses).trans (calm_settle ..), fun i => ?_⟩
  obtain ⟨u, b, a⟩ := senseAll_slot s senses i
  intro r v y sensed compared agrees rests
  have sense : v.lane.sensed = y := by
    show ((s.settle _).slot i).lane.sensed = _
    rw [settle_sensed, a.slot, senseSlot_sensed]
  have own : u.slot i = r := b.slot
  have queued : u.inQueue i = s.inQueue i := b.queued
  have holds : u.holdsWindow i = s.holdsWindow i := b.holds
  have running : u.survey = s.survey := b.calm.survey
  have rest {x : Slot} (hx : (u.senseSlot i y).slot i = x) (hq : (u.senseSlot i y).inQueue i = u.inQueue i) : rests x := by
    have k := settle_rests_or s (a.slot.trans hx)
    rw [a.queued, hq, queued] at k
    exact k
  refine ⟨congrArg LaneSense.mode sense, congrArg LaneSense.drive sense, fun h => ?_, fun hb hr => ?_⟩
  · have e := senseSlot_uncompared (u := u) (i := i) (y := y) (by rw [own, running]; exact h)
    refine rest ?_ (by rw [e]; rfl)
    rw [e, modLane_slot_self, own]
    rfl
  have j := judged_judgeSense u i y
  have step {k : SwitchKind} (hk : r.lane.comparison = some k) : u.senseSlot i y = (u.compareSense i y).actOnSense i k :=
    senseSlot_compared (by rw [own]; exact hk) (by rw [own]; exact hb) (by rw [running]; exact hr)
  have stays {k : SwitchKind} (hk : r.lane.comparison = some k)
      (h : (u.compareSense i y).actOnSense i k = (u.compareSense i y).judgeSense i) : rests compared := by
    refine rest ?_ (by rw [step hk, h, j.queued])
    rw [step hk, h, j.slot, own]
    rfl
  have told (hk : r.lane.comparison ≠ none) (ha : ¬ agrees) : (s.settle (s.senseAll senses)).posted .fault i := by
    obtain ⟨k, hk⟩ := Option.ne_none_iff_exists'.1 hk
    refine settle_posted s (a.calm.posted ?_)
    rw [step hk]
    exact (works_actOnSense ..).calm.posted (j.fault (by rw [own]; exact ha))
  have cut {c : FaultCause} {k : SwitchKind} (hk : r.lane.comparison = some k)
      (h : CutOff i c ((u.compareSense i y).actOnSense i k)) : CutOff i c (s.settle (s.senseAll senses)) :=
    ((step hk ▸ h).apart a).settle s
  refine ⟨told, fun hk => stays hk (actOnSense_rests (Or.inl rfl)), fun hk h => stays hk (actOnSense_rests ?_),
    fun hk ha hw => ?_, fun hk hu h => stays hk (actOnSense_rests ?_), fun hk hq => ⟨fun hu => ?_, fun hu hx hp => ?_⟩⟩
  · rw [own, holds]
    exact Or.inr (Or.inl ⟨rfl, h⟩)
  · obtain ⟨k1, k2, k3, k4⟩ := actOnSense_mismatch (u := u) (i := i) (y := y) (by rw [own]; exact ha) (by rw [holds]; exact hw)
    rw [← step hk] at k1 k2 k3 k4
    rw [own] at k1 k3
    refine ⟨rest k1 k2, fun h => settle_posted s (a.calm.posted (k3 h)), ?_⟩
    rw [settle_opened]
    exact a.undoes k4
  · rw [own]
    exact Or.inr (Or.inr ⟨rfl, hu, h⟩)
  · have c := cut hk (actOnSense_undone (by rw [own]; exact hu) (queued.trans hq))
    refine ⟨c.state, ?_, c.power, c.lanes, c.reservation, c.held, c.posted, c.fault⟩
    rw [c.cause]
    split <;> rfl
  · obtain ⟨k1, k2, k3⟩ := actOnSense_stuck (u := u) (i := i) (y := y) (by rw [own]; exact hu) (by rw [own]; exact hx)
      (by rw [own]; exact hp) (queued.trans hq)
    have c := cut hk k1
    rw [← step hk] at k2 k3
    refine ⟨c.state, c.cause, c.power, c.lanes, ?_, c.reservation, c.held, c.posted, c.fault, fun h => ?_⟩
    · show ((s.settle _).slot i).lane.transmit = 0
      rw [settle_slot s (a.queued.trans ((step hk ▸ k1).queued)), a.slot, k2]
    · rw [settle_opened]
      exact a.closed (k3 (by rw [holds]; exact h))

end Sys2Proof.Machine
end

section
/-! # Requests that are refused change nothing but their port (R47, R48, R112, R158, R159, R163, R170) -/

namespace Sys2Proof.Machine

variable {s t u v : State} {i : SlotId} {m : ManagerId} {r : Request} {c : Completion} {b : Body} {gs : GroupSet}

/-! ## What a request answers -/

/-- A request's own part, which changes nothing unless it is answered DONE or ACCEPTED. -/
def Honest (s : State) (o : State × (State → Reply)) : Prop :=
  ∀ t, (o.2 t).code ≠ .done → (o.2 t).code ≠ .accepted → o.1 = s

theorem honest_kept (p : State → Reply) : Honest s (s, p) := fun _ _ _ => rfl

theorem honest_refuse : Honest s (refuse c s) := honest_kept _

theorem honest_answerWith (d : List Byte) : Honest s (answerWith d s) := honest_kept _

theorem honest_taken {o : State × (State → Reply)} (h : ∀ t, (o.2 t).code = .done ∨ (o.2 t).code = .accepted) : Honest s o :=
  fun t hd ha => ((h t).elim hd ha).elim

theorem honest_done {p : State → Reply} (h : ∀ t, (p t).code = .done) : Honest s (u, p) := honest_taken fun t => Or.inl (h t)

theorem honest_slotReply_done : Honest s (u, slotReply .done i) := honest_done fun _ => rfl

theorem honest_slotReply_accepted : Honest s (u, slotReply .accepted i) := honest_taken fun _ => Or.inr rfl

theorem honest_fromManager {k : ManagerId → Body} (h : ∀ m, Honest s (k m s)) (read : Bool) :
    Honest s (fromManager read r k s) := by
  unfold fromManager
  split
  · exact honest_refuse
  · split
    · exact h _
    · exact honest_refuse
    · exact honest_refuse

theorem honest_fromActive {k : ManagerId → Body} (h : ∀ m, Honest s (k m s)) : Honest s (fromActive r k s) :=
  honest_fromManager (fun m => by
    split
    · exact h m
    · exact honest_refuse) false

theorem honest_onSlot {k : ManagerId → SlotId → Body} (h : ∀ m i, Honest s (k m i s)) : Honest s (onSlot r k s) :=
  honest_fromActive fun m => by
    split
    · exact honest_refuse
    · split
      · exact h m _
      · exact honest_refuse

theorem honest_onShelf {k : Body} (h : Honest s (k s)) : Honest s (onShelf r k s) :=
  honest_fromActive fun _ => by
    split
    · exact h
    · exact honest_refuse

theorem honest_readShelfOf {k : ManagerId → Body} (h : ∀ m, Honest s (k m s)) : Honest s (readShelfOf r k s) :=
  honest_fromManager (fun m => by
    split
    · exact h m
    · exact honest_refuse) true

theorem honest_fromBlade {k : SlotId → Body} (h : ∀ i, Honest s (k i s)) : Honest s (fromBlade r k s) := by
  unfold fromBlade
  split
  · exact honest_refuse
  · split
    · split
      · exact h _
      · exact honest_refuse
    · exact honest_refuse
    · exact honest_refuse

theorem honest_changeGroups {k : SlotId → GroupSet → Body} (h : ∀ i gs, Honest s (k i gs s)) :
    Honest s (changeGroups r k s) :=
  honest_onSlot fun _ i => by
    split
    · exact honest_refuse
    · split
      · exact honest_refuse
      · split
        · exact honest_refuse
        · exact h i _

theorem honest_groupsReply : Honest s (u, groupsReply i) := honest_taken fun t => by
  unfold groupsReply
  dsimp only
  split
  · exact Or.inr rfl
  · exact Or.inl rfl

/-- A request comes in and is answered. -/
theorem answers_of (h : Received r s) (hb : Honest s (b s)) : ∃ (u : State) (p : Reply), request r b s = .next (u.replied r p) ∧
    (p.code ≠ .done → p.code ≠ .accepted → u = s) :=
  ⟨_, _, request_eq h b, fun hd ha => by rw [hb _ hd ha, settle_self]⟩

/-! ## Every request is honest -/

theorem shelf_honest (r : Request) (s : State) : Honest s (setZoneBody r s) ∧ Honest s (setObservationBody r s) ∧
    Honest s (setTimersBody r s) ∧ Honest s (setMonitorBody r s) ∧ Honest s (clearMonitorBody r s) ∧
    Honest s (unfreezeBody r s) := by
  refine ⟨honest_onShelf ?_, honest_onShelf ?_, honest_onShelf ?_, honest_onShelf ?_, honest_onShelf ?_,
    honest_onShelf (honest_done fun _ => rfl)⟩
  all_goals
    split
    · exact honest_refuse
    · exact honest_done fun _ => rfl

theorem honest_retireLater (u : State) (i : SlotId) : Honest s (retireLater i u) := honest_taken fun t => by
  unfold retireLater slotReply
  dsimp only
  split
  · exact Or.inl rfl
  · exact Or.inr rfl

theorem honest_retireLive (m : ManagerId) (i : SlotId) : Honest s (retireLive m i s) := by
  unfold retireLive
  split
  · exact honest_refuse
  · split
    · exact honest_retireLater _ i
    · exact honest_slotReply_accepted

theorem honest_retireJoining (m : ManagerId) (i : SlotId) : Honest s (retireJoining m i s) := by
  unfold retireJoining
  split
  · exact honest_refuse
  · exact honest_retireLater _ i

theorem honest_retireOrphan (m : ManagerId) (i : SlotId) : Honest s (retireOrphan m i s) := by
  unfold retireOrphan
  dsimp only
  split
  · exact honest_slotReply_accepted
  · exact honest_slotReply_accepted

theorem honest_retireSlot (m : ManagerId) (i : SlotId) : Honest s (retireSlot m i s) := by
  unfold retireSlot
  cases (s.slot i).state with
  | present | declared | queued | draining | leaveWait | leaveObserve | poweringDown => exact honest_slotReply_done
  | precharge | powered | listen | joinWait | reverted => exact honest_slotReply_accepted
  | joinObserve => exact honest_retireJoining m i
  | live => exact honest_retireLive m i
  | orphaned => exact honest_retireOrphan m i
  | empty | seating | released | barred => exact honest_refuse

theorem honest_adopt (r : Request) (s : State) : Honest s (adoptBody r s) := honest_onSlot fun m i => by
  split
  · exact honest_refuse
  · split
    · exact honest_kept _
    · exact honest_done fun _ => rfl

theorem honest_setSlotPolicy (r : Request) (s : State) : Honest s (setSlotPolicyBody r s) := honest_onSlot fun _ i => by
  split
  · exact honest_refuse
  · exact honest_done fun _ => rfl

theorem honest_unbar (r : Request) (s : State) : Honest s (unbarBody r s) := honest_onSlot fun _ i => by
  split
  · exact honest_slotReply_done
  · exact honest_refuse

theorem honest_assign (r : Request) (s : State) : Honest s (assignBody r s) := honest_changeGroups fun i gs => by
  split
  · exact honest_refuse
  · split
    · exact honest_refuse
    · exact honest_groupsReply

theorem honest_release (r : Request) (s : State) : Honest s (releaseBody r s) := honest_changeGroups fun i gs => by
  split
  · exact honest_refuse
  · split
    · exact honest_refuse
    · exact honest_groupsReply

theorem honest_forceRetire (r : Request) (s : State) : Honest s (forceRetireBody r s) := honest_fromActive fun m => by
  split
  · exact honest_refuse
  · split
    · exact honest_slotReply_accepted
    · exact honest_refuse

theorem honest_readSlotOf (clears : Bool) (i : SlotId) (params : List Byte) : Honest s (readSlotOf clears i params s) := by
  unfold readSlotOf
  split
  · exact honest_done fun _ => rfl
  · split
    · exact honest_answerWith _
    · exact honest_refuse

theorem honest_readSlot (r : Request) (s : State) : Honest s (readSlotBody r s) := by
  unfold readSlotBody
  split
  · split
    · exact honest_readSlotOf _ _ _
    · exact honest_refuse
  · split
    · exact honest_readSlotOf _ _ _
    · exact honest_refuse
  · exact honest_refuse

theorem honest_readZone (r : Request) (s : State) : Honest s (readZoneBody r s) := honest_readShelfOf fun _ => by
  split
  · exact honest_refuse
  · exact honest_answerWith _

theorem honest_readShelf (r : Request) (s : State) : Honest s (readShelfBody r s) := honest_readShelfOf fun _ => by
  split
  · exact honest_answerWith _
  · split
    · exact honest_answerWith _
    · split
      · exact honest_done fun _ => rfl
      · exact honest_refuse

theorem honest_readNotices (r : Request) (s : State) : Honest s (readNoticesBody r s) :=
  honest_readShelfOf fun _ => honest_done fun _ => rfl

theorem honest_readMonitor (r : Request) (s : State) : Honest s (readMonitorBody r s) :=
  honest_readShelfOf fun _ => honest_answerWith _

theorem honest_setNoticeMask (r : Request) (s : State) : Honest s (setNoticeMaskBody r s) := honest_fromManager (fun m => by
  split
  · exact honest_refuse
  · split
    · exact honest_refuse
    · exact honest_done fun _ => rfl) false

theorem honest_refresh (r : Request) (s : State) : Honest s (refreshBody r s) := honest_fromManager (fun m => by
  split
  · exact honest_refuse
  · split
    · exact honest_refuse
    · split
      · exact honest_refuse
      · exact honest_done fun _ => rfl
      · split
        · exact honest_refuse
        · exact honest_done fun _ => rfl) false

theorem honest_declareUsable (i : SlotId) (d : Declaration) (clamped : Bool) : Honest s (declareUsable i d clamped s) := by
  unfold declareUsable
  dsimp only
  split
  · exact honest_done fun _ => rfl
  · exact honest_done fun _ => rfl
  · exact honest_done fun _ => rfl
  · split
    · exact honest_done fun _ => rfl
    · exact honest_kept _

theorem honest_declare (r : Request) (s : State) : Honest s (declareBody r s) := honest_fromBlade fun i => by
  unfold declareSlot
  split
  · exact honest_refuse
  · split
    · exact honest_refuse
    · exact honest_refuse
    · exact honest_declareUsable _ _ _

theorem honest_retireSelfLater (i : SlotId) : Honest s (retireSelfLater i s) := by
  unfold retireSelfLater
  split
  · exact honest_refuse
  · refine honest_taken fun t => ?_
    unfold slotReply
    dsimp only
    split
    · exact Or.inl rfl
    · exact Or.inr rfl

theorem honest_retireSelf (r : Request) (s : State) : Honest s (retireSelfBody r s) := honest_fromBlade fun i => by
  unfold retireSelfSlot
  cases (s.slot i).state with
  | live =>
    dsimp only
    split
    · exact honest_retireSelfLater i
    · exact honest_slotReply_accepted
  | joinObserve => exact honest_retireSelfLater i
  | draining | leaveWait | leaveObserve | poweringDown => exact honest_slotReply_done
  | empty | seating | present | declared | queued | precharge | powered | listen | joinWait | reverted | released
  | barred | orphaned => exact honest_refuse

/-! ## The nine responses -/

/-- The response commands with their codes (Table 11-4). -/
def responses (r : Request) : List (Byte × Instr) := [(1, .respContinue r), (2, .respHold r), (3, .respReject r),
  (4, .respRollback r), (5, .respJoin r), (6, .respRetry r), (7, .respRetire r), (8, .respQuiesced r), (9, .respCancel r)]

/-- The responses that each state permits (Table 10-4). -/
def permitted : List (Byte × SlotState) := [((1 : Byte), SlotState.declared), (1, .powered), (2, .declared), (2, .queued),
  (3, .declared), (4, .powered), (4, .listen), (5, .listen), (6, .reverted), (7, .reverted), (8, .draining), (9, .draining)]

theorem honest_respondMove (f : SlotId → State → State) (m : ManagerId) (i : SlotId)
    (hc : c = .done ∨ c = .accepted) : Honest s (respondMove c f m i s) := honest_taken fun _ => hc

theorem honest_joinOrRetry (m : ManagerId) (i : SlotId) : Honest s (joinOrRetry m i s) := by
  unfold joinOrRetry
  split
  · exact honest_refuse
  · exact honest_respondMove _ m i (Or.inr rfl)

/-- What the command of a response is: the tests of R163 with the states that permit it, and its body. -/
structure Serves (r : Request) (c : Byte × Instr) (permits : List SlotState) (k : ManagerId → SlotId → Body) : Prop where
  exec    : ∀ s, exec c.2 s = responseCommand c.1 r (respond c.1 permits r k) s
  permits : ∀ st ∈ permits, (c.1, st) ∈ permitted
  honest  : ∀ s m i, Honest s (k m i s)

theorem responses_served (r : Request) : ∀ c ∈ responses r, ∃ permits k, Serves r c permits k := by
  have moves {c : Completion} {f : SlotId → State → State} (hc : c = .done ∨ c = .accepted) (s : State) (m : ManagerId)
      (i : SlotId) : Honest s (respondMove c f m i s) := honest_respondMove f m i hc
  unfold responses
  simp only [List.forall_mem_cons]
  refine ⟨?_, ?_, ?_, ?_, ?_, ?_, ?_, ?_, ?_, by simp⟩
  · refine ⟨_, _, fun _ => rfl, by dsimp only; decide, fun s m i => ?_⟩
    split
    · exact honest_refuse
    · exact moves (Or.inl rfl) s m i
  · exact ⟨_, _, fun _ => rfl, by dsimp only; decide, moves (Or.inl rfl)⟩
  · exact ⟨_, _, fun _ => rfl, by dsimp only; decide, moves (Or.inl rfl)⟩
  · exact ⟨_, _, fun _ => rfl, by dsimp only; decide, moves (Or.inr rfl)⟩
  · exact ⟨_, _, fun _ => rfl, by dsimp only; decide, fun s m i => honest_joinOrRetry m i⟩
  · exact ⟨_, _, fun _ => rfl, by dsimp only; decide, fun s m i => honest_joinOrRetry m i⟩
  · exact ⟨_, _, fun _ => rfl, by dsimp only; decide, moves (Or.inr rfl)⟩
  · exact ⟨_, _, fun _ => rfl, by dsimp only; decide, moves (Or.inr rfl)⟩
  · exact ⟨_, _, fun _ => rfl, by dsimp only; decide, moves (Or.inl rfl)⟩

theorem honest_respond {c : Byte} {permits : List SlotState} {k : ManagerId → SlotId → Body} (h : ∀ m i, Honest s (k m i s)) :
    Honest s (respond c permits r k s) :=
  honest_onSlot fun m i => by
    split
    · exact honest_refuse
    · split
      · exact honest_refuse
      · split
        · exact honest_refuse
        · exact h m i

end Sys2Proof.Machine
end

section
/-! # Who and what is refused, and in which order (O53) -/

namespace Sys2Proof.Machine

variable {s t u v : State} {i : SlotId} {m : ManagerId} {r : Request} {c : Completion} {b : Body} {gs : GroupSet}

/-! ## The commands by the sender's tests -/

/-- The requests that name the shelf and change it. -/
def shelfCommands (r : Request) : List Instr :=
  [.setZone r, .setObservation r, .setTimers r, .setMonitor r, .clearMonitor r, .unfreeze r]

/-- The requests that name a slot and meet the steering test. -/
def slotCommands (r : Request) : List Instr :=
  [.setSlotPolicy r, .assignGroups r, .releaseGroups r, .retire r, .adopt r, .unbar r]

theorem shelf_served (r : Request) : ∀ x ∈ shelfCommands r, ∃ k, ∀ s, exec x s = request r (onShelf r k) s := by
  unfold shelfCommands
  simp only [List.forall_mem_cons]
  exact ⟨⟨_, fun _ => rfl⟩, ⟨_, fun _ => rfl⟩, ⟨_, fun _ => rfl⟩, ⟨_, fun _ => rfl⟩, ⟨_, fun _ => rfl⟩, ⟨_, fun _ => rfl⟩, nofun⟩

theorem slot_served (r : Request) : ∀ x ∈ slotCommands r, ∃ k, ∀ s, exec x s = request r (onSlot r k) s := by
  unfold slotCommands
  simp only [List.forall_mem_cons]
  exact ⟨⟨_, fun _ => rfl⟩, ⟨_, fun _ => rfl⟩, ⟨_, fun _ => rfl⟩, ⟨_, fun _ => rfl⟩, ⟨_, fun _ => rfl⟩, ⟨_, fun _ => rfl⟩, nofun⟩

/-- The requests that only an ACTIVE manager makes. -/
theorem active_served (r : Request) : ∀ x ∈ shelfCommands r ++ slotCommands r ++ [.forceRetire r],
    ∃ k, ∀ s, exec x s = request r (fromActive r k) s := by
  intro x hx
  rcases List.mem_append.1 hx with hx | hx
  · rcases List.mem_append.1 hx with hx | hx
    · obtain ⟨k, e⟩ := shelf_served r x hx
      exact ⟨_, e⟩
    · obtain ⟨k, e⟩ := slot_served r x hx
      exact ⟨_, e⟩
  · rw [List.mem_singleton.1 hx]
    exact ⟨_, fun _ => rfl⟩

/-! ## The tests of the sender -/

theorem refuses_iff (v : Survey) : v.refuses = true ↔ v.running = true ∨ v.closing = true := Bool.or_eq_true _ _ ▸ Iff.rfl

theorem fromManager_surveying (h : s.survey.refuses = true) (k : ManagerId → Body) :
    fromManager false r k s = refuse .surveying s := if_pos ⟨h, rfl⟩

theorem fromActive_surveying (h : s.survey.refuses = true) (k : ManagerId → Body) :
    fromActive r k s = refuse .surveying s := by
  unfold fromActive
  exact fromManager_surveying h _

/-- What the tests of an ACTIVE manager refuse, a request that names a slot is refused too. -/
theorem onSlot_refused (h : ∀ k, fromActive r k s = refuse c s) (k : ManagerId → SlotId → Body) :
    onSlot r k s = refuse c s := by
  unfold onSlot
  exact h _

theorem onShelf_refused (h : ∀ k, fromActive r k s = refuse c s) (k : Body) : onShelf r k s = refuse c s := by
  unfold onShelf
  exact h _

theorem respond_refused {a : Byte} {permits : List SlotState} (h : ∀ k, onSlot r k s = refuse c s)
    (k : ManagerId → SlotId → Body) : respond a permits r k s = refuse c s := by
  unfold respond
  exact h _

theorem fromBlade_surveying (h : s.survey.refuses = true) (k : SlotId → Body) : fromBlade r k s = refuse .surveying s := if_pos h

theorem fromActive_notActive (h : FromManager r m s) (ha : (s.manager m).state ≠ .active) (k : ManagerId → Body) :
    fromActive r k s = refuse .notActive s := by
  rw [fromActive, fromManager_eq h]
  exact if_neg ha

theorem slotNumber_eq_none {b : Byte} (h : b = 0 ∨ 16 < b.toNat) : slotNumber? b = none := by
  unfold slotNumber?
  refine dif_neg fun k => ?_
  rcases h with rfl | h
  · exact absurd k.1 (by decide)
  · omega

theorem slotNumber_iff {b : Byte} : slotNumber? b = some i ↔ b.toNat = i.val + 1 := by
  refine ⟨fun h => ?_, slotNumber_of⟩
  unfold slotNumber? at h
  split at h
  · cases h
    show _ = b.toNat - 1 + 1
    omega
  · cases h

theorem onShelf_slot (h : FromActive r m s) (hr : r.slot ≠ 0) (k : Body) : onShelf r k s = refuse .badParam s := by
  rw [onShelf, fromActive_eq h]
  exact if_neg hr

theorem onSlot_none (h : FromActive r m s) (hr : slotNumber? r.slot = none) (k : ManagerId → SlotId → Body) :
    onSlot r k s = refuse .badParam s := by
  rw [onSlot, fromActive_eq h, hr]

theorem onSlot_notSteering (h : Names r m i s) (hs : (s.slot i).steering = some (ManagerId.other m))
    (k : ManagerId → SlotId → Body) : onSlot r k s = refuse .notSteering s := by
  rw [onSlot, fromActive_eq h.toFromActive, slotNumber_of h.slot]
  refine if_neg ?_
  rw [steeringAllows, hs]
  cases m <;> decide

theorem readShelfOf_slot (h : r.tag = managerTag m) (hr : r.slot ≠ 0) (k : ManagerId → Body) :
    readShelfOf r k s = refuse .badParam s := by
  unfold readShelfOf fromManager
  rw [if_neg (by simp), h, sender_managerTag]
  exact if_neg hr

theorem forceRetire_none (h : FromActive r m s) (hr : slotNumber? r.slot = none) :
    forceRetireBody r s = refuse .badParam s := by
  rw [forceRetireBody, fromActive_eq h, hr]

theorem forceRetire_notDraining (h : Names r m i s) (hs : (s.slot i).state ≠ .draining) :
    forceRetireBody r s = refuse .wrongState s := by
  rw [forceRetireBody, fromActive_eq h.toFromActive, slotNumber_of h.slot]
  exact if_neg hs

theorem fromBlade_notPresent (ht : r.tag.toNat = 0x11 + i.val) (hv : s.survey.refuses = false)
    (h : r.slot.toNat ≠ i.val + 1 ∨ (s.slot i).mgmtPower = false) (k : SlotId → Body) :
    fromBlade r k s = refuse .notPresent s := by
  unfold fromBlade
  rw [if_neg (by rw [hv]; decide), sender_blade ht]
  refine if_neg fun e => ?_
  rcases h with h | h
  · exact h (slotNumber_iff.1 e.1)
  · rw [h] at e
    exact absurd e.2 (by decide)

theorem readSlot_notPresent (ht : r.tag.toNat = 0x11 + i.val)
    (h : r.slot.toNat ≠ i.val + 1 ∨ (s.slot i).mgmtPower = false) : readSlotBody r s = refuse .notPresent s := by
  unfold readSlotBody
  rw [sender_blade ht]
  refine if_neg fun e => ?_
  rcases h with h | h
  · exact h (slotNumber_iff.1 e.1)
  · rw [h] at e
    exact absurd e.2 (by decide)

/-! ## Parameters out of range -/

theorem zoneSetting_short {params : List Byte} (h : params.length < 8) : zoneSetting? params = none := by
  unfold zoneSetting?
  split
  · simp at h
    omega
  · rfl

theorem zoneSetting_range {z a b c d e f x : Byte} (l : List Byte) (h : (z ≠ 1 ∧ z ≠ 2) ∨ 1 < x.toNat) :
    zoneSetting? (z :: a :: b :: c :: d :: e :: f :: x :: l) = none := by
  unfold zoneSetting?
  dsimp only
  rcases h with ⟨h1, h2⟩ | h
  · rw [zoneNumber?, if_neg h1, if_neg h2]
  · rw [flag_none h]
    cases zoneNumber? z <;> rfl

theorem policySetting_short {params : List Byte} (h : params.length < 2) : policySetting? params = none := by
  unfold policySetting?
  split
  · simp at h
  · rfl

theorem policySetting_range {p o : Byte} (l : List Byte) (h : 1 < p.toNat ∨ (3 < o.toNat ∧ o ≠ 0xFF)) :
    policySetting? (p :: o :: l) = none := by
  unfold policySetting?
  dsimp only
  rcases h with h | ⟨h1, h2⟩
  · rw [policy?, if_neg (by rintro rfl; exact absurd h (by decide)), if_neg (by rintro rfl; exact absurd h (by decide))]
  · rw [override?, if_neg h2, dif_neg (by omega)]
    cases policy? p <;> rfl

theorem declareContent_tooFew {params : List Byte} (h : params.length < 16) : declareContent params = .tooFew := by
  unfold declareContent
  split
  · simp only [List.length_cons] at h
    exact if_pos (by omega)
  · rfl

theorem bladeClass_none {b : Byte} (h : 3 < b.toNat) : bladeClass? b = none := by
  have no (n : Byte) (hn : n.toNat ≤ 3) : b ≠ n := by rintro rfl; omega
  unfold bladeClass?
  rw [if_neg (no 0 (by decide)), if_neg (no 1 (by decide)), if_neg (no 2 (by decide)), if_neg (no 3 (by decide))]

theorem declareContent_unusable {cls pHi pLo cHi cLo n : Byte} {l : List Byte} (hl : 10 ≤ l.length)
    (h : 3 < cls.toNat ∨ pHi.toNat * 256 + pLo.toNat = 0 ∨ 800 < pHi.toNat * 256 + pLo.toNat ∨ 8 < n.toNat) :
    declareContent (cls :: pHi :: pLo :: cHi :: cLo :: n :: l) = .unusable := by
  rw [declareContent_cons, if_neg (by omega)]
  rcases h with h | h
  · rw [bladeClass_none h]
  · cases bladeClass? cls with
    | none => rfl
    | some k => exact if_pos h

theorem takesDeclare_iff (x : Slot) : x.takesDeclare = true ↔
    x.state ∈ [SlotState.present, .declared, .orphaned] ∨ (x.state = .live ∧ x.undoWait = false) := by
  unfold Slot.takesDeclare
  cases x.state <;> simp

theorem declare_refused (h : FromBlade r i s) : ((s.slot i).takesDeclare = false → declareBody r s = refuse .wrongState s) ∧
    ((s.slot i).takesDeclare = true → (declareContent r.params = .tooFew → declareBody r s = refuse .badParam s) ∧
      (declareContent r.params = .unusable → declareBody r s = refuse .badDeclaration s)) := by
  have e : declareBody r s = declareSlot r.params i s := fromBlade_eq h _
  rw [e]
  unfold declareSlot
  refine ⟨fun ht => if_pos ht, fun ht => ?_⟩
  rw [if_neg (by rw [ht]; decide)]
  exact ⟨fun hc => by rw [hc], fun hc => by rw [hc]⟩

/-! ## The tests of a change of groups (R112) -/

theorem takesGroups_iff (st : SlotState) : st.takesGroups = true ↔
    st ∈ [SlotState.declared, .queued, .precharge, .powered, .listen, .joinWait, .joinObserve, .live, .reverted] := by
  cases st <;> simp [SlotState.takesGroups]

theorem changeGroups_wrongState (h : ToSlot r m i s)
    (ht : ¬ ((s.slot i).state.takesGroups = true ∧ (s.slot i).undoWait = false)) (k : SlotId → GroupSet → Body) :
    changeGroups r k s = refuse .wrongState s := by
  rw [changeGroups, onSlot_eq h]
  refine if_pos ?_
  by_cases hs : (s.slot i).state.takesGroups = true
  · exact Or.inr (Bool.eq_true_of_not_eq_false fun hu => ht ⟨hs, hu⟩)
  · exact Or.inl (Bool.eq_false_of_not_eq_true hs)

theorem changeGroups_takes (h : ToSlot r m i s) (ht : (s.slot i).state.takesGroups = true ∧ (s.slot i).undoWait = false)
    (k : SlotId → GroupSet → Body) : changeGroups r k s = if s.holdsWindow i then refuse .busyOther s else
      match groupList? r.params with
      | none => refuse .badParam s
      | some gs => k i gs s := by
  have hn : ¬ ((s.slot i).state.takesGroups = false ∨ (s.slot i).undoWait = true) := by rw [ht.1, ht.2]; decide
  rw [changeGroups, onSlot_eq h]
  exact if_neg hn

theorem groupList_eq_none {params : List Byte}
    (h : params = [] ∨ 8 < params.length ∨ ¬ params.Nodup ∨ (∃ b ∈ params, b = 0 ∨ 32 < b.toNat)) : groupList? params = none := by
  cases hg : groupList? params with
  | none => rfl
  | some gs =>
    obtain ⟨length, distinct, numbers, -⟩ := groupList_iff.1 hg
    rcases h with rfl | h | h | ⟨b, hb, h⟩
    · exact absurd length.1 (by decide)
    · omega
    · exact absurd distinct h
    · have k := numbers b hb
      rcases h with rfl | h
      · exact absurd k.1 (by decide)
      · omega

theorem ownedByOther_of {g : GroupId} {j : SlotId} (hg : gs.mem g = true) (hm : s.map[g.val] = some j) (hj : j ≠ i) :
    s.ownedByOther i gs = true := by
  rw [State.ownedByOther, List.any_eq_true]
  refine ⟨g, List.mem_finRange g, Bool.and_eq_true_iff.2 ⟨hg, decide_eq_true ?_⟩⟩
  rw [hm]
  exact ⟨nofun, fun e => hj (Option.some.inj e)⟩

/-! ## The responses (R163) -/

theorem responseCommand_other {c : Byte} (h : ∀ b, r.params.head? = some b → b = 0 ∨ 9 < b.toNat) (b : Body) :
    responseCommand c r b s = request r b s := by
  unfold responseCommand
  refine if_pos ?_
  unfold ofResponse
  split
  · rfl
  · next b hb =>
    rcases h b hb with e | e
    · simp [e]
    · simp [e]

/-- The tests of a response after those of its sender. -/
theorem respond_tests (h : ToSlot r m i s) (c : Byte) (permits : List SlotState) (k : ManagerId → SlotId → Body) :
    respond c permits r k s =
      if r.params.head? ≠ some c then refuse .badParam s
      else if (s.slot i).state.respondable = false then refuse .wrongState s
      else if (s.slot i).state ∉ permits then refuse .wrongResponse s
      else k m i s := onSlot_eq h _

theorem respondable_iff (st : SlotState) :
    st.respondable = true ↔ st ∈ [SlotState.declared, .queued, .powered, .listen, .reverted, .draining] := by
  cases st <;> simp [SlotState.respondable]

/-! ## The obligation -/

/-- Each request of the list is answered with the completion code, nothing changed but its port. -/
def Refuses (r : Request) (s : State) (l : List Instr) (c : Completion) : Prop :=
  ∀ x ∈ l, exec x s = .next (s.replied r ⟨c, []⟩)

theorem refuses_one (h : Received r s) {x : Instr} (e : exec x s = request r b s) (hb : b s = refuse c s) :
    Refuses r s [x] c := by
  intro y hy
  rw [List.mem_singleton.1 hy, e]
  exact request_refuse h hb

theorem refuses_cons {x : Instr} {l : List Instr} (hx : Refuses r s [x] c) (hl : Refuses r s l c) : Refuses r s (x :: l) c :=
  List.forall_mem_cons.2 ⟨hx x (List.mem_singleton.2 rfl), hl⟩

theorem refuses_append {l k : List Instr} (hl : Refuses r s l c) (hk : Refuses r s k c) : Refuses r s (l ++ k) c :=
  fun x hx => (List.mem_append.1 hx).elim (hl x) (hk x)

theorem refuses_slot (h : Received r s) (hk : ∀ k, onSlot r k s = refuse c s) : Refuses r s (slotCommands r) c := by
  intro x hx
  obtain ⟨k, e⟩ := slot_served r x hx
  rw [e]
  exact request_refuse h (hk k)

theorem refuses_shelf (h : Received r s) (hk : ∀ k, onShelf r k s = refuse c s) : Refuses r s (shelfCommands r) c := by
  intro x hx
  obtain ⟨k, e⟩ := shelf_served r x hx
  rw [e]
  exact request_refuse h (hk k)

theorem refuses_active (h : Received r s) (hk : ∀ k, fromActive r k s = refuse c s) :
    Refuses r s (shelfCommands r ++ slotCommands r ++ [.forceRetire r]) c := by
  intro x hx
  obtain ⟨k, e⟩ := active_served r x hx
  rw [e]
  exact request_refuse h (hk k)

/-- A request that is answered neither DONE nor ACCEPTED changes nothing but its port. -/
theorem every_request_answered (h : Received r s) :
    (∀ x ∈ shelfCommands r ++ slotCommands r ++ [.readSlot r, .readZone r, .readShelf r, .readNotices r, .readMonitor r,
      .setNoticeMask r, .refresh r, .forceRetire r, .declare r, .retireSelf r], ∃ (u : State) (p : Reply),
        exec x s = .next (u.replied r p) ∧ (p.code ≠ .done → p.code ≠ .accepted → u = s)) ∧
    ∀ x ∈ responses r, r.params.head? = some x.1 → ∃ (u : State) (p : Reply),
      exec x.2 s = .next (u.replied r p) ∧ (p.code ≠ .done → p.code ≠ .accepted → u = s) := by
  refine ⟨?_, fun x hx hp => ?_⟩
  · unfold shelfCommands slotCommands
    simp only [List.cons_append, List.nil_append, List.forall_mem_cons]
    obtain ⟨h1, h2, h3, h4, h5, h6⟩ := shelf_honest r s
    exact ⟨answers_of h h1, answers_of h h2, answers_of h h3, answers_of h h4, answers_of h h5, answers_of h h6,
      answers_of h (honest_setSlotPolicy r s), answers_of h (honest_assign r s), answers_of h (honest_release r s),
      answers_of h (honest_onSlot honest_retireSlot), answers_of h (honest_adopt r s), answers_of h (honest_unbar r s),
      answers_of h (honest_readSlot r s), answers_of h (honest_readZone r s), answers_of h (honest_readShelf r s),
      answers_of h (honest_readNotices r s), answers_of h (honest_readMonitor r s), answers_of h (honest_setNoticeMask r s),
      answers_of h (honest_refresh r s), answers_of h (honest_forceRetire r s), answers_of h (honest_declare r s),
      answers_of h (honest_retireSelf r s), nofun⟩
  · obtain ⟨permits, k, v⟩ := responses_served r x hx
    rw [v.exec, responseCommand_eq hp]
    exact answers_of h (honest_respond (v.honest s))

/-- The survey takes no request but a read (R170, R180). -/
theorem surveying_refused (h : Received r s) (hv : s.survey.refuses = true) :
    Refuses r s (shelfCommands r ++ slotCommands r ++
      [.setNoticeMask r, .refresh r, .forceRetire r, .declare r, .retireSelf r]) .surveying := by
  have manager (k : ManagerId → Body) : fromManager false r k s = refuse .surveying s := fromManager_surveying hv k
  have active (k : ManagerId → Body) : fromActive r k s = refuse .surveying s := fromActive_surveying hv k
  have blade (k : SlotId → Body) : fromBlade r k s = refuse .surveying s := fromBlade_surveying hv k
  refine refuses_append (refuses_append ?_ ?_) ?_
  · exact refuses_shelf h (onShelf_refused active)
  · exact refuses_slot h (onSlot_refused active)
  · exact refuses_cons (refuses_one h rfl (manager _)) (refuses_cons (refuses_one h rfl (manager _))
      (refuses_cons (refuses_one h rfl (active _)) (refuses_cons (refuses_one h rfl (blade _))
        (refuses_one h rfl (blade _)))))

/-- What is refused of a manager's reads (R173). -/
theorem reads_refused (h : Received r s) (ht : r.tag = managerTag m) :
    (r.slot = 0 ∨ 16 < r.slot.toNat → Refuses r s [.readSlot r] .badParam) ∧
    (∀ (i : SlotId) (b : Byte), r.slot.toNat = i.val + 1 → r.params.head? = some b → b ≠ 1 → b ≠ 2 →
      Refuses r s [.readSlot r] .badParam) ∧
    (r.slot ≠ 0 → Refuses r s [.readZone r, .readShelf r, .readNotices r, .readMonitor r] .badParam) ∧
    (r.slot = 0 → r.params.head? ≠ some 1 → r.params.head? ≠ some 2 → Refuses r s [.readZone r] .badParam ∧
      (r.params ≠ [] → r.params.head? ≠ some 3 → Refuses r s [.readShelf r] .badParam)) := by
  have sender : sender? r.tag = some (.manager m) := by rw [ht, sender_managerTag]
  have ne {a b : Byte} (h : a ≠ b) : a.toNat ≠ b.toNat := fun e => h (BitVec.eq_of_toNat_eq e)
  refine ⟨fun hs => refuses_one h rfl ?_, fun i b hs hb h1 h2 => refuses_one h rfl ?_, fun hs => ?_, fun hs h1 h2 => ⟨?_, ?_⟩⟩
  · unfold readSlotBody
    rw [sender, slotNumber_eq_none hs]
  · have part : partNumber r.params = b.toNat := by
      obtain ⟨l, hl⟩ := List.head?_eq_some_iff.1 hb
      rw [hl]
      rfl
    unfold readSlotBody
    rw [sender, slotNumber_of hs]
    show readSlotOf true i r.params s = _
    unfold readSlotOf
    rw [part]
    exact (if_neg (ne h1)).trans (if_neg (ne h2))
  · have slot (k : ManagerId → Body) := readShelfOf_slot (s := s) ht hs k
    exact refuses_cons (refuses_one h rfl (slot _)) (refuses_cons (refuses_one h rfl (slot _))
      (refuses_cons (refuses_one h rfl (slot _)) (refuses_one h rfl (slot _))))
  · refine refuses_one h rfl ?_
    have none : r.params.head?.bind zoneNumber? = none := by
      cases hp : r.params.head? with
      | none => rfl
      | some b =>
        rw [hp] at h1 h2
        exact (if_neg fun e => h1 (congrArg some e)).trans (if_neg fun e => h2 (congrArg some e))
    rw [readZoneBody, readShelfOf_eq ⟨h, ht, hs⟩, none]
  · intro hn h3
    refine refuses_one h rfl ?_
    obtain ⟨b, l, hl⟩ := List.exists_cons_of_ne_nil hn
    have part : partNumber r.params = b.toNat := by rw [hl]; rfl
    rw [hl] at h1 h2 h3
    have n1 : b.toNat ≠ 1 := ne (b := 1) fun e => h1 (congrArg some e)
    have n2 : b.toNat ≠ 2 := ne (b := 2) fun e => h2 (congrArg some e)
    have n3 : b.toNat ≠ 3 := ne (b := 3) fun e => h3 (congrArg some e)
    rw [readShelfBody, readShelfOf_eq ⟨h, ht, hs⟩, part, if_neg n1, if_neg n2, if_neg n3]

/-- What is refused of a DECLARE by the slot's state and by its content (R47, R48). -/
theorem declare_refuses (h : FromBlade r i s) :
    let v := s.slot i
    let takes := v.state ∈ [SlotState.present, .declared, .orphaned] ∨ (v.state = .live ∧ v.undoWait = false)
    (¬ takes → Refuses r s [.declare r] .wrongState) ∧ (takes → r.params.length < 16 → Refuses r s [.declare r] .badParam) ∧
    (takes → ∀ cls pHi pLo cHi cLo n l, r.params = cls :: pHi :: pLo :: cHi :: cLo :: n :: l → 10 ≤ l.length →
      3 < cls.toNat ∨ pHi.toNat * 256 + pLo.toNat = 0 ∨ 800 < pHi.toNat * 256 + pLo.toNat ∨ 8 < n.toNat →
      Refuses r s [.declare r] .badDeclaration) := by
  intro v takes
  obtain ⟨h1, h2⟩ := declare_refused h
  refine ⟨fun ht => ?_, fun ht hl => ?_, fun ht cls pHi pLo cHi cLo n l hp hl hr => ?_⟩
  · exact refuses_one h.toReceived rfl (h1 (Bool.eq_false_of_not_eq_true fun k => ht ((takesDeclare_iff _).1 k)))
  · exact refuses_one h.toReceived rfl ((h2 ((takesDeclare_iff _).2 ht)).1 (declareContent_tooFew hl))
  · exact refuses_one h.toReceived rfl ((h2 ((takesDeclare_iff _).2 ht)).2 (hp ▸ declareContent_unusable hl hr))

/-- What is refused of ASSIGN_GROUPS and RELEASE_GROUPS (R112). -/
theorem groups_refused (h : ToSlot r m i s) :
    let v := s.slot i; let held := s.heldGroups i
    let both : List Instr := [.assignGroups r, .releaseGroups r]
    let takes := v.state ∈ [SlotState.declared, .queued, .precharge, .powered, .listen, .joinWait, .joinObserve, .live,
      .reverted] ∧ v.undoWait = false
    (¬ takes → Refuses r s both .wrongState) ∧ (takes → s.holdsWindow i = true → Refuses r s both .busyOther) ∧
    (takes → s.holdsWindow i = false →
      (r.params = [] ∨ 8 < r.params.length ∨ ¬ r.params.Nodup ∨ (∃ b ∈ r.params, b = 0 ∨ 32 < b.toNat) →
        Refuses r s both .badParam) ∧
      ∀ gs, ListsGroups r.params gs →
        ((∃ (g : GroupId) (j : SlotId), gs.mem g = true ∧ s.map[g.val] = some j ∧ j ≠ i) →
          Refuses r s [.assignGroups r] .groupTaken) ∧
        ((∀ g : GroupId, gs.mem g = true → s.map[g.val] = none ∨ s.map[g.val] = some i) →
          8 < groupCount (held ||| gs) → Refuses r s [.assignGroups r] .badParam) ∧
        (gs &&& ~~~held ≠ 0 → Refuses r s [.releaseGroups r] .badParam)) := by
  intro v held both takes
  have both_of {c : Completion} (hk : ∀ k, changeGroups r k s = refuse c s) : Refuses r s both c :=
    refuses_cons (refuses_one h.toReceived rfl (hk _)) (refuses_one h.toReceived rfl (hk _))
  have taken (ht : takes) := changeGroups_takes h ⟨(takesGroups_iff _).2 ht.1, ht.2⟩
  refine ⟨fun ht => both_of (changeGroups_wrongState h fun k => ht ⟨(takesGroups_iff _).1 k.1, k.2⟩),
    fun ht hw => both_of fun k => ?_, fun ht hw => ⟨fun hp => both_of fun k => ?_, fun gs hl => ⟨fun ⟨g, j, hg, hm, hj⟩ => ?_,
      fun hm hc => ?_, fun hg => ?_⟩⟩⟩
  · rw [taken ht, if_pos hw]
  · rw [taken ht, if_neg (by rw [hw]; decide), groupList_eq_none hp]
  · refine refuses_one h.toReceived rfl ?_
    rw [assignBody, taken ht, if_neg (by rw [hw]; decide), groupList_iff.2 hl]
    exact if_pos (ownedByOther_of hg hm hj)
  · refine refuses_one h.toReceived rfl ?_
    rw [assignBody, taken ht, if_neg (by rw [hw]; decide), groupList_iff.2 hl]
    exact (if_neg (by rw [ownedByOther_eq_false hm]; decide)).trans (if_pos hc)
  · refine refuses_one h.toReceived rfl ?_
    rw [releaseBody, taken ht, if_neg (by rw [hw]; decide), groupList_iff.2 hl]
    exact if_pos hg

/-- What is refused of the other requests that name a slot (R161, R162). -/
theorem slot_refused (h : ToSlot r m i s) :
    ((s.slot i).state ∈ [SlotState.empty, .seating, .live, .released, .barred] → Refuses r s [.adopt r] .wrongState) ∧
    (r.params.length < 2 → Refuses r s [.setSlotPolicy r] .badParam) ∧
    ∀ p o l, r.params = p :: o :: l → 1 < p.toNat ∨ (3 < o.toNat ∧ o ≠ 0xFF) → Refuses r s [.setSlotPolicy r] .badParam := by
  refine ⟨fun hs => refuses_one h.toReceived rfl ?_, fun hl => refuses_one h.toReceived rfl ?_,
    fun p o l hp hr => refuses_one h.toReceived rfl ?_⟩
  · have adoptable : (s.slot i).state.adoptable = false := by
      revert hs
      cases (s.slot i).state <;> simp [SlotState.adoptable]
    rw [adoptBody, onSlot_eq h]
    exact if_pos adoptable
  · rw [setSlotPolicyBody, onSlot_eq h, policySetting_short hl]
  · rw [setSlotPolicyBody, onSlot_eq h, hp, policySetting_range l hr]

/-- What is refused of a RESPOND (R163). -/
theorem response_refused (h : Received r s) {x : Byte × Instr} (hx : x ∈ responses r) (hp : r.params.head? = some x.1) :
    (s.survey.running = true ∨ s.survey.closing = true → Refuses r s [x.2] .surveying) ∧
    (∀ m, FromManager r m s →
      ((s.manager m).state ≠ .active → Refuses r s [x.2] .notActive) ∧
      ((s.manager m).state = .active → (r.slot = 0 ∨ 16 < r.slot.toNat) → Refuses r s [x.2] .badParam)) ∧
    (∀ m i, Names r m i s → (s.slot i).steering = some (ManagerId.other m) → Refuses r s [x.2] .notSteering) ∧
    (∀ m i, ToSlot r m i s →
      ((s.slot i).state ∉ [SlotState.declared, .queued, .powered, .listen, .reverted, .draining] →
        Refuses r s [x.2] .wrongState) ∧
      ((s.slot i).state ∈ [SlotState.declared, .queued, .powered, .listen, .reverted, .draining] →
        (x.1, (s.slot i).state) ∉ permitted → Refuses r s [x.2] .wrongResponse)) := by
  obtain ⟨permits, k, v⟩ := responses_served r x hx
  have e : exec x.2 s = request r (respond x.1 permits r k) s := (v.exec s).trans (responseCommand_eq hp _)
  have code : ¬ r.params.head? ≠ some x.1 := not_not.2 hp
  refine ⟨fun hv => refuses_one h e (respond_refused (onSlot_refused (fromActive_surveying ((refuses_iff _).2 hv))) _),
    fun m hm => ⟨fun ha => ?_, fun ha hs => ?_⟩,
    fun m i hn hs => refuses_one h e (respond_refused (onSlot_notSteering hn hs) _), fun m i ht => ⟨fun hs => ?_, fun hs hn => ?_⟩⟩
  · exact refuses_one h e (respond_refused (onSlot_refused (fromActive_notActive hm ha)) _)
  · exact refuses_one h e (respond_refused (onSlot_none ⟨hm, ha⟩ (slotNumber_eq_none hs)) _)
  · refine refuses_one h e ?_
    rw [respond_tests ht, if_neg code]
    exact if_pos (Bool.eq_false_of_not_eq_true fun k => hs ((respondable_iff _).1 k))
  · refine refuses_one h e ?_
    rw [respond_tests ht, if_neg code, if_neg (by rw [(respondable_iff _).2 hs]; decide)]
    exact if_pos fun k => hn (v.permits _ k)

/-- A RESPOND with no response code of the nine (log entry 7). -/
theorem unknown_response_refused (h : ToSlot r m i s) (hc : ∀ b, r.params.head? = some b → b = 0 ∨ 9 < b.toNat) :
    Refuses r s ((responses r).map (·.2)) .badParam := by
  have codes : ∀ x ∈ responses r, x.1 ≠ 0 ∧ x.1.toNat ≤ 9 := by
    unfold responses
    simp only [List.forall_mem_cons]
    exact ⟨by decide, by decide, by decide, by decide, by decide, by decide, by decide, by decide, by decide, nofun⟩
  intro y hy
  obtain ⟨x, hx, rfl⟩ := List.mem_map.1 hy
  obtain ⟨permits, k, v⟩ := responses_served r x hx
  obtain ⟨h0, h9⟩ := codes x hx
  rw [v.exec, responseCommand_other hc]
  refine request_refuse h.toReceived ?_
  rw [respond_tests h]
  refine if_pos fun e => ?_
  rcases hc _ e with e | e
  · exact h0 e
  · omega

/-- Settles O53. -/
theorem refusedRequestsChangeNothing : Obligations.RefusedRequestsChangeNothing := by
  intro r s h
  refine ⟨(every_request_answered h).1, (every_request_answered h).2, fun hv => surveying_refused h ((refuses_iff _).2 hv),
    fun m hm => ⟨fun ha => ?_, fun ha hs => ?_, fun ha hs => ?_⟩, fun m hm => ⟨fun hl => ?_, fun z a b c d e f x l hp hr => ?_⟩,
    fun m ht => reads_refused h ht, fun m i hn => ⟨fun hs => ?_, fun hs => ?_⟩, fun i ht hs => ⟨?_, fun h1 h2 => ?_⟩,
    fun i hb => declare_refuses hb, fun m i ht => ?_, fun m i ht hc => unknown_response_refused ht hc,
    fun x hx hp => response_refused h hx hp⟩
  · exact refuses_active h fun k => fromActive_notActive hm ha k
  · exact refuses_shelf h fun k => onShelf_slot ⟨hm, ha⟩ hs k
  · exact refuses_cons (refuses_one h rfl (forceRetire_none ⟨hm, ha⟩ (slotNumber_eq_none hs)))
      (refuses_slot h fun k => onSlot_none ⟨hm, ha⟩ (slotNumber_eq_none hs) k)
  · exact refuses_one h rfl (by rw [setZoneBody, onShelf_eq hm, zoneSetting_short hl])
  · exact refuses_one h rfl (by rw [setZoneBody, onShelf_eq hm, hp, zoneSetting_range l hr])
  · exact refuses_slot h fun k => onSlot_notSteering hn hs k
  · exact refuses_one h rfl (forceRetire_notDraining hn hs)
  · exact refuses_one h rfl (readSlot_notPresent ht hs)
  · have notPresent (k : SlotId → Body) : fromBlade r k s = refuse .notPresent s :=
      fromBlade_notPresent ht (refuses_of ⟨h1, h2⟩) hs k
    exact refuses_cons (refuses_one h rfl (notPresent _)) (refuses_one h rfl (notPresent _))
  · obtain ⟨k1, k2, k3⟩ := slot_refused ht
    obtain ⟨g1, g2, g3⟩ := groups_refused ht
    exact ⟨k1, k2, k3, g1, g2, g3⟩

end Sys2Proof.Machine
end

section
/-! # The reads, byte by byte, and the removal indicator (R13, R14, R37, R79, R97, R106, R138, R142, R168, R173, R174) -/

namespace Sys2Proof.Machine

variable {s t u v : State} {i : SlotId} {m : ManagerId} {r : Request} {n : Nat}

/-! ## READ_SLOT -/

theorem partNumber_one (h : r.params = [] ∨ r.params.head? = some 1) : partNumber r.params = 1 := by
  rcases h with h | h
  · rw [h]; rfl
  · obtain ⟨l, hl⟩ := List.head?_eq_some_iff.1 h
    rw [hl]
    rfl

theorem partNumber_of {b : Byte} (h : r.params.head? = some b) : partNumber r.params = b.toNat := by
  obtain ⟨l, hl⟩ := List.head?_eq_some_iff.1 h
  rw [hl]
  rfl

/-- The two parts of a READ_SLOT of slot `i`, served by `readSlotOf`. -/
theorem readSlot_reads (h : Received r s) {clears : Bool} (hb : readSlotBody r s = readSlotOf clears i r.params s) :
    (r.params = [] ∨ r.params.head? = some 1 → exec (.readSlot r) s = .next
      ((if clears then s.modSlot i fun v => { v with firstCode := none } else s).replied r ⟨.done, readSlotData s i⟩)) ∧
    (r.params.head? = some 2 → exec (.readSlot r) s = .next (s.replied r ⟨.done, readDeclarationData (s.slot i)⟩)) := by
  refine ⟨fun hp => ?_, fun hp => ?_⟩
  · refine request_of_zones (b := readSlotBody r) (p := fun _ => _) h ?_ fun z => ?_
    · rw [hb, readSlotOf, if_pos (partNumber_one hp)]
    · split
      · exact modSlot_zone ..
      · rfl
  · have part : partNumber r.params = 2 := partNumber_of hp
    refine request_of_zones (b := readSlotBody r) (p := fun _ => _) h ?_ fun _ => rfl
    rw [hb, readSlotOf, if_neg (by rw [part]; decide), if_pos part]
    rfl

theorem readSlot_byManager (ht : r.tag = managerTag m) (hs : r.slot.toNat = i.val + 1) :
    readSlotBody r s = readSlotOf true i r.params s := by
  unfold readSlotBody
  rw [ht, sender_managerTag, slotNumber_of hs]

theorem readSlot_byBlade (ht : r.tag.toNat = 0x11 + i.val) (hs : r.slot.toNat = i.val + 1)
    (hp : (s.slot i).mgmtPower = true) : readSlotBody r s = readSlotOf false i r.params s := by
  unfold readSlotBody
  rw [sender_blade ht]
  exact if_pos ⟨slotNumber_of hs, hp⟩

theorem flagBit_eq (b : Bool) (n : Nat) : flagBit b n = if b then 2 ^ n else 0 := rfl

/-- Part 1 of a READ_SLOT, field by field (Table 11-6). -/
theorem readSlotData_laid (s : State) (i : SlotId) : let l := readSlotData s i; let v := s.slot i; l.length = 35 ∧
    l.take 6 = [byte v.state.code, optByte (v.phase.map SlotPhase.code), byte v.policy.code,
      optByte (v.override.map (·.val)), optByte (v.steering.map ManagerId.code),
      byte ((if v.heldMark then 1 else 0) + (if v.oversize then 2 else 0) + (if v.clamped then 4 else 0) +
        (if v.retirePending then 8 else 0))] ∧
    (l.drop 6).take 14 = bytes2 v.reservation ++ groupBytes (s.heldGroups i) ++ groupBytes v.lane.transmit ++
      groupBytes (v.lane.pending.getD 0) ∧
    (l.drop 20).take 7 = [byte v.attempts, optByte (v.cause.map FaultCause.code),
      optByte (v.origin.map DrainOrigin.code), byte v.target.code, optByte (v.firstCode.map HandleCode.code),
      optByte (v.latestCode.map HandleCode.code), byte (s.indicator i).code] ∧
    (l.drop 27).take 4 =
      [byte ((if v.mgmtPower then 1 else 0) + (if v.powerPath = .off then 0 else 2) + 4 * LaneMode.code v.lane.commanded),
        byte (v.declareTimer.code + 4 * v.drainTimer.code + 16 * v.dischargeTimer.code + 64 * v.backoffTimer.code),
        (let a := v.lines.accepted
         byte ((if a.long then 1 else 0) + (if a.short then 2 else 0) + (if a.handleClosed then 4 else 0) +
           (if a.pg then 8 else 0) + (if v.lines.oc then 16 else 0) + 32 * a.presence.code)),
        byte (LaneMode.code v.lane.sensedMode)] ∧
    l.drop 31 = groupBytes v.lane.sensedDrive := by
  intro l v
  have power : flagBit (v.powerPath ≠ .off) 1 = if v.powerPath = .off then 0 else 2 := by
    rw [flagBit_eq]
    by_cases h : v.powerPath = .off
    · rw [if_pos h, if_neg (by simp [h])]
    · rw [if_neg h, if_pos (by simp [h])]
      rfl
  refine ⟨rfl, rfl, rfl, rfl, ?_, rfl⟩
  show [switchByte v, timerByte v, lineByte v.lines, byte (LaneMode.code v.lane.sensedMode)] = _
  rw [switchByte, power]
  rfl

theorem readDeclarationData_laid (v : Slot) : readDeclarationData v = byte (if v.clamped then 1 else 0) ::
    (match v.decl with
     | some d => [byte d.cls.code] ++ bytes2 d.power ++ bytes2 d.bulk ++ [byte d.wanted] ++ d.serial ++ d.kindCode ++
         d.preferred.map fun g => byte (g.val + 1)
     | none => []) := by
  unfold readDeclarationData
  cases v.decl <;> rfl

/-! ## Numbers and sets in bytes (R168) -/

theorem bytes2_toNat (h : n < 65536) : (bytes2 n).map (·.toNat) = [n / 256, n % 256] := by
  have hi : n / 256 % 256 = n / 256 := Nat.mod_eq_of_lt (by omega)
  simp [bytes2, byte, hi]

theorem groupBytes_bit (gs : GroupSet) (g : GroupId) :
    ((groupBytes gs)[3 - g.val / 8]?.getD 0).getLsbD (g.val % 8) = gs.mem g := by
  have part (k : Nat) (hk : g.val / 8 = k) : (gs.extractLsb' (8 * k) 8).getLsbD (g.val % 8) = gs.mem g := by
    have e : 8 * k + g.val % 8 = g.val := by omega
    rw [BitVec.getLsbD_extractLsb', e]
    simp [Nat.mod_lt]
  have hg : g.val / 8 = 0 ∨ g.val / 8 = 1 ∨ g.val / 8 = 2 ∨ g.val / 8 = 3 := by omega
  rcases hg with h | h | h | h
  · have k := part 0 h
    rw [h]; exact k
  · have k := part 1 h
    rw [h]; exact k
  · have k := part 2 h
    rw [h]; exact k
  · have k := part 3 h
    rw [h]; exact k

/-! ## The removal indicator (R13, R14) -/

theorem awaiting_iff (s : State) (i : SlotId) : s.awaiting i = true ↔
    ((s.slot i).policy = .supervised ∧ (s.slot i).state ∈ [SlotState.declared, .powered, .listen, .reverted, .draining]) ∨
    (s.slot i).state = .draining ∨ ((s.slot i).state = .declared ∧ (s.slot i).heldMark = true) ∨
    ((s.slot i).state = .listen ∧ s.heldGroups i = 0) ∨
    ((s.slot i).state = .reverted ∧ (s.slot i).backoffTimer = .stopped ∧ s.heldGroups i = 0) := by
  unfold State.awaiting
  dsimp only
  cases (s.slot i).state <;> simp

theorem noActiveManager_iff (s : State) : s.noActiveManager = true ↔ ∀ m, (s.manager m).state ≠ .active := by
  unfold State.noActiveManager
  rw [Bool.and_eq_true, decide_eq_true_eq, decide_eq_true_eq]
  exact ⟨fun h m => by cases m; exacts [h.1, h.2], fun h => ⟨h .a, h .b⟩⟩

/-- The indicator is that of the first row of Table 1-5 that holds. -/
theorem indicator_rows {on fast slow : Prop} (s : State) (i : SlotId)
    (h1 : on ↔ (s.slot i).state = .released ∨ (s.slot i).state = .barred)
    (h2 : fast ↔ ((s.slot i).state = .present ∧ (s.slot i).declareTimer = .expired) ∨
      ((s.slot i).state = .draining ∧ (s.slot i).drainTimer = .expired) ∨
      (s.awaiting i = true ∧ s.noActiveManager = true))
    (h3 : slow ↔ (s.slot i).state = .draining ∨ (s.slot i).state = .leaveWait ∨ (s.slot i).state = .leaveObserve ∨
      (s.slot i).state = .poweringDown) :
    (on → s.indicator i = .on) ∧ (¬ on → fast → s.indicator i = .fast) ∧
      (¬ on → ¬ fast → slow → s.indicator i = .slow) ∧ (¬ on → ¬ fast → ¬ slow → s.indicator i = .off) := by
  rw [h1, h2, h3]
  unfold State.indicator
  refine ⟨fun a => if_pos a, fun a b => ?_, fun a b c => ?_, fun a b c => ?_⟩
  · exact (if_neg a).trans (if_pos b)
  · exact (if_neg a).trans ((if_neg b).trans (if_pos c))
  · exact (if_neg a).trans ((if_neg b).trans (if_neg c))

/-! ## READ_ZONE, READ_SHELF and READ_MONITOR -/

theorem zoneNumber_zoneByte (z : ZoneId) : zoneNumber? (zoneByte z) = some z := by cases z <;> decide

/-- A read of the shelf that changes nothing. -/
theorem readShelfOf_answers (h : ReadsShelf r m s) {k : ManagerId → Body} {d : List Byte} (hk : k m s = answerWith d s) :
    request r (readShelfOf r k) s = .next (s.replied r ⟨.done, d⟩) :=
  request_of_zones (p := fun _ => _) h.toReceived (by rw [readShelfOf_eq h, hk]; rfl) fun _ => rfl

theorem shelf_reads (h : ReadsShelf r m s) :
    (∀ z, r.params.head? = some (zoneByte z) →
      exec (.readZone r) s = .next (s.replied r ⟨.done, readZoneData (s.zone z)⟩)) ∧
    (r.params = [] ∨ r.params.head? = some 1 →
      exec (.readShelf r) s = .next (s.replied r ⟨.done, readShelfData r.delay s⟩)) ∧
    (r.params.head? = some 2 → exec (.readShelf r) s = .next (s.replied r ⟨.done, readMapData s⟩)) ∧
    (r.params.head? = some 3 → exec (.readShelf r) s = .next
      (({ s with freeReads := if s.block.history = [] then s.freeReads + 1 else s.freeReads } : State).replied r
        ⟨.done, readWindowData s⟩)) ∧
    exec (.readMonitor r) s = .next (s.replied r ⟨.done, readMonitorData s.bank⟩) := by
  refine ⟨fun z hp => readShelfOf_answers h ?_, fun hp => readShelfOf_answers h ?_, fun hp => readShelfOf_answers h ?_,
    fun hp => ?_, readShelfOf_answers h rfl⟩
  · rw [hp]
    show (match zoneNumber? (zoneByte z) with | none => _ | some z => _) = _
    rw [zoneNumber_zoneByte]
  · exact if_pos (partNumber_one hp)
  · have part : partNumber r.params = 2 := partNumber_of hp
    rw [part]
    rfl
  · have part : partNumber r.params = 3 := partNumber_of hp
    have free : s.drawFree = { s with freeReads := if s.block.history = [] then s.freeReads + 1 else s.freeReads } := by
      unfold State.drawFree
      split <;> rfl
    rw [← free]
    refine request_of_zones (b := readShelfBody r) (p := fun _ => _) h.toReceived ?_ fun z => ?_
    · rw [readShelfBody, readShelfOf_eq h, part]
      rfl
    · rw [free]
      cases z <;> rfl

/-- A READ_ZONE, field by field (Table 11-6). -/
theorem readZoneData_laid (v : Zone) : let l := readZoneData v; l.length = 35 ∧
    l.take 7 = bytes2 v.capA ++ bytes2 v.capB ++ [byte v.margin, byte v.current,
      byte ((if v.exposedFlag then 1 else 0) + (if v.healthA then 0 else 2) + (if v.healthB then 0 else 4) +
        16 * v.protection.code)] ∧
    (l.drop 7).take 10 = bytes2 v.ceff ++ bytes2 v.reserved ++ bytes2 v.inrush ++ bytes2 v.headroom ++ bytes2 v.deficit ∧
    (v.precharge = none → (l.drop 17).take 8 = [0xFF, 0, 0, 0, 0, 0, 0, 0]) ∧
    (∀ c, v.precharge = some c → (l.drop 17).take 8 = [byte (c.holder.val + 1), byte c.current] ++ bytes2 c.inrush ++
      bytes2 c.bulk ++ [byte c.limit, byte c.count]) ∧
    l[25]? = some (byte v.queue.length) ∧
    (∀ k, k < 8 → l[26 + k]? = some
      (match v.queue[k]? with | some e => byte (e.slot.val + 1 + 32 * e.priority.val) | none => 0)) ∧
    l[34]? = some (byte v.wait.code) := by
  have eight (p : Option Precharge) : ∃ a b c d e f g h, prechargeData p = [a, b, c, d, e, f, g, h] := by
    cases p <;> exact ⟨_, _, _, _, _, _, _, _, rfl⟩
  have flag (b : Bool) (k : Nat) : flagBit (!b) k = if b then 0 else 2 ^ k := by cases b <;> rfl
  intro l
  have hl : l = bytes2 v.capA ++ bytes2 v.capB ++ [byte v.margin, byte v.current] ++
    [byte (flagBit v.exposedFlag 0 + flagBit (!v.healthA) 1 + flagBit (!v.healthB) 2 + 16 * v.protection.code)] ++
    bytes2 v.ceff ++ bytes2 v.reserved ++ bytes2 v.inrush ++ bytes2 v.headroom ++ bytes2 v.deficit ++
    prechargeData v.precharge ++ [byte v.queue.length] ++ (List.range 8).map (fun k => queueByte v.queue[k]?) ++
    [byte v.wait.code] := rfl
  obtain ⟨a, b, c, d, e, f, g, h, hc⟩ := eight v.precharge
  have channel : (l.drop 17).take 8 = prechargeData v.precharge := by
    rw [hl, hc]
    rfl
  refine ⟨?_, ?_, ?_, fun hp => ?_, fun c hp => ?_, ?_, fun k hk => ?_, ?_⟩
  · rw [hl, hc]
    rfl
  · rw [hl, flag, flag]
    rfl
  · rfl
  · rw [channel, hp]
    rfl
  · rw [channel, hp]
    rfl
  · rw [hl, hc]
    rfl
  · have place : l[26 + k]? = some (queueByte v.queue[k]?) := by
      rw [hl, hc]
      interval_cases k <;> rfl
    rw [place]
    unfold queueByte slotNumber
    cases v.queue[k]? <;> rfl
  · rw [hl, hc]
    rfl

end Sys2Proof.Machine
end

section
/-! # READ_SHELF and READ_MONITOR, byte by byte (R100, R106, R138, R142) -/

namespace Sys2Proof.Machine

variable {s : State} {r : Request}

/-! ## READ_SHELF part 1 -/

theorem managerData_laid (v : Manager) : managerData v =
    [byte (v.state.code + (if v.bayStrap then 4 else 0) + (if v.pendingPhase = none then 0 else 8))] ++
      bytes2 (v.pendingPhase.getD 0) ++ bytes2 v.period ++
      match v.timer with | .running c _ => bytes2 c | .stopped => [0xFF, 0xFF] := by
  unfold managerData
  cases v.pendingPhase <;> cases v.timer <;> rfl

theorem managerData_length (v : Manager) : ∃ a b c d e f g, managerData v = [a, b, c, d, e, f, g] := by
  rw [managerData_laid]
  cases v.timer <;> exact ⟨_, _, _, _, _, _, _, rfl⟩

/-- A source is present at a read when a marker of it is no older than 32 frames then (R100). -/
theorem isPresent_advance (t : SourceTrack) (d : Nat) :
    (t.advance d).isPresent = t.markerAge.any fun a => decide (a + d ≤ 32 * 125) := by
  unfold SourceTrack.isPresent SourceTrack.advance
  cases t.markerAge <;> rfl

/-- Part 1 of a READ_SHELF, field by field (Table 11-6). -/
theorem readShelfData_laid (r : Request) (s : State) : let l := readShelfData r.delay s; let u := s.ref
    let here : Source → Nat → Nat := fun src n =>
      if (u.source src).markerAge.any fun a => decide (a + r.delay ≤ 32 * 125) then n else 0
    l.length = 29 ∧
    l.take 8 = [byte u.state.code, byte (Source.code u.preferred), optByte (u.selected.map Source.code),
      optByte (u.acquisition.map Source.code), byte u.acqCount, byte u.trial, byte u.holdover,
      byte (here .x 1 + here .y 2)] ∧
    (∀ m, let v := s.manager m
      (l.drop (match m with | .a => 8 | .b => 15)).take 7 =
        [byte (v.state.code + (if v.bayStrap then 4 else 0) + (if v.pendingPhase = none then 0 else 8))] ++
        bytes2 (v.pendingPhase.getD 0) ++ bytes2 v.period ++
        match v.timer with | .running c _ => bytes2 c | .stopped => [0xFF, 0xFF]) ∧
    l.drop 22 = bytes2 s.timers.declare ++ bytes2 s.timers.drain ++
      [byte s.timers.discharge, byte s.zone1.protection.code, byte s.zone2.protection.code] := by
  intro l u here
  have presence : presenceByte (u.advance r.delay) = byte (here .x 1 + here .y 2) := by
    show byte (flagBit (u.sourceX.advance r.delay).isPresent 0 + flagBit (u.sourceY.advance r.delay).isPresent 1) = _
    rw [isPresent_advance, isPresent_advance]
    rfl
  obtain ⟨a1, a2, a3, a4, a5, a6, a7, ha⟩ := managerData_length s.managerA
  obtain ⟨b1, b2, b3, b4, b5, b6, b7, hb⟩ := managerData_length s.managerB
  have hl : l = [byte u.state.code, byte (Source.code u.preferred), optByte (u.selected.map Source.code),
      optByte (u.acquisition.map Source.code), byte u.acqCount, byte u.trial, byte u.holdover,
      byte (here .x 1 + here .y 2)] ++ [a1, a2, a3, a4, a5, a6, a7] ++ [b1, b2, b3, b4, b5, b6, b7] ++ bytes2 s.timers.declare ++
      bytes2 s.timers.drain ++ [byte s.timers.discharge, byte s.zone1.protection.code, byte s.zone2.protection.code] := by
    show readShelfData r.delay s = _
    rw [readShelfData, presence, ha, hb]
  refine ⟨by rw [hl]; rfl, by rw [hl]; rfl, fun m => ?_, by rw [hl]; rfl⟩
  cases m with
  | a =>
    refine Eq.trans ?_ (managerData_laid s.managerA)
    rw [hl, ha]
    rfl
  | b =>
    refine Eq.trans ?_ (managerData_laid s.managerB)
    rw [hl, hb]
    rfl

/-! ## READ_SHELF part 2 -/

theorem readMapData_laid (s : State) : (readMapData s).length = 32 ∧ ∀ g : GroupId, (readMapData s)[g.val]? =
    some (match s.map[g.val] with | some i => byte (i.val + 1) | none => 0xFF) := by
  have owner (o : Option SlotId) : optByte (o.map fun i => i.val + 1) = match o with | some i => byte (i.val + 1) | none => 0xFF := by
    cases o <;> rfl
  refine ⟨by rw [readMapData, List.length_map, Vector.length_toList], fun g => ?_⟩
  rw [readMapData, List.getElem?_map, Vector.getElem?_toList, Vector.getElem?_eq_getElem g.isLt, Option.map_some, owner]

/-! ## READ_SHELF part 3 -/

/-- Part 3 of a READ_SHELF, field by field (Table 11-6). -/
theorem readWindowData_laid (s : State) : let l := readWindowData s; let b := s.block; l.length = 36 ∧
    l.take 3 = [byte b.window, byte b.threshold, byte b.tolerance] ∧
    (b.opened = none → (l.drop 3).take 12 = 0xFF :: List.replicate 11 0) ∧
    (∀ w, b.opened = some w → (l.drop 3).take 12 =
      [byte (w.holder.val + 1), byte w.kind.code, byte w.phase.code, byte (if w.undoPending then 1 else 0)] ++
        bytes2 w.age ++
        [byte w.window, byte w.threshold, byte w.tolerance, byte w.before, byte w.after, byte w.observed]) ∧
    l[15]? = some (optByte (b.lastVerdict.map Verdict.code)) ∧ l[16]? = some (byte b.list.length) ∧
    (∀ k, k < 16 → l[17 + k]? = some
      (match b.list[k]? with | some e => byte (e.slot.val + 1 + 32 * e.kind.code) | none => 0)) ∧
    l[33]? = some (byte b.history.length) ∧ (∀ h t, b.history = h :: t → l[34]? = some (byte h.errors)) ∧
    l[35]? = some (byte (b.disturbedMarks b.window)) := by
  intro l b
  have twelve (w : Option OpenWindow) : ∃ x1 x2 x3 x4 x5 x6 x7 x8 x9 x10 x11 x12,
      windowData w = [x1, x2, x3, x4, x5, x6, x7, x8, x9, x10, x11, x12] := by
    cases w <;> exact ⟨_, _, _, _, _, _, _, _, _, _, _, _, rfl⟩
  have hl : l = [byte b.window, byte b.threshold, byte b.tolerance] ++ windowData b.opened ++
      [optByte (b.lastVerdict.map Verdict.code), byte b.list.length] ++
      ((List.range 16).map fun k => changeByte b.list[k]?) ++
      [byte b.history.length, latestErrors s, byte (b.disturbedMarks b.window)] := rfl
  obtain ⟨x1, x2, x3, x4, x5, x6, x7, x8, x9, x10, x11, x12, hw⟩ := twelve b.opened
  have opened : (l.drop 3).take 12 = windowData b.opened := by
    rw [hl, hw]
    rfl
  have latest : l[34]? = some (latestErrors s) := by
    rw [hl, hw]
    rfl
  refine ⟨?_, ?_, fun ho => ?_, fun w ho => ?_, ?_, ?_, fun k hk => ?_, ?_, fun h t hh => ?_, ?_⟩
  · rw [hl, hw]
    rfl
  · rw [hl]
    rfl
  · rw [opened, ho]
    rfl
  · rw [opened, ho]
    rfl
  · rw [hl, hw]
    rfl
  · rw [hl, hw]
    rfl
  · have place : l[17 + k]? = some (changeByte b.list[k]?) := by
      rw [hl, hw]
      interval_cases k <;> rfl
    rw [place]
    unfold changeByte
    cases b.list[k]? <;> rfl
  · rw [hl, hw]
    rfl
  · have e : latestErrors s = byte h.errors := by
      unfold latestErrors
      rw [show s.block.history = h :: t from hh]
    rw [latest, e]
  · rw [hl, hw]
    rfl

/-! ## READ_MONITOR -/

theorem toList_four {α : Type} (v : Vector α 4) : v.toList = [v[0], v[1], v[2], v[3]] := by
  obtain ⟨⟨l⟩, hl⟩ := v
  match l, hl with
  | [_, _, _, _], _ => rfl

/-- A READ_MONITOR, field by field (Table 11-6). -/
theorem readMonitorData_laid (b : Bank) : let l := readMonitorData b; l.length = 21 ∧
    (∀ k : Fin 4, let c := b.counters[k.val]; (l.drop (5 * k.val)).take 5 = bytes3 c.value ++
      [byte (c.kind.index.val + 1 + 16 * c.mode.code + (if c.invert then 64 else 0) + (if c.overflow then 128 else 0)),
        byte c.threshold]) ∧
    l[20]? = some (byte ((if b.freezeOn then 1 else 0) + (if b.frozen then 2 else 0))) := by
  have hl : readMonitorData b = counterData b.counters[0] ++ counterData b.counters[1] ++ counterData b.counters[2] ++
      counterData b.counters[3] ++ [byte (flagBit b.freezeOn 0 + flagBit b.frozen 1)] := by
    rw [readMonitorData, toList_four]
    rfl
  dsimp only
  rw [hl]
  refine ⟨rfl, fun k => ?_, rfl⟩
  fin_cases k <;> rfl

/-- Settles O37. -/
theorem readsAnswerFromRecords : Obligations.ReadsAnswerFromRecords := by
  intro r s
  refine ⟨fun m i h ht hs => ?_, fun i h ht hs hp => ?_, ⟨fun n hn => bytes2_toNat hn, groupBytes_bit⟩, fun i => ?_,
    fun i => ?_, fun m h => shelf_reads h, readZoneData_laid, readShelfData_laid r s, readMapData_laid s,
    readWindowData_laid s, readMonitorData_laid s.bank⟩
  · exact readSlot_reads h (readSlot_byManager ht hs)
  · exact readSlot_reads h (readSlot_byBlade ht hs hp)
  · obtain ⟨h1, h2, h3, h4, h5, h6⟩ := readSlotData_laid s i
    exact ⟨h1, h2, h3, h4, h5, h6, readDeclarationData_laid _⟩
  · intro v held awaits on fast slow
    refine indicator_rows s i Iff.rfl ?_ ?_
    · rw [awaiting_iff, noActiveManager_iff]
    · show (s.slot i).state ∈ _ ↔ _
      simp

end Sys2Proof.Machine
end

section
/-! # SURVEY_CLASSIFICATION: each slot by the first row of Table 12-1 that applies, and the map rebuilt (R179, R180) -/

namespace Sys2Proof.Machine

variable {s t u v : State} {i j : SlotId} {r : Slot} {gs : GroupSet} {g : GroupId} {n : Nat} {l : List SlotId}

/-! ## What the classification of a slot leaves of the rest -/

/-- The part but for the slots, the accounts and queues of the zones, the map, the change list, the totals and the
survey. -/
structure SurveyKeeps (s t : State) : Prop where
  zone     : ∀ z, (t.zone z).quiet = (s.zone z).quiet
  timers   : t.timers = s.timers
  ref      : t.ref = s.ref
  block    : t.block.quiet = s.block.quiet
  opened   : t.block.opened = s.block.opened
  managers : ∀ m, t.manager m = s.manager m
  ports    : ∀ p, t.port p = s.port p
  pending  : t.pending = s.pending

theorem surveyKeeps_refl (s : State) : SurveyKeeps s s :=
  ⟨fun _ => rfl, rfl, rfl, rfl, rfl, fun _ => rfl, fun _ => rfl, rfl⟩

theorem SurveyKeeps.trans (h : SurveyKeeps s u) (k : SurveyKeeps u t) : SurveyKeeps s t :=
  ⟨fun z => (k.zone z).trans (h.zone z), k.timers.trans h.timers, k.ref.trans h.ref, k.block.trans h.block,
    k.opened.trans h.opened, fun m => (k.managers m).trans (h.managers m), fun p => (k.ports p).trans (h.ports p),
    k.pending.trans h.pending⟩

/-- The stages of a slot's classification. -/
def State.surveyGiven (i : SlotId) (s : State) : State :=
  (((s.vacate i (s.slot i).classification).groupsFor i (s.slot i).classification).modSlot i
    (Slot.classify s.timers (s.surveyMode i) (s.orphanDrive i))).claimSet i (s.orphanDrive i)

theorem classifySlot_eq (s : State) (i : SlotId) : s.classifySlot i =
    (((s.surveyGiven i).markFault i (s.surveyMarks i)).setReservation i (s.slot i).classification.surveyReservation).count
      .overcurrent (if (s.slot i).classification = .barred then 1 else 0) := rfl

theorem calm_surveyGiven (s : State) (i : SlotId) : Calm s (s.surveyGiven i) :=
  (((calm_vacate ..).trans (calm_groupsFor ..)).trans (calm_modSlot ..)).trans (calm_claimSet ..)

theorem groupsFor_block (u : State) (i : SlotId) (st : SlotState) : (u.groupsFor i st).block = u.block := by
  unfold State.groupsFor
  split
  · exact freeGroups_block ..
  · rfl

theorem groupsFor_bank (u : State) (i : SlotId) (st : SlotState) : (u.groupsFor i st).bank = u.bank := by
  unfold State.groupsFor
  split
  · exact freeGroups_bank ..
  · rfl

theorem vacate_classified (s : State) (i : SlotId) : s.vacate i (s.slot i).classification =
    ((s.leaveQueue i).freeChannel i).dropChange i := if_neg (classification_ne_draining _)

theorem surveyGiven_bank (s : State) (i : SlotId) : (s.surveyGiven i).bank = s.bank := by
  rw [State.surveyGiven, claimSet_bank, modSlot_bank, groupsFor_bank, vacate_classified, State.dropChange, modBlock_bank,
    State.freeChannel, State.leaveQueue, modZone_bank, modZone_bank]

theorem surveyGiven_opened (s : State) (i : SlotId) : (s.surveyGiven i).block.opened = s.block.opened := by
  rw [State.surveyGiven, claimSet_block, modSlot_block, groupsFor_block, vacate_classified, State.dropChange]
  show ((s.leaveQueue i).freeChannel i).block.opened = _
  rw [State.freeChannel, State.leaveQueue, modZone_block, modZone_block]

theorem classifySlot_keeps (s : State) (i : SlotId) : SurveyKeeps s (s.classifySlot i) := by
  have c := calm_surveyGiven s i
  have d := (calm_setReservation ((s.surveyGiven i).markFault i (s.surveyMarks i)) i
    (s.slot i).classification.surveyReservation).trans
    (calm_count _ .overcurrent (if (s.slot i).classification = .barred then 1 else 0))
  rw [← classifySlot_eq] at d
  refine ⟨fun z => ?_, d.timers.trans c.timers, d.ref.trans c.ref, d.block.trans c.block, ?_, classifySlot_managers s i, fun p => ?_,
    d.pending.trans c.pending⟩
  · cases z
    · exact d.zone1.trans c.zone1
    · exact d.zone2.trans c.zone2
  · rw [classifySlot_eq, count_block, State.setReservation, modSlot_block, modZone_block]
    exact surveyGiven_opened s i
  · cases p
    · exact d.portA.trans c.portA
    · exact d.portB.trans c.portB

/-- The survey's reservation of a slot, and its bar for an overcurrent, reported to the counter bank (R16, R63). -/
theorem classifySlot_total (s : State) (i : SlotId) : (s.classifySlot i).bank.total .overcurrent =
    s.bank.total .overcurrent + if (s.slot i).classification = .barred then 1 else 0 := by
  have e : (s.classifySlot i).bank =
      (s.count .overcurrent (if (s.slot i).classification = .barred then 1 else 0)).bank := by
    rw [classifySlot_eq]
    unfold State.count
    have b : (((s.surveyGiven i).markFault i (s.surveyMarks i)).setReservation i
        (s.slot i).classification.surveyReservation).bank = s.bank := by
      rw [State.setReservation, modSlot_bank, modZone_bank]
      exact surveyGiven_bank s i
    rw [b]
  rw [e, count_total_add, if_pos rfl]

/-! ## The slots that are classified before and after -/

/-- What the classification of the slots of a list leaves of slot `i`, which is not among them. -/
structure Skips (i : SlotId) (s t : State) : Prop where
  slot   : t.slot i = s.slot i
  held   : ∀ g : GroupId, t.map[g.val] = some i ↔ s.map[g.val] = some i
  marked : t.survey.faults.mem i = s.survey.faults.mem i

theorem Skips.trans (h : Skips i s u) (k : Skips i u t) : Skips i s t :=
  ⟨k.slot.trans h.slot, fun g => (k.held g).trans (h.held g), k.marked.trans h.marked⟩

/-- The marks that the survey sets, of which the classification of a slot sets its own. -/
theorem classifySlot_faults (s : State) (j : SlotId) (i : SlotId) : (s.classifySlot j).survey.faults.mem i = true ↔
    s.survey.faults.mem i = true ∨ (j = i ∧ s.surveyMarks j = true) := by
  have d := (calm_setReservation ((s.surveyGiven j).markFault j (s.surveyMarks j)) j
    (s.slot j).classification.surveyReservation).trans
    (calm_count _ .overcurrent (if (s.slot j).classification = .barred then 1 else 0))
  rw [← classifySlot_eq] at d
  have e : (s.classifySlot j).survey.faults =
      if s.surveyMarks j then s.survey.faults ||| slotBit j else s.survey.faults := by
    rw [d.survey, ← (calm_surveyGiven s j).survey]
    rfl
  rw [e]
  split
  · next h =>
    have bits : SlotSet.mem (s.survey.faults ||| slotBit j) i = (s.survey.faults.mem i || (slotBit j).mem i) :=
      BitVec.getLsbD_or
    rw [bits, slotBit_mem, Bool.or_eq_true, decide_eq_true_eq]
    simp [h]
  · next h => simp [h]

theorem skips_classifySlot (h : i ≠ j) (s : State) : Skips i s (s.classifySlot j) := by
  refine ⟨classifySlot_slot_ne s j i h, fun g => ?_, ?_⟩
  · rw [classifySlot_map]
    split
    · next hm =>
      rw [(orphanDrive_mem hm).2]
      exact ⟨fun e => absurd (Option.some.inj e).symm h, nofun⟩
    · split
      · next hm =>
        rw [hm.2]
        exact ⟨nofun, fun e => absurd (Option.some.inj e).symm h⟩
      · exact Iff.rfl
  · rw [Bool.eq_iff_iff, classifySlot_faults]
    exact or_iff_left fun e => h e.1.symm

/-- The classification of the slots of a list, in their order. -/
def State.classifyList (l : List SlotId) (s : State) : State := l.foldl (fun s i => s.classifySlot i) s

theorem skips_classifyList (h : i ∉ l) (s : State) : Skips i s (s.classifyList l) := by
  induction l generalizing s with
  | nil => exact ⟨rfl, fun _ => Iff.rfl, rfl⟩
  | cons j l ih =>
    rw [List.mem_cons, not_or] at h
    exact (skips_classifySlot h.1 s).trans (ih h.2 _)

theorem classifyList_keeps (l : List SlotId) (s : State) : SurveyKeeps s (s.classifyList l) := by
  induction l generalizing s with
  | nil => exact surveyKeeps_refl s
  | cons j l ih => exact (classifySlot_keeps s j).trans (ih _)

/-- The slots found BARRED are counted as overcurrents (R16). -/
theorem classifyList_total (l : List SlotId) (h : l.Nodup) (s : State) : (s.classifyList l).bank.total .overcurrent =
    s.bank.total .overcurrent + l.countP fun i => decide ((s.slot i).classification = .barred) := by
  induction l generalizing s with
  | nil => rfl
  | cons j l ih =>
    obtain ⟨hj, hl⟩ := List.nodup_cons.1 h
    have rest : (l.countP fun i => decide (((s.classifySlot j).slot i).classification = .barred)) =
        l.countP fun i => decide ((s.slot i).classification = .barred) :=
      List.countP_congr fun i hi => by
        rw [classifySlot_slot_ne s j i fun e => hj (e ▸ hi)]
    show ((s.classifySlot j).classifyList l).bank.total .overcurrent = _
    rw [ih hl, rest, classifySlot_total, List.countP_cons]
    simp only [decide_eq_true_eq]
    omega

/-- The classification takes each slot once: the slots before it, itself, and the slots after it. -/
structure Split (i : SlotId) (a b : List SlotId) : Prop where
  all    : allSlots = a ++ i :: b
  before : ∀ j, j ∈ a ↔ j < i
  after  : ∀ j, j ∈ b ↔ i < j

theorem split_at (i : SlotId) : ∃ a b, Split i a b := by
  obtain ⟨a, b, e⟩ := List.append_of_mem (List.mem_finRange i)
  have sorted := List.pairwise_lt_finRange 16
  rw [e, List.pairwise_append, List.pairwise_cons] at sorted
  obtain ⟨-, ⟨hb, -⟩, hab⟩ := sorted
  have ha (j : SlotId) (hj : j ∈ a) : j < i := hab j hj i (List.mem_cons_self ..)
  have some_side (j : SlotId) : j ∈ a ∨ j = i ∨ j ∈ b := by
    have k := List.mem_finRange j
    rwa [e, List.mem_append, List.mem_cons] at k
  refine ⟨a, b, e, fun j => ⟨ha j, fun h => ?_⟩, fun j => ⟨hb j, fun h => ?_⟩⟩
  · rcases some_side j with k | k | k
    · exact k
    · exact absurd h (by rw [k]; exact lt_irrefl i)
    · exact absurd (hb j k) (lt_asymm h)
  · rcases some_side j with k | k | k
    · exact absurd (ha j k) (lt_asymm h)
    · exact absurd h (by rw [k]; exact lt_irrefl i)
    · exact k

theorem classifyAll_split {a b : List SlotId} (h : Split i a b) (s : State) :
    s.classifyAll = (((s.classifyList a).classifySlot i).classifyList b).markClassified := by
  unfold State.classifyAll
  rw [h.all, List.foldl_append, List.foldl_cons]
  rfl

/-- Slot `i` just before its own classification, and what follows of it. -/
structure Turn (i : SlotId) (s u t : State) : Prop where
  before : Skips i s u
  after  : Skips i (u.classifySlot i) t
  keeps  : SurveyKeeps s u
  lower  : ∀ j, j < i → ∀ g : GroupId, t.map[g.val] = some j ↔ u.map[g.val] = some j
  higher : ∀ j, i ≤ j → ∀ g : GroupId, u.map[g.val] = some j ↔ s.map[g.val] = some j

theorem turn_of (s : State) (i : SlotId) : ∃ u, Turn i s u s.classifyAll := by
  obtain ⟨a, b, h⟩ := split_at i
  have e := classifyAll_split h s
  refine ⟨s.classifyList a, ?_, ?_, classifyList_keeps .., fun j hj g => ?_, fun j hj g => ?_⟩
  · exact skips_classifyList (fun k => lt_irrefl i ((h.before i).1 k)) s
  · rw [e]
    have k := skips_classifyList (fun k => lt_irrefl i ((h.after i).1 k)) ((s.classifyList a).classifySlot i)
    exact ⟨k.slot, k.held, k.marked⟩
  · rw [e]
    have k1 := skips_classifySlot (ne_of_lt hj) (s.classifyList a)
    have k2 := skips_classifyList (l := b) (fun k => lt_asymm hj ((h.after j).1 k)) ((s.classifyList a).classifySlot i)
    exact (k1.trans k2).held g
  · exact (skips_classifyList (fun k => absurd ((h.before j).1 k) (not_lt.2 hj)) s).held g

/-! ## The record of a slot that has been classified -/

theorem classified_slot (s : State) (i : SlotId) : (s.classifySlot i).slot i =
    { (s.slot i).classify s.timers (s.surveyMode i) (s.orphanDrive i) with
      reservation := (s.slot i).classification.surveyReservation } := by
  rw [classifySlot_slot_self]
  have v : (s.slot i).vacated (s.slot i).classification = s.slot i := if_neg (classification_ne_draining _)
  rw [v, Slot.groupsFor]
  split <;> rfl

end Sys2Proof.Machine
end

section
/-! # SURVEY_CLASSIFICATION: the records, the marks and the rebuilt map (R179, R180) -/

namespace Sys2Proof.Machine

variable {s t u v : State} {i j : SlotId} {r : Slot} {gs : GroupSet} {g : GroupId} {n : Nat}

/-! ## Table 12-1 -/

/-- The first rows of Table 12-1: a slot without power. -/
theorem classification_unpowered (h : r.latch.power = .off ∨ r.lines.accepted.presence ≠ .full) :
    r.classification = r.lines.accepted.surveyState := if_pos h

/-- The last rows of Table 12-1: a slot with power. -/
theorem classification_powered (hp : r.latch.power ≠ .off) (hf : r.lines.accepted.presence = .full) : r.classification =
    if r.lines.reportOc then .barred else if r.lines.accepted.pg then .orphaned else r.lines.accepted.surveyState :=
  if_neg (not_or.2 ⟨hp, not_not.2 hf⟩)

theorem surveyState_full {l : Levels} (h : l.presence = .full) :
    l.surveyState = if l.handleClosed then .present else .seating := by
  unfold Levels.surveyState
  rw [h]
  simp

/-! ## The lane finding and the drive set that an orphan keeps -/

theorem finding_drive (l : LaneRecord) : l.finding.2 = if l.sensedMode = .joined then l.sensedDrive else 0 := by
  unfold LaneRecord.finding
  cases l.sensedMode with
  | openMode => rfl
  | biased => rfl
  | listen => rfl
  | joined =>
    dsimp only
    split
    · next h => exact h.symm
    · rfl

theorem empty_mem (g : GroupId) : GroupSet.mem 0 g = false := BitVec.getLsbD_zero

theorem groupSet_ext {a b : GroupSet} (h : ∀ g, a.mem g = b.mem g) : a = b :=
  BitVec.eq_of_getLsbD_eq fun k hk => h ⟨k, hk⟩

theorem freeOf_mem (s : State) (gs : GroupSet) (g : GroupId) :
    (s.freeOf gs).mem g = true ↔ gs.mem g = true ∧ s.map[g.val] = none := by
  rw [State.freeOf, GroupSet.mem, BitVec.getLsbD_ofFnLE, dif_pos g.isLt, Bool.and_eq_true, decide_eq_true_iff]

theorem lowestGroups_mem (n : Nat) (gs : GroupSet) (g : GroupId) : (lowestGroups n gs).mem g = true ↔
    gs.mem g = true ∧ (List.finRange 32).countP (fun h => decide (h < g) && gs.mem h) < n := by
  rw [lowestGroups, GroupSet.mem, BitVec.getLsbD_ofFnLE, dif_pos g.isLt, Bool.and_eq_true, decide_eq_true_iff]

theorem orphanDrive_mem_iff (s : State) (i : SlotId) (g : GroupId) : (s.orphanDrive i).mem g = true ↔
    (s.slot i).classification = .orphaned ∧ (lowestGroups 8 (s.slot i).lane.finding.2).mem g = true ∧
      s.map[g.val] = none := by
  unfold State.orphanDrive
  split
  · next h => rw [freeOf_mem, and_iff_right h]
  · next h => exact ⟨fun k => absurd k (by rw [empty_mem]; decide), fun k => absurd k.1 h⟩

/-- A slot that drives nothing keeps nothing. -/
theorem orphanDrive_none (h : (s.slot i).lane.finding.2 = 0) : s.orphanDrive i = 0 := by
  refine groupSet_ext fun g => ?_
  rw [empty_mem, Bool.eq_false_iff]
  intro k
  have low := ((orphanDrive_mem_iff s i g).1 k).2.1
  rw [h, lowestGroups_mem, empty_mem] at low
  exact absurd low.1 (by decide)

theorem orphanDrive_other (h : (s.slot i).classification ≠ .orphaned) : s.orphanDrive i = 0 := if_neg h

/-- The mode an orphan is commanded to (R180). -/
theorem surveyMode_orphan (h : (s.slot i).classification = .orphaned) : s.surveyMode i =
    match (s.slot i).lane.sensedMode with
    | .openMode => .openMode
    | .biased => .openMode
    | .listen => .listen
    | .joined => if s.orphanDrive i = 0 then .listen else .joined := by
  have e : s.surveyMode i =
      if (s.slot i).lane.finding.1 = .joined ∧ s.orphanDrive i = 0 then .listen else (s.slot i).lane.finding.1 :=
    if_neg (not_not.2 h)
  have k : (s.slot i).lane.sensedDrive = 0 → s.orphanDrive i = 0 := fun hd => orphanDrive_none (by
    rw [finding_drive]
    split
    · exact hd
    · rfl)
  rw [e]
  unfold LaneRecord.finding
  cases (s.slot i).lane.sensedMode with
  | openMode => rfl
  | biased => rfl
  | listen => rfl
  | joined =>
    dsimp only
    by_cases hd : (s.slot i).lane.sensedDrive = 0
    · rw [if_pos hd, k hd]
      rfl
    · rw [if_neg hd]
      by_cases hz : s.orphanDrive i = 0
      · rw [if_pos ⟨rfl, hz⟩, if_pos hz]
      · rw [if_neg fun e => hz e.2, if_neg hz]

theorem surveyMode_other (h : (s.slot i).classification ≠ .orphaned) : s.surveyMode i = .openMode := if_pos h

/-- The slots marked for a FAULT notice (R179, R180). -/
theorem surveyMarks_iff (s : State) (i : SlotId) : s.surveyMarks i = true ↔
    ((s.slot i).classification ≠ .orphaned ∧ ((s.slot i).latch.power ≠ .off ∨ (s.slot i).lane.sensedDrive ≠ 0)) ∨
    ((s.slot i).classification = .orphaned ∧ (s.slot i).lane.sensedMode = .joined ∧
      s.orphanDrive i ≠ (s.slot i).lane.sensedDrive) := by
  unfold State.surveyMarks
  dsimp only
  split
  · next h =>
    rw [decide_eq_true_iff, finding_drive]
    by_cases hj : (s.slot i).lane.sensedMode = .joined
    · simp [h, hj]
    · rw [if_neg hj]
      refine ⟨fun k => absurd (orphanDrive_none ?_) k, fun k => ?_⟩
      · rw [finding_drive, if_neg hj]
      · rcases k with k | k
        · exact absurd h k.1
        · exact absurd k.2.1 hj
  · next h =>
    rw [Bool.or_eq_true, Slot.surveyCuts, Bool.and_eq_true]
    simp [h]

/-! ## The part as the survey leaves it -/

theorem exec_surveyClassification (h : s.survey.running = true) (ht : s.survey.ticks = 2)
    (hc : s.survey.classified = false) (hl : s.laneDue = false) :
    exec .surveyClassification s = .next s.classifyAll := if_pos ⟨h, ht, hc, hl⟩

/-- Slot `i` as the classification leaves it, from the part just before its turn. -/
theorem Turn.record (h : Turn i s u t) : t.slot i =
    { (s.slot i).classify s.timers (u.surveyMode i) (u.orphanDrive i) with
      reservation := (s.slot i).classification.surveyReservation } := by
  rw [h.after.slot, classified_slot, h.before.slot, h.keeps.timers]

theorem Turn.faults (h : Turn i s u t) :
    t.survey.faults.mem i = true ↔ s.survey.faults.mem i = true ∨ u.surveyMarks i = true := by
  rw [h.after.marked, classifySlot_faults, h.before.marked]
  simp

theorem classifyAll_state (s : State) (i : SlotId) : (s.classifyAll.slot i).state = (s.slot i).classification := by
  obtain ⟨u, h⟩ := turn_of s i
  rw [h.record]
  rfl

theorem classifyAll_total (s : State) : s.classifyAll.bank.total .overcurrent = s.bank.total .overcurrent +
    allSlots.countP fun i => decide ((s.classifyAll.slot i).state = .barred) := by
  have e := classifyList_total allSlots (List.nodup_finRange 16) s
  have k : (fun i => decide ((s.classifyAll.slot i).state = .barred)) =
      fun i => decide ((s.slot i).classification = .barred) := funext fun i => by rw [classifyAll_state]
  rw [k]
  exact e

theorem markClassified_keeps (s : State) : SurveyKeeps s s.markClassified :=
  ⟨fun z => congrArg Zone.quiet (markClassified_zone s z), rfl, rfl, rfl, rfl, fun m => by cases m <;> rfl,
    fun p => by cases p <;> rfl, rfl⟩

theorem classifyAll_keeps (s : State) : SurveyKeeps s s.classifyAll :=
  (classifyList_keeps allSlots s).trans (markClassified_keeps _)

/-- Settles O5. -/
theorem surveyClassifiesSlots : Obligations.SurveyClassifiesSlots := by
  intro s hr ht hc hl
  obtain ⟨zone, timers, ref, block, opened, managers, ports, pending⟩ := classifyAll_keeps s
  refine ⟨_, exec_surveyClassification hr ht hc hl, rfl, fun i => ?_, classifyAll_total s, zone, timers, ref, block, opened,
    managers .a, managers .b, ports .a, ports .b, pending⟩
  obtain ⟨u, h⟩ := turn_of s i
  have marks := h.faults
  have joined := fun ho => surveyMode_orphan (s := u) (i := i) ho
  have other := fun ho => surveyMode_other (s := u) (i := i) ho
  have none := fun ho => orphanDrive_other (s := u) (i := i) ho
  rw [surveyMarks_iff] at marks
  rw [h.before.slot] at marks joined other none
  dsimp only
  rw [marks, h.record]
  refine ⟨fun k => classification_unpowered k, fun hp hf => ⟨fun ho => ?_, fun ho hg => ?_, fun ho hg => ?_⟩,
    rfl, rfl, rfl, rfl, rfl, rfl, fun ho => ⟨other ho, none ho⟩, fun ho => joined ho, rfl, rfl, rfl, rfl, rfl, rfl, rfl,
    rfl, rfl, rfl, rfl, Iff.rfl⟩
  · exact (classification_powered hp hf).trans (if_pos ho)
  · refine (classification_powered hp hf).trans ?_
    rw [ho, hg]
    exact surveyState_full hf
  · refine (classification_powered hp hf).trans ?_
    rw [ho, hg]
    rfl

/-! ## The map (R180) -/

/-- A slot's offer of a group: it is an orphan found JOINED with the group among the 8 lowest-numbered it drives. -/
def Slot.Offers (r : Slot) (g : GroupId) : Prop :=
  r.classification = .orphaned ∧ r.lane.sensedMode = .joined ∧ r.lane.sensedDrive.mem g = true ∧
    (List.finRange 32).countP (fun h => decide (h < g) && r.lane.sensedDrive.mem h) < 8

theorem orphanDrive_offers (s : State) (i : SlotId) (g : GroupId) :
    (s.orphanDrive i).mem g = true ↔ (s.slot i).Offers g ∧ s.map[g.val] = none := by
  rw [orphanDrive_mem_iff, lowestGroups_mem, finding_drive]
  unfold Slot.Offers
  by_cases hj : (s.slot i).lane.sensedMode = .joined
  · rw [if_pos hj, and_iff_right hj]
    exact and_assoc.symm
  · rw [if_neg hj, empty_mem]
    simp [hj]

/-- Just before a slot's turn a group that was free at first is owned by a lower-numbered slot, or free still. -/
theorem Turn.unowned (h : Turn i s u t) (hm : s.map[g.val] = none) :
    u.map[g.val] = none ↔ ∀ j, j < i → t.map[g.val] ≠ some j := by
  constructor
  · intro k j hj e
    rw [h.lower j hj, k] at e
    exact absurd e nofun
  · intro k
    cases hu : u.map[g.val] with
    | none => rfl
    | some j =>
      by_cases hj : j < i
      · exact absurd ((h.lower j hj g).2 hu) (k j hj)
      · have e := (h.higher j (not_lt.1 hj) g).1 hu
        rw [hm] at e
        exact absurd e nofun

theorem Turn.owner (h : Turn i s u t) (hm : s.map[g.val] = none) :
    t.map[g.val] = some i ↔ (u.orphanDrive i).mem g = true := by
  have free : u.map[g.val] ≠ some i := fun e => by
    have k := (h.higher i le_rfl g).1 e
    rw [hm] at k
    exact absurd k nofun
  rw [h.after.held, classifySlot_map]
  by_cases hd : (u.orphanDrive i).mem g = true
  · simp [hd]
  · rw [if_neg hd]
    refine iff_of_false ?_ hd
    split
    · exact nofun
    · exact free

/-- A group belongs to a slot that offers it when no lower-numbered slot has it. -/
theorem classifyAll_owner (s : State) (hm : s.map[g.val] = none) (i : SlotId) : s.classifyAll.map[g.val] = some i ↔
    (s.slot i).Offers g ∧ ∀ j, j < i → s.classifyAll.map[g.val] ≠ some j := by
  obtain ⟨u, h⟩ := turn_of s i
  rw [h.owner hm, orphanDrive_offers, h.before.slot, h.unowned hm]

/-- A group belongs to the lowest-numbered of the slots that offer it. -/
theorem classifyAll_lowest (s : State) (hm : s.map[g.val] = none) (i : SlotId) : s.classifyAll.map[g.val] = some i ↔
    (s.slot i).Offers g ∧ ∀ j, j < i → ¬ (s.slot j).Offers g := by
  rw [classifyAll_owner s hm]
  refine and_congr_right fun _ => ⟨fun h j hj ho => ?_, fun h j hj e => ?_⟩
  · exact h j hj ((classifyAll_owner s hm j).2 ⟨ho, fun k hk => h k (hk.trans hj)⟩)
  · exact h j hj ((classifyAll_owner s hm j).1 e).1

theorem classifyAll_transmit (s : State) (hm : ∀ g : GroupId, s.map[g.val] = none) (i : SlotId) :
    (s.classifyAll.slot i).lane.transmit = s.classifyAll.heldGroups i := by
  obtain ⟨u, h⟩ := turn_of s i
  have e : (s.classifyAll.slot i).lane.transmit = u.orphanDrive i := by
    rw [h.record]
    rfl
  rw [e]
  refine groupSet_ext fun g => ?_
  rw [heldGroups_mem, Bool.eq_iff_iff, decide_eq_true_iff]
  exact (h.owner (hm g)).symm

/-- Settles O6. -/
theorem surveyRebuildsMap : Obligations.SurveyRebuildsMap := by
  intro s hr ht hc hl hm
  refine ⟨_, exec_surveyClassification hr ht hc hl, ?_⟩
  dsimp only
  simp only [classifyAll_state]
  exact ⟨fun g i => classifyAll_lowest s (hm g) i, classifyAll_transmit s hm⟩

end Sys2Proof.Machine
end

section
/-! # SURVEY_DONE: the end of the survey (R44, R77, R178, R180) -/

namespace Sys2Proof.Machine

variable {s t u v : State} {i j : SlotId} {z : ZoneId} {p : Port} {m : ManagerId} {l : List SlotId}

/-! ## The steps of a survey tick that were left -/

theorem takeFeeds_unchanged {v : Zone} (h : v.feedChanged = false) : v.takeFeeds = v := by
  have k := mt feedChanged_iff.2 (Bool.eq_false_iff.1 h)
  rw [not_or, not_not, not_not] at k
  unfold Zone.takeFeeds
  rw [k.1, k.2]

/-- A feed change of the survey sets the healths, and holds its notice back (R178). -/
theorem takeFeed_survey (h : s.survey.running = true) (z : ZoneId) : s.takeFeed z =
    { s.modZone z Zone.takeFeeds with
      survey := { s.survey with heldFeed := s.survey.heldFeed || (s.zone z).feedChanged } } := by
  unfold State.takeFeed
  split
  · next hc =>
    refine (if_pos (by rw [modZone_survey]; exact h)).trans ?_
    rw [modZone_survey, hc, Bool.or_true]
  · next hc =>
    have hf := Bool.eq_false_iff.2 hc
    have k := takeFeeds_unchanged hf
    rw [hf, Bool.or_false]
    cases z
    · exact congrArg (fun v => { s with zone1 := v }) k.symm
    · exact congrArg (fun v => { s with zone2 := v }) k.symm

theorem count_none (s : State) (k : EventKind) : s.count k 0 = s := by
  have e : s.bank.totals.set k.index.val (s.bank.total k + 0) = s.bank.totals := Vector.set_getElem_self _
  unfold State.count
  rw [e]

/-- The reset of a port's stuck line, where it has one. -/
def BusPort.freed (v : BusPort) : BusPort := if v.stuck then v.unstick else v

/-- A stuck line of the survey is reset and counted, and its notice is held back (R172, R178). -/
theorem takeStuck_survey (h : s.survey.running = true) (p : Port) : s.takeStuck p =
    { (s.modPort p BusPort.freed).count (busErrorKind p) (if (s.port p).stuck then 1 else 0) with
      survey := { s.survey with heldBus := s.survey.heldBus || (s.port p).stuck } } := by
  unfold State.takeStuck
  split
  · next hs =>
    have e : s.modPort p BusPort.freed = s.modPort p BusPort.unstick := by
      have k : (s.port p).freed = (s.port p).unstick := if_pos hs
      cases p
      · exact congrArg (fun v => { s with portA := v }) k
      · exact congrArg (fun v => { s with portB := v }) k
    unfold State.postBus
    rw [e, if_pos (by rw [count_survey, modPort_survey]; exact h), count_survey, modPort_survey, hs, Bool.or_true]
  · next hs =>
    have k : (s.port p).freed = s.port p := if_neg hs
    rw [modPort_self s p _ k, count_none, Bool.eq_false_iff.2 hs, Bool.or_false]

theorem freed_idle {v : BusPort} (h : v.stuck = true) :
    v.freed.stuck = false ∧ v.freed.state = .idle ∧ v.freed.reply = [] := by
  have line (l : BusLine) : l.report.stuck = false := by
    unfold BusLine.report BusLine.stuck
    cases l.reported <;> simp
  rw [show v.freed = v.unstick from if_pos h]
  refine ⟨?_, rfl, rfl⟩
  show (v.clock.report.stuck || v.data.report.stuck) = false
  rw [line, line]
  rfl

/-- What the steps left of a survey tick do of the part. -/
structure SurveyTick (s t : State) : Prop where
  slot     : ∀ i, t.slot i = s.slot i
  zone     : ∀ z, t.zone z = (s.zone z).takeFeeds
  manager  : ∀ m, t.manager m = s.manager m
  port     : ∀ p, t.port p = (s.port p).freed
  total    : ∀ k, t.bank.total k = s.bank.total k + (if k = .busErrorA ∧ s.portA.stuck = true then 1 else 0) +
    (if k = .busErrorB ∧ s.portB.stuck = true then 1 else 0)
  bank     : t.bank.quiet = s.bank.quiet
  map      : t.map = s.map
  ref      : t.ref = s.ref
  block    : t.block = s.block
  timers   : t.timers = s.timers
  pending  : t.pending = s.pending
  faults   : t.survey.faults = s.survey.faults
  heldFeed : t.survey.heldFeed = true ↔ s.survey.heldFeed = true ∨ ∃ z, (s.zone z).feedChanged = true
  heldBus  : t.survey.heldBus = true ↔ s.survey.heldBus = true ∨ ∃ p, (s.port p).stuck = true

theorem surveyTick_eq (h : s.survey.running = true) : s.takeSurveyTick =
    { ((({ s with zone1 := s.zone1.takeFeeds, zone2 := s.zone2.takeFeeds, portA := s.portA.freed,
                  portB := s.portB.freed } : State).count .busErrorA (if s.portA.stuck then 1 else 0)).count .busErrorB
        (if s.portB.stuck then 1 else 0)) with
      survey := { s.survey with
        heldFeed := s.survey.heldFeed || s.zone1.feedChanged || s.zone2.feedChanged
        heldBus := s.survey.heldBus || s.portA.stuck || s.portB.stuck } } := by
  unfold State.takeSurveyTick
  generalize e1 : s.takeFeed .one = u1
  rw [takeFeed_survey h] at e1
  generalize e2 : u1.takeFeed .two = u2
  rw [takeFeed_survey (by rw [← e1]; exact h)] at e2
  generalize e3 : u2.takeStuck .a = u3
  rw [takeStuck_survey (by rw [← e2, ← e1]; exact h)] at e3
  rw [takeStuck_survey (by rw [← e3, ← e2, ← e1]; exact h), ← e3, ← e2, ← e1]
  rfl

theorem surveyTick (h : s.survey.running = true) : SurveyTick s s.takeSurveyTick := by
  rw [surveyTick_eq h]
  constructor
  case slot => exact fun i => rfl
  case zone => exact fun z => by cases z <;> rfl
  case manager => exact fun m => by cases m <;> rfl
  case port => exact fun p => by cases p <;> rfl
  case total =>
    intro k
    refine (count_total_add ..).trans ?_
    rw [count_total_add, ite_and, ite_and]
  case heldFeed =>
    rw [Bool.or_eq_true, Bool.or_eq_true, or_assoc]
    exact or_congr_right ⟨fun e => e.elim (fun e => ⟨.one, e⟩) fun e => ⟨.two, e⟩, fun ⟨z, e⟩ => by
      cases z
      · exact .inl e
      · exact .inr e⟩
  case heldBus =>
    rw [Bool.or_eq_true, Bool.or_eq_true, or_assoc]
    exact or_congr_right ⟨fun e => e.elim (fun e => ⟨.a, e⟩) fun e => ⟨.b, e⟩, fun ⟨p, e⟩ => by
      cases p
      · exact .inl e
      · exact .inr e⟩
  all_goals rfl

/-! ## The notices of the end of the survey -/

/-- The part with notices posted. -/
structure OnlyPosts (s t : State) : Prop where
  rest  : t = { s with managerA := t.managerA, managerB := t.managerB }
  quiet : ∀ m, (t.manager m).quiet = (s.manager m).quiet

theorem onlyPosts_refl (s : State) : OnlyPosts s s := ⟨rfl, fun _ => rfl⟩

theorem OnlyPosts.trans (h : OnlyPosts s u) (k : OnlyPosts u t) : OnlyPosts s t :=
  ⟨k.rest.trans (by rw [h.rest]), fun m => (k.quiet m).trans (h.quiet m)⟩

theorem onlyPosts_shelf (s : State) (k : ShelfNotice) : OnlyPosts s (s.postShelf k) :=
  ⟨rfl, fun m => by rw [postShelf_manager]; rfl⟩

theorem onlyPosts_slot (s : State) (k : SlotNotice) (i : SlotId) : OnlyPosts s (s.postSlot k i) :=
  ⟨rfl, fun m => by rw [postSlot_manager]; rfl⟩

/-- The FAULT notices of the marked slots of a list (R180). -/
def State.postFaults (marked : SlotSet) (l : List SlotId) (s : State) : State :=
  l.foldl (fun s i => if marked.mem i then s.postSlot .fault i else s) s

theorem onlyPosts_faults (marked : SlotSet) (l : List SlotId) (s : State) : OnlyPosts s (s.postFaults marked l) := by
  induction l generalizing s with
  | nil => exact onlyPosts_refl s
  | cons i l ih =>
    refine OnlyPosts.trans (u := if marked.mem i then s.postSlot .fault i else s) ?_ (ih _)
    split
    · exact onlyPosts_slot ..
    · exact onlyPosts_refl s

theorem postFaults_slotNotice (marked : SlotSet) (l : List SlotId) (s : State) (m : ManagerId) (k : SlotNotice) (i : SlotId) :
    (s.postFaults marked l).hasSlotNotice m k i ↔ s.hasSlotNotice m k i ∨ (k = .fault ∧ i ∈ l ∧ marked.mem i = true) := by
  induction l generalizing s with
  | nil => simp [State.postFaults]
  | cons j l ih =>
    have step : (if marked.mem j then s.postSlot .fault j else s).hasSlotNotice m k i ↔
        s.hasSlotNotice m k i ∨ (k = .fault ∧ i = j ∧ marked.mem i = true) := by
      split
      · next h =>
        rw [postSlot_hasSlotNotice]
        refine or_congr_right (and_congr_right fun _ => ⟨fun e => ⟨e, e ▸ h⟩, fun e => e.1⟩)
      · next h => exact (or_iff_left fun (e : k = .fault ∧ i = j ∧ marked.mem i = true) => h (e.2.1 ▸ e.2.2)).symm
    refine (ih _).trans ((or_congr_left step).trans ?_)
    rw [List.mem_cons]
    tauto

theorem postFaults_shelfNotice (marked : SlotSet) (l : List SlotId) (s : State) (m : ManagerId) (k : ShelfNotice) :
    (s.postFaults marked l).hasShelfNotice m k ↔ s.hasShelfNotice m k := by
  induction l generalizing s with
  | nil => exact Iff.rfl
  | cons j l ih =>
    have step : (if marked.mem j then s.postSlot .fault j else s).hasShelfNotice m k ↔ s.hasShelfNotice m k := by
      split
      · exact postSlot_hasShelfNotice ..
      · exact Iff.rfl
    exact (ih _).trans step

/-- A shelf notice that is posted under a condition. -/
def State.postIf (b : Bool) (k : ShelfNotice) (s : State) : State := if b then s.postShelf k else s

theorem onlyPosts_if (b : Bool) (k : ShelfNotice) (s : State) : OnlyPosts s (s.postIf b k) := by
  cases b
  · exact onlyPosts_refl s
  · exact onlyPosts_shelf s k

theorem postIf_slotNotice (b : Bool) (k : ShelfNotice) (s : State) (m : ManagerId) (n : SlotNotice) (i : SlotId) :
    (s.postIf b k).hasSlotNotice m n i ↔ s.hasSlotNotice m n i := by
  cases b
  · exact Iff.rfl
  · exact postShelf_hasSlotNotice ..

theorem postIf_shelfNotice (b : Bool) (k : ShelfNotice) (s : State) (m : ManagerId) (n : ShelfNotice) :
    (s.postIf b k).hasShelfNotice m n ↔ s.hasShelfNotice m n ∨ (n = k ∧ b = true) := by
  cases b
  · exact (or_iff_left fun e => absurd e.2 (by decide)).symm
  · refine (postShelf_hasShelfNotice ..).trans (or_congr_right (and_iff_left rfl).symm)

theorem postSurvey_eq (s : State) : s.postSurvey = (((s.postShelf .surveyDone).postFaults s.survey.faults allSlots).postIf
    (s.survey.heldFeed || s.zone1.overcommitted || s.zone2.overcommitted) .feed).postIf s.survey.heldBus .bus := rfl

theorem onlyPosts_survey (s : State) : OnlyPosts s s.postSurvey := by
  rw [postSurvey_eq]
  exact ((((onlyPosts_shelf s .surveyDone).trans (onlyPosts_faults ..)).trans (onlyPosts_if ..)).trans (onlyPosts_if ..))

theorem postSurvey_slotNotice (s : State) (m : ManagerId) (k : SlotNotice) (i : SlotId) :
    s.postSurvey.hasSlotNotice m k i ↔ s.hasSlotNotice m k i ∨ (k = .fault ∧ s.survey.faults.mem i = true) := by
  rw [postSurvey_eq, postIf_slotNotice, postIf_slotNotice, postFaults_slotNotice, postShelf_hasSlotNotice,
    and_iff_right (show i ∈ allSlots from List.mem_finRange i)]

theorem postSurvey_shelfNotice (s : State) (m : ManagerId) (k : ShelfNotice) : s.postSurvey.hasShelfNotice m k ↔
    s.hasShelfNotice m k ∨ k = .surveyDone ∨
      (k = .feed ∧ (s.survey.heldFeed = true ∨ ∃ z, (s.zone z).overcommitted = true)) ∨
      (k = .bus ∧ s.survey.heldBus = true) := by
  have zones : (∃ z, (s.zone z).overcommitted = true) ↔ s.zone1.overcommitted = true ∨ s.zone2.overcommitted = true :=
    ⟨fun ⟨z, e⟩ => by
      cases z
      · exact .inl e
      · exact .inr e, fun e => e.elim (fun e => ⟨.one, e⟩) fun e => ⟨.two, e⟩⟩
  rw [postSurvey_eq, postIf_shelfNotice, postIf_shelfNotice, postFaults_shelfNotice, postShelf_hasShelfNotice,
    Bool.or_eq_true, Bool.or_eq_true, zones]
  tauto

/-! ## The slots, managers and zones at the end of the survey -/

/-- The end of the survey, from the part that has taken the steps left of its tick. -/
structure SurveyEnds (s t : State) : Prop where
  running : t.survey.running = false
  closing : t.survey.closing = true
  slot    : ∀ i, t.slot i = (s.slot i).endSurvey s.timers
  manager : ∀ m, (t.manager m).quiet = (s.manager m).setFromStrap.quiet
  slots   : ∀ m k i, t.hasSlotNotice m k i ↔ s.hasSlotNotice m k i ∨ (k = .fault ∧ s.survey.faults.mem i = true)
  shelf   : ∀ m k, t.hasShelfNotice m k ↔ s.hasShelfNotice m k ∨ k = .surveyDone ∨
    (k = .feed ∧ (s.survey.heldFeed = true ∨ ∃ z, (s.zone z).overcommitted = true)) ∨
    (k = .bus ∧ s.survey.heldBus = true)
  zone    : ∀ z, t.zone z = { s.zone z with
    darkAtSurveyEnd := (s.zone z).protection = .dark && (slotsOf z).any fun i => (s.slot i).state = .orphaned }
  port    : ∀ p, t.port p = s.port p
  bank    : t.bank = s.bank
  map     : t.map = s.map
  ref     : t.ref = s.ref
  block   : t.block = s.block
  timers  : t.timers = s.timers
  pending : t.pending = s.pending

theorem surveyEnd_hasSlotNotice (s : State) (m : ManagerId) (k : SlotNotice) (i : SlotId) :
    s.surveyEnd.hasSlotNotice m k i ↔ s.hasSlotNotice m k i := by cases m <;> rfl

theorem surveyEnd_hasShelfNotice (s : State) (m : ManagerId) (k : ShelfNotice) :
    s.surveyEnd.hasShelfNotice m k ↔ s.hasShelfNotice m k := by cases m <;> rfl

/-- The zones are marked from their protection and the slots classified. -/
theorem markDarks_zone (s : State) (z : ZoneId) : ((s.markDark .one).markDark .two).zone z = { s.zone z with
    darkAtSurveyEnd := (s.zone z).protection = .dark && (slotsOf z).any fun i => (s.slot i).state = .orphaned } := by
  cases z <;> rfl

theorem surveyEnds (s : State) :
    SurveyEnds s ((s.surveyEnd.postSurvey.markDark .one).markDark .two).stopSurvey := by
  obtain ⟨rest, quiet⟩ := onlyPosts_survey s.surveyEnd
  have slots := postSurvey_slotNotice s.surveyEnd
  have shelf := postSurvey_shelfNotice s.surveyEnd
  generalize s.surveyEnd.postSurvey = v at *
  have slot (i : SlotId) : v.slot i = (s.slot i).endSurvey s.timers := by
    rw [← surveyEnd_slot, rest]
    rfl
  have zone (z : ZoneId) : v.zone z = s.zone z := by
    rw [rest]
    cases z <;> rfl
  constructor
  case slot => exact slot
  case manager =>
    intro m
    refine Eq.trans ?_ ((quiet m).trans (by rw [surveyEnd_manager]))
    cases m <;> rfl
  case slots =>
    intro m k i
    rw [← surveyEnd_hasSlotNotice s]
    exact (by cases m <;> rfl : _ ↔ v.hasSlotNotice m k i).trans (slots m k i)
  case shelf =>
    intro m k
    refine (by cases m <;> rfl : _ ↔ v.hasShelfNotice m k).trans ((shelf m k).trans ?_)
    simp only [surveyEnd_hasShelfNotice, surveyEnd_zone]
    rfl
  case zone =>
    intro z
    rw [stopSurvey_zone, markDarks_zone, zone]
    simp only [slot]
    rfl
  case port => exact fun p => by rw [rest]; cases p <;> rfl
  case bank => rw [rest]; rfl
  case map => rw [rest]; rfl
  case ref => rw [rest]; rfl
  case block => rw [rest]; rfl
  case timers => rw [rest]; rfl
  case pending => rw [rest]; rfl
  all_goals rfl

theorem dark_iff (v : Zone) : decide (v.takeFeeds.protection = .dark) = (!v.lineA.accepted && !v.lineB.accepted) := by
  unfold Zone.protection Zone.takeFeeds
  cases v.lineA.accepted <;> cases v.lineB.accepted <;> rfl

theorem endSurvey_lines (l : SlotLines) :
    l.endSurvey = if l.accepted = l.handed then l else { l with surveyEnd := some l.accepted } := by
  unfold SlotLines.endSurvey
  rw [ite_not]

/-- Settles O7. -/
theorem surveyDoneEndsSurvey : Obligations.SurveyDoneEndsSurvey := by
  intro s hr ht hc
  have k := surveyTick hr
  have e := surveyEnds s.takeSurveyTick
  have ex : exec .surveyDone s = .next s.finishSurvey := if_pos ⟨hr, ht, hc⟩
  unfold State.finishSurvey at ex
  generalize s.takeSurveyTick = u at *
  refine ⟨_, ex, e.running, e.closing, fun i => ?_, fun m => ?_, fun m n i => ?_, fun m n => ?_, fun z => ?_, fun p => ?_,
    fun n => ?_, ?_, ?_, ?_, ?_, ?_, ?_⟩
  · rw [e.slot, k.slot, k.timers, Slot.endSurvey, endSurvey_lines]
  · have q := e.manager m
    rw [k.manager] at q
    have state := congrArg Manager.state q
    have mask := congrArg Manager.mask q
    exact ⟨state, mask⟩
  · rw [e.slots, k.faults, hasSlotNotice_congr k.manager]
  · rw [e.shelf, hasShelfNotice_congr k.manager, k.heldFeed, k.heldBus, or_assoc, exists_or]
    simp only [e.zone]
    rfl
  · rw [e.zone, k.zone, dark_iff]
    simp only [k.slot]
    rfl
  · rw [e.port, k.port]
    exact ⟨fun h => if_neg (by rw [h]; decide), freed_idle⟩
  · rw [e.bank, k.total]
  · rw [e.bank, k.bank]
  · exact e.map.trans k.map
  · exact e.ref.trans k.ref
  · exact e.block.trans k.block
  · exact e.timers.trans k.timers
  · exact e.pending.trans k.pending

end Sys2Proof.Machine
end

section
/-! # Request frames and the commands they are (Tables 11-1 and 11-4) -/

namespace Sys2Proof.Machine

variable {s t u : State} {r : Request} {p : Port} {c : Instr} {code tag : Byte}

/-! ## The bytes of a request frame -/

theorem frame_bytes (code : Byte) (r : Request) : (r.frame code).bytes = r.tag :: code :: r.slot ::
    BitVec.ofNat 8 r.params.length :: (r.params ++
      [-(byteSum ([r.tag, code, r.slot, BitVec.ofNat 8 r.params.length] ++ r.params))]) := rfl

theorem frame_length (code : Byte) (r : Request) : (r.frame code).bytes.length = 5 + r.params.length := by
  rw [frame_bytes]
  simp only [List.length_cons, List.length_append, List.length_nil]
  omega

/-- The bytes of a request's frame are read as its fields. -/
theorem requestFrame_bytes (h : r.params.length ≤ 24) : requestFrame? (r.frame code).bytes = some (r.frame code) := by
  have length : (BitVec.ofNat 8 r.params.length).toNat = r.params.length := by
    rw [BitVec.toNat_ofNat]
    omega
  have sum : byteSum (r.frame code).bytes = 0 := byteSum_withCheck _
  rw [frame_bytes] at sum ⊢
  refine (if_pos ⟨?_, ?_, sum⟩).trans ?_
  · rw [length, List.take_left' rfl]
    rfl
  · rw [length]
    exact h
  · rw [length, List.length_append]
    rfl

theorem frameCommand_frame (h : r.params.length ≤ 24) (e : FrameEnd) (d : Nat) (a : BitVec 7) :
    frameCommand p a (r.frame code).bytes e d =
      if unknownTo code r.tag then .unknownRequest code ((r.frame code).request p a e d)
      else (codeCommand? code ((r.frame code).request p a e d)).getD
        (.unknownRequest code ((r.frame code).request p a e d)) := by
  unfold frameCommand
  rw [requestFrame_bytes h]
  rfl

/-! ## The commands of the codes -/

/-- The commands of the codes but RESPOND's (Table 11-4). -/
def codeRows (r : Request) : List (Byte × Instr) := [((0x01 : Byte), Instr.readSlot r), (0x02, .readZone r), (0x03, .readShelf r),
  (0x04, .readNotices r), (0x05, .setNoticeMask r), (0x06, .refresh r), (0x07, .setZone r), (0x08, .setSlotPolicy r),
  (0x0A, .assignGroups r), (0x0B, .releaseGroups r), (0x0C, .retire r), (0x0D, .forceRetire r), (0x0E, .adopt r),
  (0x0F, .unbar r), (0x10, .setObservation r), (0x11, .setTimers r), (0x12, .setMonitor r), (0x13, .readMonitor r),
  (0x14, .clearMonitor r), (0x15, .unfreeze r), (0x20, .declare r), (0x21, .retireSelf r)]

theorem codeCommand_rows (r : Request) : ∀ y ∈ codeRows r, codeCommand? y.1 r = some y.2 := by
  unfold codeRows
  repeat' refine List.forall_mem_cons.2 ⟨rfl, ?_⟩
  exact List.forall_mem_nil _

theorem respondCommand_rows (r : Request) : ∀ y ∈ responses r, r.params.head? = some y.1 → respondCommand r = y.2 := by
  unfold responses
  repeat' refine List.forall_mem_cons.2 ⟨fun h => by unfold respondCommand; rw [h]; rfl, ?_⟩
  exact List.forall_mem_nil _

theorem respondCommand_other (h : ∀ n, 1 ≤ n → n ≤ 9 → r.params.head?.map (·.toNat) ≠ some n) :
    respondCommand r = .respContinue r := by
  unfold respondCommand
  split
  case h_9 => rfl
  all_goals
    next e => exact absurd e (h _ (by decide) (by decide))

/-- A RESPOND is a command that takes its response code, or the first one where its code is none of the nine. -/
theorem respondCommand_of (r : Request) : ∃ y ∈ responses r, respondCommand r = y.2 ∧ ofResponse y.1 r = true := by
  by_cases h : ∃ y ∈ responses r, r.params.head? = some y.1
  · obtain ⟨y, hy, e⟩ := h
    refine ⟨y, hy, respondCommand_rows r y hy e, ?_⟩
    unfold ofResponse
    rw [e]
    simp
  · have none_of (b : Byte) (hb : r.params.head? = some b) : b = 0 ∨ 9 < b.toNat := by
      have out : ∀ y ∈ responses r, b ≠ y.1 := fun y hy e => h ⟨y, hy, e ▸ hb⟩
      simp only [responses, List.forall_mem_cons, ne_eq] at out
      bv_omega
    refine ⟨(1, .respContinue r), List.mem_cons_self .., respondCommand_other fun n h1 h9 e => ?_, ?_⟩
    · obtain ⟨b, hb, e⟩ := Option.map_eq_some_iff.1 e
      have k := none_of b hb
      bv_omega
    · unfold ofResponse
      cases hb : r.params.head? with
      | none => rfl
      | some b =>
        rcases none_of b hb with e | e
        · simp [e]
        · simp [e]

/-- A command that is a request with a body. -/
def Instr.Sends (r : Request) (c : Instr) : Prop := ∃ b, ∀ s, exec c s = request r b s

theorem respondCommand_sends (r : Request) : Instr.Sends r (respondCommand r) := by
  obtain ⟨y, hy, e, h⟩ := respondCommand_of r
  obtain ⟨permits, k, v⟩ := responses_served r y hy
  exact ⟨_, fun s => by rw [e, v.exec]; exact if_pos h⟩

theorem codeCommand_sends (h : codeCommand? code r = some c) : Instr.Sends r c := by
  unfold codeCommand? at h
  split at h
  case h_9 => 
    cases h
    exact respondCommand_sends r
  case h_24 => cases h
  all_goals
    cases h
    exact ⟨_, fun s => rfl⟩

/-- The codes that senders are known to make name commands (Table 11-4). -/
theorem codeCommand_known (h : unknownTo code tag = false) (r : Request) : ∃ c, codeCommand? code r = some c := by
  have known : code ∈ readCodes ++ otherRequestCodes := by
    unfold unknownTo at h
    split at h
    · next who _ =>
      rw [Bool.not_eq_false'] at h
      cases who with
      | manager m =>
        simp only [codeAllowed, Bool.and_eq_true, Bool.or_eq_true, decide_eq_true_eq] at h
        exact List.mem_append.2 h.1.1
      | blade i =>
        simp only [codeAllowed, Bool.or_eq_true, decide_eq_true_eq] at h
        rcases h with (rfl | rfl) | rfl <;> decide
    · exact absurd h (by decide)
  have all : ∀ b ∈ readCodes ++ otherRequestCodes, ∃ c, codeCommand? b r = some c := by
    unfold readCodes otherRequestCodes
    simp only [List.cons_append, List.nil_append]
    repeat' refine List.forall_mem_cons.2 ⟨⟨_, rfl⟩, ?_⟩
    exact List.forall_mem_nil _
  exact all code known

end Sys2Proof.Machine
end

section
/-! # The bus ports outside the requests (R167, R169 to R172) -/

namespace Sys2Proof.Machine

variable {s t u : State} {r : Request} {p : Port} {c : Instr} {w : BusPort} {e : BusEvent} {a : BitVec 7}
variable {bytes : List Byte} {n d : Nat} {ending : FrameEnd}

/-! ## What a command of a port leaves of the part -/

/-- The part but for port `p`, the totals, the survey and the shelf notices is as before. -/
def OnlyPort (p : Port) (s t : State) : Prop :=
  t.slots = s.slots ∧ (∀ z, t.zone z = s.zone z) ∧ t.map = s.map ∧ t.block = s.block ∧ t.ref = s.ref ∧
    t.timers = s.timers ∧ (∀ q, q ≠ p → t.port q = s.port q) ∧ (∀ m, (t.manager m).quiet = (s.manager m).quiet) ∧
    ∀ m k i, t.hasSlotNotice m k i ↔ s.hasSlotNotice m k i

/-- A change of port `p`, with `n` events of a kind counted. -/
theorem onlyPort_counted (s : State) (p : Port) (f : BusPort → BusPort) (k : EventKind) (n : Nat) :
    OnlyPort p s ((s.modPort p f).count k n) := by
  have manager (m : ManagerId) : ((s.modPort p f).count k n).manager m = s.manager m := by
    rw [count_manager, modPort_manager]
  refine ⟨modPort_slots .., fun z => ?_, modPort_map .., modPort_block .., modPort_ref .., modPort_timers ..,
    fun q hq => ?_, fun m => by rw [manager], fun m k i => hasSlotNotice_congr manager m k i⟩
  · rw [count_zone, modPort_zone]
  · rw [count_port, modPort_port, if_neg hq]

theorem onlyPort_modPort (s : State) (p : Port) (f : BusPort → BusPort) : OnlyPort p s (s.modPort p f) := by
  have k := onlyPort_counted s p f .checkFail 0
  rwa [count_none] at k

theorem counted_bank (s : State) (p : Port) (f : BusPort → BusPort) (k : EventKind) (n : Nat) :
    ((s.modPort p f).count k n).bank = (s.count k n).bank := by cases p <;> rfl

/-- A command that changes port `p` to `w`, and nothing else. -/
def SetsPort (p : Port) (s : State) (c : Instr) (w : BusPort) : Prop :=
  ∃ f, exec c s = .next (s.modPort p f) ∧ f (s.port p) = w

/-- A command that changes port `p` to `w` and counts a bus error. -/
def BreaksOff (p : Port) (s : State) (c : Instr) (w : BusPort) : Prop :=
  ∃ f, exec c s = .next ((s.modPort p f).count (busErrorKind p) 1) ∧ f (s.port p) = w

theorem SetsPort.result (h : SetsPort p s c w) : ∃ t, exec c s = .next t ∧ OnlyPort p s t ∧ t.port p = w ∧ t.bank = s.bank := by
  obtain ⟨f, hx, rfl⟩ := h
  exact ⟨_, hx, onlyPort_modPort s p f, modPort_port_self .., modPort_bank ..⟩

theorem BreaksOff.result (h : BreaksOff p s c w) : ∃ t, exec c s = .next t ∧ OnlyPort p s t ∧ t.port p = w ∧
    t.bank = { s.bank with totals := (s.count (busErrorKind p) 1).bank.totals } := by
  obtain ⟨f, hx, rfl⟩ := h
  refine ⟨_, hx, onlyPort_counted s p f (busErrorKind p) 1, ?_, counted_bank s p f (busErrorKind p) 1⟩
  rw [count_port, modPort_port_self]

/-! ## Events of a port -/

theorem busError_zone (s : State) (p : Port) (n : Nat) (e : BusEvent) (z : ZoneId) : (s.busError p n e).zone z = s.zone z := by
  unfold State.busError
  rw [count_zone, modPort_zone]

theorem busEvent_zone (s : State) (p : Port) (e : BusEvent) (z : ZoneId) : (s.busEvent p e).zone z = s.zone z := by
  unfold State.busEvent
  split
  · split
    · exact modPort_zone ..
    · exact busError_zone ..
  · exact modPort_zone ..
  · exact modPort_zone ..
  · exact modPort_zone ..
  · rfl

theorem event_busEvent (s : State) (p : Port) (e : BusEvent) :
    event (fun s => s.busEvent p e) s = .next (s.busEvent p e) := event_of_zones fun _ => busEvent_zone ..

theorem event_own (s : State) (p : Port) (e : BusEvent) (f : State → State) (h : ∀ z, (f s).zone z = s.zone z) :
    event (atAddress p s.busAddress e f) s = .next (f s) := by
  unfold event
  rw [atAddress_own, settle_of_zones (h .one) (h .two)]

theorem event_other (h : a ≠ s.busAddress) (p : Port) (e : BusEvent) (f : State → State) :
    event (atAddress p a e f) s = .next (s.elsewhere p e) := by
  have k (z : ZoneId) : (s.elsewhere p e).zone z = s.zone z := (busEvent_zone ..).trans (busEvent_zone ..)
  unfold event
  rw [atAddress_other p e f h, settle_of_zones (k .one) (k .two)]

/-- A port that rests and holds nothing, a reply, or the reply it sends. -/
def BusPort.Rests (v : BusPort) : Prop := v.state = .idle ∨ v.state = .holding ∨ v.state = .sending

theorem BusPort.Rests.unreceiving {v : BusPort} (h : v.Rests) : v.state ≠ .receiving := by
  rcases h with h | h | h <;> rw [h] <;> decide

theorem busEvent_rests (h : (s.port p).Rests) (e : BusEvent) : s.busEvent p e = s.modPort p (BusPort.discard e) := by
  unfold State.busEvent
  rcases h with h | h | h <;> rw [h]

theorem busEvent_receiving (h : (s.port p).state = .receiving) (e : BusEvent) :
    s.busEvent p e = if e = .stop then s.modPort p BusPort.emptyWrite else s.busError p 0 e := by
  unfold State.busEvent
  rw [h]

/-- A frame broken off after `n` bytes. -/
def BusPort.broken (n : Nat) (e : BusEvent) (v : BusPort) : BusPort :=
  (v.restart e).acknowledge (v.writeAcks n ++ BusEvent.acks e)

theorem busError_eq (s : State) (p : Port) (n : Nat) (e : BusEvent) :
    s.busError p n e = (s.modPort p (BusPort.broken n e)).count (busErrorKind p) 1 := rfl

/-- A frame broken off before its first byte: the write address was acknowledged before. -/
theorem broken_receiving {v : BusPort} (h : v.state = .receiving) (e : BusEvent) : v.broken 0 e =
    { v with state := BusEvent.after e, frame := [], reply := [], acks := BusEvent.acks e } := by
  unfold BusPort.broken BusPort.writeAcks
  rw [h]
  rfl

theorem discard_stop (v : BusPort) : v.discard .stop = { v with state := .idle, frame := [], reply := [], acks := [] } := by
  unfold BusPort.discard
  rw [if_neg (by decide), if_neg fun k => absurd k.2 (by decide)]
  rfl

theorem discard_startWrite (v : BusPort) :
    v.discard .startWrite = { v with state := .receiving, frame := [], reply := [], acks := [true] } := by
  unfold BusPort.discard
  rw [if_neg (by decide), if_neg fun k => absurd k.2 (by decide)]
  rfl

theorem discard_startRead {v : BusPort} (h : v.state ≠ .holding) :
    v.discard .startRead = { v with state := .idle, frame := [], reply := [], acks := [false] } := by
  unfold BusPort.discard
  rw [if_neg (by decide), if_neg fun k => h k.1]
  rfl

theorem discard_holding {v : BusPort} (h : v.state = .holding) :
    v.discard .startRead = { v with state := .sending, acks := [true] } := by
  unfold BusPort.discard
  rw [if_neg (by decide)]
  exact if_pos ⟨h, rfl⟩

/-! ## The commands with the port's own address -/

theorem badCheck_own (hw : wholeFrame bytes = true) (hg : goodFrame bytes = false) (p : Port) (ending : FrameEnd) (s : State) :
    exec (.badCheckFrame p s.busAddress bytes ending) s =
      .next ((s.modPort p (BusPort.answer ending bytes.length ⟨.badCheck, []⟩)).count .checkFail 1) :=
  (if_pos ⟨hw, hg⟩).trans (event_own s p _ _ fun z => by rw [count_zone, modPort_zone])

theorem unknownRequest_own {code : Byte} (h : Received r s) (k : unknownTo code r.tag = true) :
    exec (.unknownRequest code r) s = .next (s.replied r
      ⟨if (s.survey.running ∨ s.survey.closing) ∧ code ∈ otherRequestCodes then .surveying else .unknownRequest, []⟩) := by
  refine (if_pos k).trans (request_refuse h ?_)
  have e : s.survey.refuses = true ∧ changesState code = true ↔
      (s.survey.running = true ∨ s.survey.closing = true) ∧ code ∈ otherRequestCodes := by
    rw [Survey.refuses, Bool.or_eq_true, changesState, decide_eq_true_iff]
  split
  · next hs => rw [if_pos (e.1 hs)]
  · next hs => rw [if_neg fun k => hs (e.2 k)]

theorem insideFrame_of (hw : wholeFrame bytes = false) (h : bytes ≠ [] ∨ e ≠ .stop) : insideFrame bytes e = true := by
  unfold insideFrame
  rw [hw]
  rcases h with h | h
  · simp [h]
  · simp [h]

theorem busError_own (hw : wholeFrame bytes = false) (h : bytes ≠ [] ∨ e ≠ .stop) (p : Port) (s : State) :
    BreaksOff p s (.busError p s.busAddress bytes e) ((s.port p).broken bytes.length e) :=
  ⟨_, (if_pos (insideFrame_of hw h)).trans (event_own s p _ _ fun _ => busError_zone ..), rfl⟩

theorem emptyWrite_own (s : State) (p : Port) : SetsPort p s (.emptyWrite p s.busAddress) (s.port p).emptyWrite :=
  ⟨_, event_own s p _ _ fun _ => modPort_zone .., rfl⟩

theorem readReply_zone (s : State) (p : Port) (n : Nat) (z : ZoneId) : (s.readReply p n).zone z = s.zone z := by
  unfold State.readReply
  split
  · exact modPort_zone ..
  · exact modPort_zone ..
  · exact busError_zone ..
  · exact modPort_zone ..
  · rfl

theorem replyRead_own (s : State) (p : Port) (n : Nat) :
    exec (.replyRead p s.busAddress n) s = .next (s.readReply p n) := event_own s p _ _ fun _ => readReply_zone ..

theorem replyRead_sends (h : (s.port p).state = .holding ∨ (s.port p).state = .sending) (n : Nat) :
    SetsPort p s (.replyRead p s.busAddress n) ((s.port p).send n) := by
  refine ⟨BusPort.send n, (replyRead_own s p n).trans ?_, rfl⟩
  unfold State.readReply
  rcases h with h | h <;> rw [h]

theorem replyRead_idle (h : (s.port p).state = .idle) (n : Nat) :
    SetsPort p s (.replyRead p s.busAddress n) ((s.port p).restart .startRead) := by
  refine ⟨BusPort.restart .startRead, (replyRead_own s p n).trans ?_, rfl⟩
  unfold State.readReply
  rw [h]

theorem replyRead_receiving (h : (s.port p).state = .receiving) (n : Nat) :
    BreaksOff p s (.replyRead p s.busAddress n) ((s.port p).broken 0 .startRead) := by
  refine ⟨BusPort.broken 0 .startRead, (replyRead_own s p n).trans ?_, rfl⟩
  unfold State.readReply
  rw [h]
  rfl

theorem replyBytes_length (reply : List Byte) (n : Nat) : (replyBytes reply n).length = n := by
  rw [replyBytes, List.length_take, List.length_append, List.length_replicate]
  omega

/-- The bytes of a read: the reply's, and 0xFF past its end (R171). -/
theorem replyBytes_at (reply : List Byte) {k : Nat} (h : k < n) : (replyBytes reply n)[k]? = some (reply.getD k 0xFF) := by
  rw [replyBytes, List.getElem?_take_of_lt h, List.getD_eq_getElem?_getD]
  by_cases hk : k < reply.length
  · rw [List.getElem?_append_left hk, List.getElem?_eq_getElem hk]
    rfl
  · have far := not_lt.1 hk
    rw [List.getElem?_append_right far, List.getElem?_eq_none far, List.getElem?_replicate, if_pos (by omega)]
    rfl

/-- A STOP, or a START with the port's own address. -/
theorem replyDiscard_own (s : State) (p : Port) (e : BusEvent) (h : a = s.busAddress ∨ e = .stop) :
    exec (.replyDiscard p a e) s = .next (s.busEvent p e) := by
  cases e with
  | stop => exact event_busEvent s p .stop
  | startOther => exact event_busEvent s p .startOther
  | startWrite =>
    obtain rfl := h.resolve_right (by decide)
    exact event_own s p _ _ fun _ => busEvent_zone ..
  | startRead =>
    obtain rfl := h.resolve_right (by decide)
    exact event_own s p _ _ fun _ => busEvent_zone ..

theorem replyDiscard_rests (h : (s.port p).Rests) (k : a = s.busAddress ∨ e = .stop) :
    SetsPort p s (.replyDiscard p a e) ((s.port p).discard e) :=
  ⟨_, (replyDiscard_own s p e k).trans (by rw [busEvent_rests h]), rfl⟩

theorem replyDiscard_breaks (h : (s.port p).state = .receiving) (he : e ≠ .stop) :
    BreaksOff p s (.replyDiscard p s.busAddress e) ((s.port p).broken 0 e) :=
  ⟨_, (replyDiscard_own s p e (.inl rfl)).trans (by rw [busEvent_receiving h, if_neg he]; rfl), rfl⟩

theorem replyDiscard_receiving (h : (s.port p).state = .receiving) (a : BitVec 7) :
    SetsPort p s (.replyDiscard p a .stop) (s.port p).emptyWrite :=
  ⟨_, (replyDiscard_own s p .stop (.inr rfl)).trans (by rw [busEvent_receiving h]; rfl), rfl⟩

/-- An empty write, in RECEIVING after its address was taken. -/
theorem emptyWrite_receiving {v : BusPort} (h : v.state = .receiving) :
    v.emptyWrite = { v with state := .idle, frame := [], reply := [], acks := [] } := by
  unfold BusPort.emptyWrite BusPort.writeAcks
  rw [h]
  rfl

/-! ## A transaction with another device -/

/-- A command that the port takes as a transaction with another device, which goes on with `e`. -/
def Elsewhere (p : Port) (e : BusEvent) (s : State) (c : Instr) : Prop := exec c s = .next (s.elsewhere p e)

theorem request_other (h : r.addr ≠ s.busAddress) (b : Body) :
    request r b s = .next (s.elsewhere r.port (FrameEnd.elsewhere r.ending)) :=
  congrArg Host.Outcome.next (atAddress_other _ _ _ h)

theorem emptyWrite_other (h : a ≠ s.busAddress) (p : Port) : Elsewhere p .stop s (.emptyWrite p a) := event_other h p _ _

theorem busError_other (h : a ≠ s.busAddress) (hw : wholeFrame bytes = false) (he : bytes ≠ [] ∨ e ≠ .stop) (p : Port) :
    Elsewhere p e s (.busError p a bytes e) := (if_pos (insideFrame_of hw he)).trans (event_other h p _ _)

theorem replyRead_other (h : a ≠ s.busAddress) (p : Port) (n : Nat) : Elsewhere p .startOther s (.replyRead p a n) :=
  event_other h p _ _

theorem elsewhere_startOther (s : State) (p : Port) : s.elsewhere p .startOther = s.busEvent p .startOther := by
  by_cases h : (s.port p).state = .receiving
  · rw [elsewhere_receiving p h (.inr rfl), busEvent_receiving h, if_neg (by decide)]
  · rw [elsewhere_other p _ h]

theorem replyDiscard_other (h : a ≠ s.busAddress) (p : Port) (he : e ≠ .stop) :
    Elsewhere p .startOther s (.replyDiscard p a e) := by
  cases e with
  | stop => exact absurd rfl he
  | startWrite => exact event_other h p _ _
  | startRead => exact event_other h p _ _
  | startOther => exact (event_busEvent s p .startOther).trans (by rw [elsewhere_startOther])

/-- A whole frame for another device, whatever command its bytes are. -/
theorem frameCommand_other (h : a ≠ s.busAddress) (hw : wholeFrame bytes = true) (p : Port) (ending : FrameEnd) (d : Nat) :
    Elsewhere p (FrameEnd.elsewhere ending) s (frameCommand p a bytes ending d) := by
  unfold frameCommand
  cases hf : requestFrame? bytes with
  | none =>
    have bad : goodFrame bytes = false := by
      rw [goodFrame, hf]
      rfl
    exact (if_pos ⟨hw, bad⟩).trans (event_other h p _ _)
  | some f =>
    dsimp only
    split
    · next hu => exact (if_pos hu).trans (request_other (r := f.request p a ending d) h _)
    · next hu =>
      obtain ⟨c, hc⟩ := codeCommand_known (Bool.eq_false_iff.2 hu) (f.request p a ending d)
      obtain ⟨b, hb⟩ := codeCommand_sends hc
      rw [hc]
      exact (hb s).trans (request_other h b)

/-- In RECEIVING a transaction with another device breaks the frame off. -/
theorem Elsewhere.breaks (k : Elsewhere p e s c) (h : (s.port p).state = .receiving) (he : e = .stop ∨ e = .startOther) :
    BreaksOff p s c { s.port p with state := .idle, frame := [], reply := [], acks := [] } :=
  ⟨BusPort.broken 0 .startOther, k.trans (by rw [elsewhere_receiving p h he, busError_eq]), broken_receiving h .startOther⟩

/-- The STOP of a transaction with another device drops what a resting port holds. -/
theorem Elsewhere.drops (k : Elsewhere p .stop s c) (h : (s.port p).Rests) :
    SetsPort p s c { s.port p with state := .idle, frame := [], reply := [], acks := [] } :=
  ⟨_, k.trans (by rw [elsewhere_other p _ h.unreceiving, busEvent_rests h]), discard_stop _⟩

theorem Elsewhere.idles (k : Elsewhere p .startOther s c) (h : (s.port p).state ≠ .receiving) : exec c s = .next s :=
  k.trans (by rw [elsewhere_startOther, busEvent_startOther p h])

theorem modPort_counted (s : State) (p : Port) (f g : BusPort → BusPort) (k : EventKind) (n : Nat) :
    ((s.modPort p f).count k n).modPort p g = (s.modPort p fun v => g (f v)).count k n := by cases p <;> rfl

/-- A START with the port's own address after the frame of another device was broken off. -/
theorem Elsewhere.restarts (k : Elsewhere p e s c) (h : (s.port p).state = .receiving)
    (he : e = .startWrite ∨ e = .startRead) : BreaksOff p s c
      { s.port p with state := BusEvent.after e, frame := [], reply := [], acks := BusEvent.acks e } := by
  have broken := broken_receiving h .startOther
  have port : (s.busError p 0 .startOther).port p = (s.port p).broken 0 .startOther := by
    rw [busError_eq, count_port, modPort_port_self]
  have idle : ((s.busError p 0 .startOther).port p).Rests := by
    rw [port, broken]
    exact .inl rfl
  refine ⟨fun v => (v.broken 0 .startOther).discard e, k.trans ?_, ?_⟩
  · unfold State.elsewhere
    rw [busEvent_receiving h, if_neg (by decide), busEvent_rests idle, busError_eq, modPort_counted]
  · dsimp only
    rw [broken]
    rcases he with rfl | rfl
    · exact discard_startWrite _
    · exact discard_startRead nofun

/-- Where no frame is being received the other device's transaction is as if it had not been there. -/
theorem Elsewhere.as_own (k : Elsewhere p e s c) (h : (s.port p).state ≠ .receiving) :
    exec c s = exec (.replyDiscard p s.busAddress e) s := by
  rw [k, elsewhere_other p e h, replyDiscard_own s p e (.inl rfl)]

/-! ## A stuck line (R172) -/

theorem OnlyPort.survey (h : OnlyPort p s u) (v : Survey) : OnlyPort p s { u with survey := v } := by
  obtain ⟨slots, zone, map, block, ref, timers, port, manager, notices⟩ := h
  have same_zone (z : ZoneId) : ({ u with survey := v } : State).zone z = u.zone z := by cases z <;> rfl
  have same_port (q : Port) : ({ u with survey := v } : State).port q = u.port q := by cases q <;> rfl
  have same_manager (m : ManagerId) : ({ u with survey := v } : State).manager m = u.manager m := by cases m <;> rfl
  exact ⟨slots, fun z => (same_zone z).trans (zone z), map, block, ref, timers, fun q hq => (same_port q).trans (port q hq),
    fun m => (congrArg Manager.quiet (same_manager m)).trans (manager m),
    fun m k i => (hasSlotNotice_congr same_manager m k i).trans (notices m k i)⟩

theorem OnlyPort.postShelf (h : OnlyPort p s u) (n : ShelfNotice) : OnlyPort p s (u.postShelf n) := by
  obtain ⟨slots, zone, map, block, ref, timers, port, manager, notices⟩ := h
  refine ⟨slots, fun z => (postShelf_zone ..).trans (zone z), map, block, ref, timers,
    fun q hq => (postShelf_port ..).trans (port q hq), fun m => ?_,
    fun m k i => (postShelf_hasSlotNotice ..).trans (notices m k i)⟩
  rw [← manager m, postShelf_manager]
  rfl

theorem onlyPort_postBus (h : OnlyPort p s u) : OnlyPort p s u.postBus := by
  unfold State.postBus
  split
  · exact h.survey _
  · exact h.postShelf _

/-- The part once the stuck line of a port has been reset. -/
structure Unsticks (p : Port) (s t : State) : Prop where
  only   : OnlyPort p s t
  port   : t.port p = (s.port p).unstick
  bank   : t.bank = { s.bank with totals := (s.count (busErrorKind p) 1).bank.totals }
  notice : s.survey.running = false → t.postedShelf .bus
  held   : s.survey.running = true → t.survey.heldBus = true ∧ ∀ m, t.manager m = s.manager m

theorem postBus_port (u : State) (p : Port) : u.postBus.port p = u.port p := by
  unfold State.postBus
  split
  · cases p <;> rfl
  · exact postShelf_port ..

theorem postBus_bank (u : State) : u.postBus.bank = u.bank := by
  unfold State.postBus
  split <;> rfl

theorem stuckLineReset_unsticks (h : (s.port p).stuck = true) :
    ∃ t, exec (.stuckLineReset p) s = .next t ∧ Unsticks p s t := by
  have take : s.takeStuck p = ((s.modPort p BusPort.unstick).count (busErrorKind p) 1).postBus := if_pos h
  have only := onlyPort_postBus (onlyPort_counted s p BusPort.unstick (busErrorKind p) 1)
  have survey : ((s.modPort p BusPort.unstick).count (busErrorKind p) 1).survey = s.survey :=
    (count_survey ..).trans (modPort_survey ..)
  have same (m : ManagerId) : ((s.modPort p BusPort.unstick).count (busErrorKind p) 1).manager m = s.manager m :=
    (count_manager ..).trans (modPort_manager ..)
  refine ⟨_, (if_pos h).trans (event_of_zones fun z => by rw [take, only.2.1]), ?_⟩
  rw [take]
  refine ⟨only, ?_, ?_, fun hr => ?_, fun hr => ?_⟩
  · rw [postBus_port, count_port, modPort_port_self]
  · rw [postBus_bank, counted_bank]
    rfl
  · unfold State.postBus
    rw [survey, hr]
    exact postedShelf_postShelf _ _
  · unfold State.postBus
    rw [survey, hr]
    exact ⟨rfl, fun m => by rw [← same m]; cases m <;> rfl⟩

theorem unstick_freed {v : BusPort} (h : v.stuck = true) : v.freed = v.unstick := if_pos h

end Sys2Proof.Machine
end

section
/-! # The bus port commands (R167, R169 to R172): O51 -/

namespace Sys2Proof.Machine

variable {s : State} {p : Port} {e : BusEvent} {bytes : List Byte} {n : Nat}

/-- The bytes of a request's frame, what they are read as, and the command of their code (Tables 11-1 and 11-4). -/
theorem frame_reads (code : Byte) (r : Request) (h : r.params.length ≤ 24) :
    (unknownTo code r.tag = true → frameCommand r.port r.addr (r.frame code).bytes r.ending r.delay = .unknownRequest code r) ∧
    (unknownTo code r.tag = false →
      (∀ y ∈ codeRows r, code = y.1 → frameCommand r.port r.addr (r.frame code).bytes r.ending r.delay = y.2) ∧
      ∀ y ∈ responses r, code = 0x09 → r.params.head? = some y.1 →
        frameCommand r.port r.addr (r.frame code).bytes r.ending r.delay = y.2) := by
  have e : frameCommand r.port r.addr (r.frame code).bytes r.ending r.delay =
      if unknownTo code r.tag then .unknownRequest code r
      else (codeCommand? code r).getD (.unknownRequest code r) := frameCommand_frame h r.ending r.delay r.addr
  rw [e]
  refine ⟨fun hu => if_pos hu, fun hu => ⟨fun y hy hc => ?_, fun y hy hc hh => ?_⟩⟩
  · rw [if_neg (by rw [hu]; decide), hc, codeCommand_rows r y hy]
    rfl
  · have row : codeCommand? 0x09 r = some (respondCommand r) := rfl
    rw [if_neg (by rw [hu]; decide), hc, row, respondCommand_rows r y hy hh]
    rfl

/-- A frame broken off leaves nothing held (R167, R169). -/
theorem broken_eq (v : BusPort) (n : Nat) (e : BusEvent) : v.broken n e = { v with
    state := if e = .startWrite then .receiving else .idle, frame := [], reply := []
    acks := ((if v.state = .receiving then [] else [true]) ++ List.replicate n true) ++ BusEvent.acks e } := by
  cases e <;> rfl

/-- A read of a held reply. -/
theorem replyRead_reads (h : (s.port p).state = .holding ∨ (s.port p).state = .sending) (n : Nat) :
    ∃ t, exec (.replyRead p s.busAddress n) s = .next t ∧ OnlyPort p s t ∧ t.bank = s.bank ∧
      t.port p = { s.port p with
        state := .idle, frame := [], reply := [], sent := (t.port p).sent
        acks := if (s.port p).state = .holding then [true] else [] } ∧
      (t.port p).sent.length = n ∧ ∀ k, k < n → (t.port p).sent[k]? = some ((s.port p).reply.getD k 0xFF) := by
  obtain ⟨t, hx, only, port, bank⟩ := (replyRead_sends h n).result
  have sent : (t.port p).sent = replyBytes (s.port p).reply n := by
    rw [port]
    rfl
  refine ⟨t, hx, only, bank, ?_, ?_, fun k hk => ?_⟩
  · rw [sent, port]
    rfl
  · rw [sent, replyBytes_length]
  · rw [sent, replyBytes_at _ hk]

/-- The commands of a transaction with another device that end with its STOP. -/
theorem stops_elsewhere {a : BitVec 7} {inside : List Byte} (h : a ≠ s.busAddress) (hw : wholeFrame bytes = true)
    (hi : wholeFrame inside = false) (d : Nat) : ∀ c ∈ [Instr.emptyWrite p a, frameCommand p a bytes .stop d] ++
      (if inside = [] then [] else [.busError p a inside .stop]), Elsewhere p .stop s c := by
  intro c hc
  simp only [List.mem_append, List.mem_cons, List.not_mem_nil, or_false] at hc
  rcases hc with (rfl | rfl) | hc
  · exact emptyWrite_other h p
  · exact frameCommand_other h hw p .stop d
  · split at hc
    · exact absurd hc List.not_mem_nil
    · next hn =>
      rw [List.mem_singleton.1 hc]
      exact busError_other h hi (.inl hn) p

/-- Those that it goes on from with a START of its own. -/
theorem starts_elsewhere {a : BitVec 7} {inside : List Byte} (h : a ≠ s.busAddress) (hw : wholeFrame bytes = true)
    (hi : wholeFrame inside = false) (n d : Nat) :
    ∀ c ∈ [Instr.replyDiscard p a .startWrite, .replyDiscard p a .startRead, .replyDiscard p a .startOther,
        .replyRead p a n, .busError p a inside .startOther] ++
        [FrameEnd.hold, .read, .write].map (fun e => frameCommand p a bytes e d), Elsewhere p .startOther s c := by
  simp only [List.forall_mem_append, List.forall_mem_cons, List.forall_mem_map]
  exact ⟨⟨replyDiscard_other h p (by decide), replyDiscard_other h p (by decide), replyDiscard_other h p (by decide),
    replyRead_other h p n, busError_other h hi (.inr (by decide)) p, List.forall_mem_nil _⟩,
    frameCommand_other h hw p .hold d, frameCommand_other h hw p .read d, frameCommand_other h hw p .write d,
    List.forall_mem_nil _⟩

/-- Settles O51. -/
theorem busPortsTakeFrames : Obligations.BusPortsTakeFrames := by
  refine ⟨fun code r h => ?_, fun s p => ?_⟩
  · exact ⟨frame_length code r, byteSum_withCheck _, requestFrame_bytes h, frame_reads code r h⟩
  · intro v wrote kept turns error breaks clear
    have sets {c : Instr} {w : BusPort} (k : SetsPort p s c w) : turns c w := k.result
    have offs {c : Instr} {w : BusPort} (k : BreaksOff p s c w) : breaks c w := by
      obtain ⟨t, hx, only, port, bank⟩ := k.result
      exact ⟨t, hx, only, port, by rw [bank]; cases p <;> rfl⟩
    refine ⟨fun bytes ending hw hg => ?_, fun code r h k => unknownRequest_own h k, fun bytes ev hw h => ?_, ?_,
      fun n h => replyRead_reads h n, fun n h => sets (replyRead_idle h n), fun h => ⟨fun a => ?_, ?_, fun hn => ?_⟩,
      fun h => ?_, fun h => ⟨fun a => ?_, ?_, ?_, fun n => ?_⟩, fun a bytes inside n d ha hw hi => ⟨fun c hc => ?_, fun c hc => ?_,
        fun h => ⟨?_, ?_⟩, fun h ev he => ?_⟩, fun h => ?_⟩
    · exact ⟨_, badCheck_own hw hg p ending s, onlyPort_counted .., by rw [count_port, modPort_port_self], counted_bank ..⟩
    · have k := offs (busError_own hw h p s)
      rw [broken_eq] at k
      cases ev <;> exact k
    · exact sets (emptyWrite_own s p)
    · have k := replyDiscard_rests (a := a) (e := .stop) h (.inr rfl)
      rw [discard_stop] at k
      exact sets k
    · have k := replyDiscard_rests (e := .startWrite) h (.inl rfl)
      rw [discard_startWrite] at k
      exact sets k
    · have k := replyDiscard_rests (e := .startRead) h (.inl rfl)
      rw [discard_startRead hn] at k
      exact sets k
    · have k := replyDiscard_rests (e := .startRead) (.inr (.inl h)) (.inl rfl)
      rw [discard_holding h] at k
      exact sets k
    · have k := replyDiscard_receiving h a
      rw [emptyWrite_receiving h] at k
      exact sets k
    · have k := replyDiscard_breaks (e := .startWrite) h (by decide)
      rw [broken_receiving h] at k
      exact offs k
    · have k := replyDiscard_breaks (e := .startRead) h (by decide)
      rw [broken_receiving h] at k
      exact offs k
    · have k := replyRead_receiving h n
      rw [broken_receiving h] at k
      exact offs k
    · have k := stops_elsewhere (s := s) ha hw hi d c hc
      exact ⟨fun h => offs (k.breaks h (.inl rfl)), fun h => sets (k.drops h)⟩
    · have k := starts_elsewhere (s := s) ha hw hi n d c hc
      exact ⟨fun h => offs (k.breaks h (.inr rfl)), fun h => k.idles h⟩
    · exact offs ((busError_other ha hi (.inr (by decide)) p).restarts h (.inl rfl))
    · exact offs ((busError_other ha hi (.inr (by decide)) p).restarts h (.inr rfl))
    · refine (busError_other ha hi (.inr ?_) p).as_own h
      rcases he with rfl | rfl <;> decide
    · obtain ⟨t, hx, only, port, bank, notice, held⟩ := stuckLineReset_unsticks h
      obtain ⟨stuck, idle, reply⟩ := freed_idle h
      rw [unstick_freed h] at stuck idle reply
      rw [← port] at stuck idle reply
      exact ⟨t, hx, only, reply, idle, stuck, by rw [bank]; cases p <;> rfl, notice, held⟩

end Sys2Proof.Machine
end
